-- ==== Sys2Proof/Word.lean ====
section
/-! DEFINITION. Words, bytes and the numbered objects of the device (00_scope R2, R3; 03 R58; 01 R14; 04 R92). -/

namespace Sys2Proof

/-- One byte of memory. -/
abbrev Byte := BitVec 8
/-- A 64-bit register, counter or record word. -/
abbrev Word := BitVec 64
/-- A 32-bit vector lane or accumulator element (02 R31, 06 R164). -/
abbrev Lane := BitVec 32

/-- x0 to x63 (03 R58). -/
abbrev XReg := Fin 64
/-- v0 to v15 (03 R58). -/
abbrev VReg := Fin 16
/-- An operand code of the V-ISA (03 R70). -/
abbrev VOpnd := Fin 32
/-- Tiles 0 to 255 (01 R14). -/
abbrev TileId := Fin 256
/-- Innkeeper threads 0 to 1023 (01 R21). -/
abbrev ThreadId := Fin 1024
/-- Virtual functions 0 to 127 (04 R92). -/
abbrev VfId := Fin 128
/-- Partitions 0 to 39 (04 R92). -/
abbrev PartId := Fin 40
/-- Arrival counters, device wide (01 R21). -/
abbrev CtrId := Fin 65536
/-- Bookings, device wide (01 R21). -/
abbrev BookId := Fin 65536

end Sys2Proof
end

