-- ==== Sys2Proof/Machine/Table.lean ====
section
/-! DEFINITION. Association lists sorted by number, and memory as one of them. A byte table lists no byte that equals
what an unlisted address reads as, so equal memories are equal lists. -/

namespace Sys2Proof.Machine

/-- Data by number, lowest number first. -/
abbrev Table (α : Type) := List (Nat × α)

/-- The value listed for `n`, if any. -/
def tfind {α : Type} : Table α → Nat → Option α
  | [], _ => none
  | (k, v) :: t, n => if k = n then some v else tfind t n

/-- Remove `n`. -/
def tdel {α : Type} (t : Table α) (n : Nat) : Table α := t.filter (fun e => decide (e.1 ≠ n))

/-- Put an entry before the first greater number. -/
def tinsert {α : Type} (n : Nat) (v : α) : Table α → Table α
  | [] => [(n, v)]
  | (k, w) :: t => if k < n then (k, w) :: tinsert n v t else (n, v) :: (k, w) :: t

/-- Replace or add the entry for `n`. -/
def tput {α : Type} (t : Table α) (n : Nat) (v : α) : Table α := tinsert n v (tdel t n)

/-- Change the entry for `n` where there is one. -/
def tmod {α : Type} (t : Table α) (n : Nat) (f : α → α) : Table α :=
  match tfind t n with
  | some v => tput t n (f v)
  | none => t

/-- The value for `n`, where an unlisted number holds `d`. -/
def tget {α : Type} (d : α) (t : Table α) (n : Nat) : α := (tfind t n).getD d

/-- Set the value for `n`; a number that holds `d` is unlisted. -/
def tset {α : Type} [DecidableEq α] (d : α) (t : Table α) (n : Nat) (v : α) : Table α :=
  if v = d then tdel t n else tput t n v

/-- The lowest number from `lo` on that the table does not list, below `lo + fuel`. -/
def tfree {α : Type} (t : Table α) (lo : Nat) : Nat → Option Nat
  | 0 => none
  | fuel + 1 => if (tfind t lo).isSome then tfree t (lo + 1) fuel else some lo

/-- Put a value before the first that does not come before it. -/
def sortInsert {α : Type} (before : α → α → Bool) (x : α) : List α → List α
  | [] => [x]
  | y :: ys => if before x y then x :: y :: ys else y :: sortInsert before x ys

/-- Sort by a strict order; equals keep their order. -/
def sortBy {α : Type} (before : α → α → Bool) : List α → List α
  | [] => []
  | x :: xs => sortInsert (fun a b => !before b a) x (sortBy before xs)

/-- Numbers strictly rise. -/
def trising {α : Type} : Table α → Bool
  | [] => true
  | [_] => true
  | a :: b :: t => decide (a.1 < b.1) && trising (b :: t)

/-- Bytes by address. -/
abbrev Memory := List Host.Cell

/-- The canonical form: addresses strictly rise and no listed byte is 0, which an unlisted address reads as. -/
def Memory.wf (m : Memory) : Bool := trising m && m.all (fun c => decide (c.2 ≠ 0))

/-- One byte. A byte that nothing has written reads 0 (DESIGN CHOICE, log 1). -/
def mget (m : Memory) (a : Nat) : Byte := tget 0 m a

/-- Write one byte. -/
def mset (m : Memory) (a : Nat) (v : Byte) : Memory := tset 0 m a v

/-- `n` bytes from `a`, lowest address first. -/
def mread (m : Memory) (a : Nat) : Nat → List Byte
  | 0 => []
  | n + 1 => mget m a :: mread m (a + 1) n

/-- Write bytes from `a`, lowest address first. -/
def mwrite (m : Memory) (a : Nat) : List Byte → Memory
  | [] => m
  | b :: bs => mwrite (mset m a b) (a + 1) bs

/-- Bytes as a number, least significant first (R3). -/
def leNat : List Byte → Nat
  | [] => 0
  | b :: bs => b.toNat + 256 * leNat bs

/-- The low `n` bytes of a number, least significant first (R3). -/
def leBytes : Nat → Nat → List Byte
  | 0, _ => []
  | n + 1, w => BitVec.ofNat 8 w :: leBytes n (w / 256)

/-- A 64-bit word of memory. -/
def mword (m : Memory) (a : Nat) : Word := BitVec.ofNat 64 (leNat (mread m a 8))

/-- Set every byte of a range to 0. -/
def mzero (m : Memory) (a n : Nat) : Memory := m.filter (fun c => decide (c.1 < a ∨ a + n ≤ c.1))

/-- Element `i` of a vector. -/
def vget {α : Type} {n : Nat} (v : Vector α n) (i : Fin n) : α := v[i.val]

/-- Replace element `i` of a vector. -/
def vset {α : Type} {n : Nat} (v : Vector α n) (i : Fin n) (x : α) : Vector α n := v.set i.val x

/-- Bits `hi` down to `lo` of a word, as a number (R2). -/
def bfld (w : Word) (hi lo : Nat) : Nat := w.toNat / 2 ^ lo % 2 ^ (hi + 1 - lo)

/-- One bit of a word (R2). -/
def bbit (w : Word) (n : Nat) : Bool := decide (w.toNat / 2 ^ n % 2 = 1)

/-- A word from a number, modulo 2^64. -/
def word (n : Nat) : Word := BitVec.ofNat 64 n

/-- 1 for true. -/
def flagWord (b : Bool) : Word := if b then 1 else 0

/-- Word `i` of a record given as words; a missing word is 0. -/
def recw (r : List Word) (i : Nat) : Word := r.getD i 0

end Sys2Proof.Machine
end

