-- ==== Sys2Proof/Machine/Numeric.lean ====
section
/-! DEFINITION. Numbers: formats, exact values, rounding, special values and conversions (02 R26 to R56). -/

namespace Sys2Proof.Machine

/-- FPSR's flags (R47). -/
abbrev Flags := BitVec 6
def fInvalid : Flags := 1
def fDivzero : Flags := 2
def fOverflow : Flags := 4
def fUnderflow : Flags := 8
def fInexact : Flags := 16
def fClamped : Flags := 32

/-- `f` where a condition holds, else no flag. -/
def flagIf (b : Bool) (f : Flags) : Flags := if b then f else 0

/-- The layout of a binary floating-point format (R27): exponent and fraction bits, bias, and whether it has infinities
and signalling NaNs (E4M3 has neither, R28). -/
structure FloatFmt where
  exp : Nat
  frac : Nat
  bias : Nat
  ieee : Bool
  deriving DecidableEq, Repr

/-- The format of a code 0 to 4 (R26). -/
def floatFmt (code : Nat) : FloatFmt :=
  match code with
  | 0 => ⟨8, 23, 127, true⟩
  | 1 => ⟨8, 7, 127, true⟩
  | 2 => ⟨5, 10, 15, true⟩
  | 3 => ⟨4, 3, 7, false⟩
  | _ => ⟨5, 2, 15, true⟩

/-- Bits of an element of a format (R26). R26 gives codes 11 to 15 none: the sink of a QSTREAM that names one takes 8 bits
(DESIGN CHOICE, log 70). -/
def fmtBits (code : Nat) : Nat :=
  match code with
  | 0 => 32
  | 1 => 16
  | 2 => 16
  | 5 => 4
  | 8 => 16
  | 9 => 32
  | _ => 8

/-- The code names an integer format (R26). -/
def isIntFmt (code : Nat) : Bool := decide (6 ≤ code ∧ code ≤ 9)

/-- An exact value (R56, widen): a NaN with its sign, quietness and fraction set left in 23 bits; an infinity; or
(-1)^neg x m x 2^e. With `sticky` the magnitude lies strictly between m x 2^e and (m + 1) x 2^e. -/
inductive Num where
  | nan (neg quiet : Bool) (frac : Nat)
  | inf (neg : Bool)
  | fin (neg : Bool) (m : Nat) (e : Int) (sticky : Bool)
  deriving DecidableEq, Repr

/-- The NaN that every destination format delivers as its default NaN (R27). -/
def Num.dnan : Num := .nan false true 0x400000
/-- A finite exact value. -/
def Num.exact (neg : Bool) (m : Nat) (e : Int) : Num := .fin neg m e false
def Num.isNan : Num → Bool
  | .nan _ _ _ => true
  | _ => false
def Num.isSnan : Num → Bool
  | .nan _ q _ => !q
  | _ => false
def Num.isInf : Num → Bool
  | .inf _ => true
  | _ => false
def Num.isZero : Num → Bool
  | .fin _ m _ t => decide (m = 0) && !t
  | _ => false
def Num.sign : Num → Bool
  | .nan n _ _ => n
  | .inf n => n
  | .fin n _ _ _ => n
/-- The same value with the other sign. -/
def Num.neg : Num → Num
  | .nan n q f => .nan (!n) q f
  | .inf n => .inf (!n)
  | .fin n m e t => .fin (!n) m e t
/-- quiet(x) (R56). -/
def Num.quiet : Num → Num
  | .nan n _ f => .nan n true f
  | x => x

/-- Significant bits of a magnitude. -/
def bitLen (m : Nat) : Nat := if m = 0 then 0 else Nat.log2 m + 1

/-- widen of a floating-point encoding (R27, R28). -/
def widenF (f : FloatFmt) (bits : Nat) : Num :=
  let neg := decide (bits / 2 ^ (f.exp + f.frac) % 2 = 1)
  let e := bits / 2 ^ f.frac % 2 ^ f.exp
  let fr := bits % 2 ^ f.frac
  if f.ieee ∧ e = 2 ^ f.exp - 1 then
    if fr = 0 then .inf neg else .nan neg (decide (2 ^ (f.frac - 1) ≤ fr)) (fr * 2 ^ (23 - f.frac))
  else if f.ieee = false ∧ e = 2 ^ f.exp - 1 ∧ fr = 2 ^ f.frac - 1 then .nan neg true (fr * 2 ^ (23 - f.frac))
  else if e = 0 then .exact neg fr (1 - (f.bias : Int) - f.frac)
  else .exact neg (2 ^ f.frac + fr) ((e : Int) - f.bias - f.frac)

/-- The integer of an encoding in an integer format (R30). -/
def intOf (code bits : Nat) : Int :=
  match code with
  | 6 => (BitVec.ofNat 8 bits).toInt
  | 7 => (bits % 256 : Nat)
  | 8 => (BitVec.ofNat 16 bits).toInt
  | _ => (BitVec.ofNat 32 bits).toInt

/-- The exact value of an integer. -/
def Num.ofInt (n : Int) : Num := .exact (decide (n < 0)) n.natAbs 0

/-- widen (R56), but for NQ4. -/
def widen (code bits : Nat) : Num :=
  if code ≤ 4 then widenF (floatFmt code) bits
  else if code = 10 then (if bits % 256 = 255 then .dnan else .exact false 1 ((bits % 256 : Nat) - (127 : Int)))
  else Num.ofInt (intOf code bits)

/-! ### Rounding (R37, R38, R42) -/

/-- The magnitude m x 2^e, with its sticky bit, as a multiple of 2^q: the multiple and whether it is exact. -/
structure Multiple where
  n : Nat
  inexact : Bool
  deriving DecidableEq, Repr

/-- Round a magnitude away from zero at the point `sh` bits up? `lo` is the multiple toward zero, `rem` the rest. -/
def roundsAway (mode : Nat) (neg : Bool) (draw lo rem sh : Nat) (sticky : Bool) : Bool :=
  let inexact := decide (rem ≠ 0) || sticky
  match mode with
  | 0 => decide (2 ^ sh < 2 * rem) || (decide (2 * rem = 2 ^ sh) && (sticky || decide (lo % 2 = 1)))
  | 1 => false
  | 2 => neg && inexact
  | 3 => !neg && inexact
  | 4 => decide (2 ^ sh ≤ 2 * rem)
  | _ => decide (2 ^ 16 ≤ rem * 2 ^ 16 / 2 ^ sh + draw)

/-- Round a magnitude to a multiple of 2^q. -/
def roundMultiple (mode : Nat) (neg : Bool) (draw m : Nat) (e q : Int) (sticky : Bool) : Multiple :=
  if q ≤ e then ⟨m * 2 ^ (e - q).toNat, sticky⟩
  else
    let sh := (q - e).toNat
    let lo := m / 2 ^ sh
    let rem := m % 2 ^ sh
    ⟨if roundsAway mode neg draw lo rem sh sticky then lo + 1 else lo, decide (rem ≠ 0) || sticky⟩

/-- The sign bit of an encoding. -/
def signBits (f : FloatFmt) (neg : Bool) : Nat := if neg then 2 ^ (f.exp + f.frac) else 0

/-- The encoding of the largest finite value (R27). -/
def largest (f : FloatFmt) : Nat :=
  if f.ieee then (2 ^ f.exp - 1) * 2 ^ f.frac - 1 else 2 ^ (f.exp + f.frac) - 2
/-- The encoding of infinity, or in E4M3 of its NaN (R27, R38). -/
def infBits (f : FloatFmt) : Nat :=
  if f.ieee then (2 ^ f.exp - 1) * 2 ^ f.frac else 2 ^ (f.exp + f.frac) - 1

/-- The mode's overflow result is infinite (R38). -/
def overflowsToInf (mode : Nat) (neg : Bool) : Bool :=
  match mode with
  | 1 => false
  | 2 => neg
  | 3 => !neg
  | _ => true

/-- The result of an overflow, with its flags (R38). -/
def overflowed (f : FloatFmt) (mode : Nat) (sat neg : Bool) : Nat × Flags :=
  if overflowsToInf mode neg then
    if sat then (signBits f neg + largest f, fClamped ||| fInexact)
    else (signBits f neg + infBits f, fOverflow ||| fInexact)
  else (signBits f neg + largest f, (if sat then 0 else fOverflow) ||| fInexact)

/-- rnd of a nonzero finite value (R38). A magnitude rounded to `frac` + 1 bits with an unbounded exponent is first
tested for overflow, then for tininess. -/
def roundFin (f : FloatFmt) (mode : Nat) (sat : Bool) (draw : Nat) (neg : Bool) (m : Nat) (e : Int) (sticky : Bool) :
    Nat × Flags :=
  let q := e + bitLen m - 1 - f.frac
  let a := roundMultiple mode neg draw m e q sticky
  -- biased exponent of the result, after a carry into the next binade
  let carry := decide (a.n = 2 ^ (f.frac + 1))
  let mant := if carry then 2 ^ f.frac else a.n
  let be : Int := q + f.frac + f.bias + (if carry then 1 else 0)
  if be < 1 then
    let b := roundMultiple mode neg draw m e (1 - (f.bias : Int) - f.frac) sticky
    (signBits f neg + b.n, if b.inexact then fUnderflow ||| fInexact else 0)
  else
    let enc := be.toNat * 2 ^ f.frac + (mant - 2 ^ f.frac)
    if largest f < enc then overflowed f mode sat neg
    else (signBits f neg + enc, flagIf a.inexact fInexact)

/-- A NaN's encoding in a format (R49). -/
def nanBits (f : FloatFmt) (neg : Bool) (frac : Nat) : Nat :=
  signBits f neg +
    if f.ieee then infBits f + ((frac / 2 ^ (23 - f.frac)) ||| 2 ^ (f.frac - 1)) else infBits f

/-- The encoding of an exact value in a floating-point format, rounded once, with its flags (R38, R45, R49, R50). -/
def encodeF (f : FloatFmt) (mode : Nat) (sat : Bool) (draw : Nat) : Num → Nat × Flags
  | .nan n _ fr => (nanBits f n fr, 0)
  | .inf n =>
    if f.ieee then (signBits f n + infBits f, 0)
    else if sat then (signBits f n + largest f, fClamped)
    else (signBits f n + infBits f, fInvalid)
  | .fin n m e t => if m = 0 then (signBits f n, 0) else roundFin f mode sat draw n m e t

/-- An integer kept in `bits` bits, two's complement. -/
def intBits (bits : Nat) (n : Int) : Nat := (n % (2 ^ bits : Nat)).toNat

/-- The ends of an integer format's range (R30). -/
def intRange (code : Nat) : Int × Int :=
  match code with
  | 6 => (-128, 127)
  | 7 => (0, 255)
  | 8 => (-32768, 32767)
  | _ => (-2147483648, 2147483647)

/-- clamp (R56). -/
def clampInt (v lo hi : Int) : Int := if v < lo then lo else if hi < v then hi else v

/-- A value into an integer format (R51). -/
def encodeI (code mode draw : Nat) : Num → Nat × Flags
  | .nan _ _ _ => (0, fInvalid)
  | .inf n => (intBits (fmtBits code) (if n then (intRange code).1 else (intRange code).2), fInvalid)
  | .fin n m e t =>
    let a := roundMultiple mode n draw m e 0 t
    let v : Int := if n then -(a.n : Int) else a.n
    let c := clampInt v (intRange code).1 (intRange code).2
    (intBits (fmtBits code) c, if c = v then flagIf a.inexact fInexact else fInvalid)

/-- An integer into an integer format (R52). -/
def intToInt (code : Nat) (v : Int) : Nat × Flags :=
  let c := clampInt v (intRange code).1 (intRange code).2
  (intBits (fmtBits code) c, flagIf (decide (c ≠ v)) fClamped)

/-- A value into any destination format. -/
def encodeNum (code mode : Nat) (sat : Bool) (draw : Nat) (x : Num) : Nat × Flags :=
  if isIntFmt code then encodeI code mode draw x else encodeF (floatFmt code) mode sat draw x

/-- A signalling NaN among the operands raises invalid (R44, R49). -/
def snanFlag (x : Num) : Flags := flagIf x.isSnan fInvalid

/-- cvt (R49 to R53, R56), but from NQ4. -/
def cvt (src bits dst mode : Nat) (sat : Bool) (draw : Nat) : Nat × Flags :=
  if isIntFmt src ∧ isIntFmt dst then intToInt dst (intOf src bits)
  else
    let x := widen src bits
    let r := encodeNum dst mode sat draw x
    (r.1, r.2 ||| snanFlag x)

/-! ### Arithmetic on exact values (R44, R45) -/

/-- The first NaN of the operands, quieted. -/
def firstNan : List Num → Option Num
  | [] => none
  | x :: xs => if x.isNan then some x.quiet else firstNan xs

/-- Invalid, where an operand is a signalling NaN. -/
def snanFlags (xs : List Num) : Flags := flagIf (xs.any Num.isSnan) fInvalid

/-- The signed mantissa of a finite value. -/
def sgnd (neg : Bool) (m : Nat) : Int := if neg then -(m : Int) else m

/-- The exact sum of two finite values; an exact zero takes its sign by R45. -/
def addFin (mode : Nat) (n1 : Bool) (m1 : Nat) (e1 : Int) (n2 : Bool) (m2 : Nat) (e2 : Int) : Num :=
  let e := min e1 e2
  let v := sgnd n1 (m1 * 2 ^ (e1 - e).toNat) + sgnd n2 (m2 * 2 ^ (e2 - e).toNat)
  if v = 0 then
    .exact (if m1 = 0 ∧ m2 = 0 ∧ n1 = n2 then n1 else decide (mode = 2)) 0 0
  else .exact (decide (v < 0)) v.natAbs e

/-- The sum of two values that are not NaN. -/
def addNum (mode : Nat) : Num → Num → Num × Flags
  | .inf a, .inf b => if a = b then (.inf a, 0) else (.dnan, fInvalid)
  | .inf a, _ => (.inf a, 0)
  | _, .inf b => (.inf b, 0)
  | .fin n1 m1 e1 _, .fin n2 m2 e2 _ => (addFin mode n1 m1 e1 n2 m2 e2, 0)
  | _, _ => (.dnan, 0)

/-- The product of two values that are not NaN. -/
def mulNum : Num → Num → Num × Flags
  | .fin n1 m1 e1 _, .fin n2 m2 e2 _ => (.exact (n1 != n2) (m1 * m2) (e1 + e2), 0)
  | a, b => if a.isZero ∨ b.isZero then (.dnan, fInvalid) else (.inf (a.sign != b.sign), 0)

/-- A quotient of two values that are not NaN. -/
def divNum : Num → Num → Num × Flags
  | .inf _, .inf _ => (.dnan, fInvalid)
  | .inf a, b => (.inf (a != b.sign), 0)
  | a, .inf b => (.exact (a.sign != b) 0 0, 0)
  | .fin n1 m1 e1 _, .fin n2 m2 e2 _ =>
    if m2 = 0 then
      if m1 = 0 then (.dnan, fInvalid) else (.inf (n1 != n2), fDivzero)
    else
      let k := 64 + bitLen m2
      let n := m1 * 2 ^ k
      (.fin (n1 != n2) (n / m2) (e1 - e2 - k) (decide (n % m2 ≠ 0)), 0)
  | _, _ => (.dnan, 0)

/-- The square root of a number, bit by bit from bit `b - 1`. -/
def sqrtBits (n : Nat) : Nat → Nat → Nat
  | 0, r => r
  | b + 1, r => sqrtBits n b (if (r + 2 ^ b) * (r + 2 ^ b) ≤ n then r + 2 ^ b else r)

/-- The integer square root. -/
def isqrt (n : Nat) : Nat := sqrtBits n (bitLen n / 2 + 1) 0

/-- A square root of a value that is not NaN. -/
def sqrtNum : Num → Num × Flags
  | .inf n => if n then (.dnan, fInvalid) else (.inf false, 0)
  | .fin n m e _ =>
    if m = 0 then (.exact n 0 0, 0)
    else if n then (.dnan, fInvalid)
    else
      let odd := decide (e % 2 ≠ 0)
      let x := (if odd then 2 * m else m) * 2 ^ 128
      let e' := if odd then e - 1 else e
      let r := isqrt x
      (.fin false r (e' / 2 - 64) (decide (r * r ≠ x)), 0)
  | x => (x, 0)

/-- Two-operand arithmetic: NaNs first (R44). -/
def num2 (f : Num → Num → Num × Flags) (a b : Num) : Num × Flags :=
  match firstNan [a, b] with
  | some n => (n, snanFlags [a, b])
  | none => f a b

def num1 (f : Num → Num × Flags) (a : Num) : Num × Flags :=
  match firstNan [a] with
  | some n => (n, snanFlags [a])
  | none => f a

/-- The product is 0 x infinity. -/
def zeroTimesInf (a b : Num) : Bool := (a.isZero && b.isInf) || (a.isInf && b.isZero)

/-- Fused a x b + c: multiplicands first, then the addend (R44). -/
def fmaNum (mode : Nat) (a b c : Num) : Num × Flags :=
  match firstNan [a, b, c] with
  | some n => (n, snanFlags [a, b, c] ||| flagIf (zeroTimesInf a b) fInvalid)
  | none =>
    let p := mulNum a b
    match firstNan [p.1] with
    | some n => (n, p.2)
    | none => addNum mode p.1 c

/-- Arithmetic rounded into a floating-point format. -/
def rounded (code mode : Nat) (sat : Bool) (draw : Nat) (r : Num × Flags) : Nat × Flags :=
  let e := encodeF (floatFmt code) mode sat draw r.1
  (e.1, e.2 ||| r.2)

def fAdd (code mode : Nat) (sat : Bool) (draw a b : Nat) : Nat × Flags :=
  rounded code mode sat draw (num2 (addNum mode) (widen code a) (widen code b))
def fSub (code mode : Nat) (sat : Bool) (draw a b : Nat) : Nat × Flags :=
  rounded code mode sat draw (num2 (fun x y => addNum mode x y.neg) (widen code a) (widen code b))
def fMul (code mode : Nat) (sat : Bool) (draw a b : Nat) : Nat × Flags :=
  rounded code mode sat draw (num2 mulNum (widen code a) (widen code b))
def fDiv (code mode : Nat) (sat : Bool) (draw a b : Nat) : Nat × Flags :=
  rounded code mode sat draw (num2 divNum (widen code a) (widen code b))
def fSqrt (code mode : Nat) (sat : Bool) (draw a : Nat) : Nat × Flags :=
  rounded code mode sat draw (num1 sqrtNum (widen code a))
/-- a x b + c. -/
def fFma (code mode : Nat) (sat : Bool) (draw a b c : Nat) : Nat × Flags :=
  rounded code mode sat draw (fmaNum mode (widen code a) (widen code b) (widen code c))
/-- c - a x b, fused: a NaN operand keeps its sign (R44). -/
def fFms (code mode : Nat) (sat : Bool) (draw a b c : Nat) : Nat × Flags :=
  let x := widen code a
  rounded code mode sat draw (fmaNum mode (if x.isNan then x else x.neg) (widen code b) (widen code c))

/-! ### Comparison (R48) -/

/-- The order of two finite magnitudes with signs, as integers over a common exponent. -/
def finCompare (n1 : Bool) (m1 : Nat) (e1 : Int) (n2 : Bool) (m2 : Nat) (e2 : Int) : Ordering :=
  let e := min e1 e2
  compare (sgnd n1 (m1 * 2 ^ (e1 - e).toNat)) (sgnd n2 (m2 * 2 ^ (e2 - e).toNat))

/-- The order of two values that are not NaN; the zeros are equal. -/
def numCompare : Num → Num → Ordering
  | .inf a, .inf b => if a = b then .eq else if a then .lt else .gt
  | .inf a, _ => if a then .lt else .gt
  | _, .inf b => if b then .gt else .lt
  | .fin n1 m1 e1 _, .fin n2 m2 e2 _ => finCompare n1 m1 e1 n2 m2 e2
  | _, _ => .eq

/-- The first is less, where -0 is less than +0 (R48). -/
def numLess (a b : Num) : Bool :=
  match numCompare a b with
  | .lt => true
  | .gt => false
  | .eq => a.sign && !b.sign

/-- quiet(x) on an encoding (R56). -/
def quietBits (code bits : Nat) : Nat :=
  let f := floatFmt code
  if f.ieee then bits ||| 2 ^ (f.frac - 1) else bits

/-- FMIN, FMAX, FMINN and FMAXN (R48): `mx` takes the greater, `number` prefers a number to a NaN. -/
def minMax (code : Nat) (mx number : Bool) (a b : Nat) : Nat × Flags :=
  let x := widen code a
  let y := widen code b
  let fl := snanFlags [x, y]
  if x.isNan ∧ (y.isNan ∨ number = false) then (quietBits code a, fl)
  else if x.isNan then (b, fl)
  else if y.isNan then (if number then a else quietBits code b, fl)
  else (if mx then (if numLess x y then b else a) else (if numLess y x then b else a), 0)

/-! ### NQ4 (R33, R35) -/

/-- The codebook in units of 1/256 (R33). -/
def codebook (q : Nat) : Int :=
  [-256, -176, -128, -96, -70, -46, -23, 0, 20, 41, 63, 86, 112, 144, 184, 256].getD (q % 16) 0

/-- nq4(q, c, ss) (R35, R56), with invalid where ss signals or the product is 0 x infinity. -/
def nq4 (q c ss : Nat) : Num × Flags :=
  let n := codebook q
  num2 mulNum (.exact (decide (n < 0)) n.natAbs (-8))
    (match widen 0 ss with
     | .fin s m e t => .fin s (m * (c % 256 + 1)) (e - 8) t
     | x => x)

/-! ### The generators (R40, R41) -/

/-- One xorshift32 step (R40). -/
def xorshift (x : BitVec 32) : BitVec 32 :=
  let a := x ^^^ (x <<< 13)
  let b := a ^^^ (a >>> 17)
  b ^^^ (b <<< 5)

/-- The seeded word: never 0 (R41). -/
def seedWord (seed salt : BitVec 32) : BitVec 32 := if seed ^^^ salt = 0 then 1 else seed ^^^ salt

end Sys2Proof.Machine
end

