-- ==== Sys2Proof/Config.lean ====
section
/-! DEFINITION. What the manual leaves to the device or to the world outside it. Each constant has no body, so a claim
about the machine holds whatever its value is. -/

namespace Sys2Proof.Config

/-- Which end of the model's interval (odd for the upper) stands for a transcendental function's value where the interval
does not settle 40 leading bits (R183, log 8), by function code, format, mode, draw and operand. -/
opaque transcendental : Nat → Nat → Nat → Nat → Nat → Nat

/-- The firmware signature of a hash verifies under the fused public key (R420, log 7). -/
opaque sm2Verifies : BitVec 256 → List Byte → Bool

/-- The device's attestation signature over a hash, 64 bytes (R427, log 7). -/
opaque sm2Sign : BitVec 256 → BitVec 512

/-- SM3 of the boot ROM's second stage (R426, log 7). -/
opaque romDigest : BitVec 256

/-- How a peer answers a Purlin request, by a fresh number, device, VF, key, address and length: 0 serves, 1 retry
later, any other number refuses (R406, log 7). -/
opaque peerAnswer : Nat → Nat → Nat → Nat → Nat → Nat → Nat

/-- Transmit resources are free, by a fresh number (R403, log 21). -/
opaque transmitFree : Nat → Bool

/-- The host port answers an access of a VF with an error completion, by a fresh number (R340, R433, log 7). -/
opaque hostError : Nat → Nat → Nat → Bool

/-- The class of a job-queue entry that an import brings in, which the entry's record does not name, by its place (R415, log 19). -/
opaque imageByte : Nat → Nat → Byte

/-- A byte of a peer's memory, by a fresh number and its address there (R260, log 7). -/
opaque peerByte : Nat → Nat → Byte

/-- Which of a member's Purlin ports carried a store that was lost, by a fresh number and the member (R408, log 7). -/
opaque lostPort : Nat → Nat → Nat

/-- Which of the ports on its way a packet takes, by its delivery context and what it spreads over (R388, R405, log 72). -/
opaque packetPort : Nat → Nat → Nat

/-- A value that the manual does not state, by a fresh number (log 6). -/
opaque unstated : Nat → Nat

end Sys2Proof.Config
end

