-- ==== Sys2Proof/Syntax.lean ====
section
/-! DEFINITION. The syntax: one constructor for each row of spec/opcode_table.json, and the operands that the
device steps without a word carry. -/

namespace Sys2Proof

/-- The four streams of a tile (01 R15). -/
inductive Stream where
  | S | V | M | A
  deriving DecidableEq, Repr

/-- The ports that change link state (13 R381). -/
inductive PortKind where
  | ethernet | purlin | host | cxl | nvme
  deriving DecidableEq, Repr

/-- An item of the select phase: a JQ entry, a requeued gang, or an active card's slot (10 R306). -/
inductive ItemId where
  | entry (id : Nat)
  | gang (id : Nat)
  | card (p : PartId) (slot : Nat)
  deriving DecidableEq, Repr

/-- The scope of a snapshot: one partition or the device (12 R370). -/
inductive SnapScope where
  | partition (p : PartId)
  | device
  deriving DecidableEq, Repr

/-- What a scrub read finds (14 R429). -/
inductive Upset where
  | none | corrected | uncorrectable
  deriving DecidableEq, Repr

/-- A flash write that power loss cuts short: bytes from `offset` of the boot flash hold `bytes` (14 R423). -/
structure FlashCut where
  offset : Nat
  bytes : List Byte
  deriving DecidableEq, Repr

/-- A 64-byte message, packet or record of eight words, w0 first (00 R3). -/
structure Msg where
  w0 : Word
  w1 : Word
  w2 : Word
  w3 : Word
  w4 : Word
  w5 : Word
  w6 : Word
  w7 : Word
  deriving DecidableEq, Repr

/-- The semantics of a message: those that a booking may match, and those that the transport does not support
(13 R388, R396). -/
inductive MsgKind where
  | send | rmaWrite | rmaRead | unsupported
  deriving DecidableEq, Repr

/-- An arriving packet with what the transport carries: the message it belongs to, its delivery context and
sequence number, the source's addressing and the bytes (13 R387 to R389). `total` is the message's length, `offset` an
RMA's offset, `position` the place of the packet's bytes in the message. `dropped` marks UUD delivery or a security
sublayer. -/
structure Packet where
  port : Nat
  purlin : Bool
  context : Nat
  seqNo : Nat
  message : Nat
  kind : MsgKind
  addrLo : Word
  addrHi : Word
  job : BitVec 24
  pid : BitVec 12
  ri : BitVec 12
  remoteVf : VfId
  destVf : VfId
  tag : Word
  offset : Nat
  total : Nat
  position : Nat
  bytes : List Byte
  dropped : Bool
  deriving DecidableEq, Repr

/-- A packet of an accepted SEND: the send's number and its place among the packets (13 R388, R391). -/
structure SendPacket where
  send : Nat
  place : Nat
  deriving DecidableEq, Repr

/-- A peer's Purlin request (13 R406): read `length` bytes, or write `bytes`, at an IPA of a VF. -/
structure PurlinReq where
  vf : VfId
  key : BitVec 32
  ipa : Nat
  length : Nat
  write : Bool
  bytes : List Byte
  deriving DecidableEq, Repr

/-- A register whose write has no behaviour of its own (00 R7, 13 R385, R409). -/
inductive RegTarget where
  | csr (num : BitVec 12)
  | config (th : ThreadId) (addr : Nat)
  | hostPage (vf : VfId) (offset : Nat)
  deriving DecidableEq, Repr

/-- The instructions and steps of HBV-M8-512, one constructor for each row of the opcode table. -/
inductive Instr where
  /-- ADD (R150). Adds two registers modulo 2^64. -/
  | add (d : XReg) (a : XReg) (b : XReg)
  /-- SUB (R150). Subtracts xb from xa modulo 2^64. -/
  | sub (d : XReg) (a : XReg) (b : XReg)
  /-- MUL (R150). Writes the low 64 bits of the product. -/
  | mul (d : XReg) (a : XReg) (b : XReg)
  /-- MULHS (R150). Writes the signed high half of the product. -/
  | mulhs (d : XReg) (a : XReg) (b : XReg)
  /-- MULHU (R150). Writes the unsigned high half of the product. -/
  | mulhu (d : XReg) (a : XReg) (b : XReg)
  /-- DIV (R151). Signed division that never traps. -/
  | div (d : XReg) (a : XReg) (b : XReg)
  /-- DIVU (R151). Unsigned division that never traps. -/
  | divu (d : XReg) (a : XReg) (b : XReg)
  /-- REM (R151). Signed remainder that never traps. -/
  | rem (d : XReg) (a : XReg) (b : XReg)
  /-- REMU (R151). Unsigned remainder that never traps. -/
  | remu (d : XReg) (a : XReg) (b : XReg)
  /-- AND (R150). Bitwise and of two registers. -/
  | and (d : XReg) (a : XReg) (b : XReg)
  /-- OR (R150). Bitwise or of two registers. -/
  | or (d : XReg) (a : XReg) (b : XReg)
  /-- XOR (R150). Bitwise xor of two registers. -/
  | xor (d : XReg) (a : XReg) (b : XReg)
  /-- ANDN (R150). xa and not xb. -/
  | andn (d : XReg) (a : XReg) (b : XReg)
  /-- SHL (R150). Shifts left by xb[5:0]. -/
  | shl (d : XReg) (a : XReg) (b : XReg)
  /-- SHR (R150). Logical right shift by xb[5:0]. -/
  | shr (d : XReg) (a : XReg) (b : XReg)
  /-- SAR (R150). Arithmetic right shift by xb[5:0]. -/
  | sar (d : XReg) (a : XReg) (b : XReg)
  /-- ROL (R150). Rotates left by xb[5:0]. -/
  | rol (d : XReg) (a : XReg) (b : XReg)
  /-- MIN (R150). Signed minimum. -/
  | min (d : XReg) (a : XReg) (b : XReg)
  /-- MINU (R150). Unsigned minimum. -/
  | minu (d : XReg) (a : XReg) (b : XReg)
  /-- MAX (R150). Signed maximum. -/
  | max (d : XReg) (a : XReg) (b : XReg)
  /-- MAXU (R150). Unsigned maximum. -/
  | maxu (d : XReg) (a : XReg) (b : XReg)
  /-- SLT (R150). Sets 1 if xa is less than xb, signed. -/
  | slt (d : XReg) (a : XReg) (b : XReg)
  /-- SLTU (R150). Sets 1 if xa is less than xb, unsigned. -/
  | sltu (d : XReg) (a : XReg) (b : XReg)
  /-- SEQ (R150). Sets 1 if xa equals xb. -/
  | seq (d : XReg) (a : XReg) (b : XReg)
  /-- CLZ (R150). Counts leading zeros of xa. -/
  | clz (d : XReg) (a : XReg)
  /-- CTZ (R150). Counts trailing zeros of xa. -/
  | ctz (d : XReg) (a : XReg)
  /-- POPC (R150). Counts the 1 bits of xa. -/
  | popc (d : XReg) (a : XReg)
  /-- SEL (R150). Selects bits from xa or xb by the mask in xd. -/
  | sel (d : XReg) (a : XReg) (b : XReg)
  /-- ADDI (R152). Adds a sign-extended immediate. -/
  | addi (d : XReg) (a : XReg) (i : BitVec 13)
  /-- ANDI (R152). Ands with a sign-extended immediate. -/
  | andi (d : XReg) (a : XReg) (i : BitVec 13)
  /-- ORI (R152). Ors with a sign-extended immediate. -/
  | ori (d : XReg) (a : XReg) (i : BitVec 13)
  /-- XORI (R152). Xors with a sign-extended immediate. -/
  | xori (d : XReg) (a : XReg) (i : BitVec 13)
  /-- SHLI (R152). Shifts left by an immediate count. -/
  | shli (d : XReg) (a : XReg) (n : Fin 64)
  /-- SHRI (R152). Logical right shift by an immediate count. -/
  | shri (d : XReg) (a : XReg) (n : Fin 64)
  /-- SARI (R152). Arithmetic right shift by an immediate count. -/
  | sari (d : XReg) (a : XReg) (n : Fin 64)
  /-- SLTI (R152). Signed compare with an immediate. -/
  | slti (d : XReg) (a : XReg) (i : BitVec 13)
  /-- SLTIU (R152). Unsigned compare with an immediate. -/
  | sltiu (d : XReg) (a : XReg) (i : BitVec 13)
  /-- LIH (R152). Loads a 19-bit immediate shifted left by 13, sign-extended. -/
  | lih (d : XReg) (i : BitVec 19)
  /-- EXTU (R153). Extracts an unsigned bitfield. -/
  | extu (d : XReg) (a : XReg) (p : Fin 64) (l : Fin 64)
  /-- EXTS (R153). Extracts a sign-extended bitfield. -/
  | exts (d : XReg) (a : XReg) (p : Fin 64) (l : Fin 64)
  /-- INS (R153). Inserts the low bits of xa into a field of xd. -/
  | ins (d : XReg) (a : XReg) (p : Fin 64) (l : Fin 64)
  /-- BEQ (R154). Branches if xa equals xb. -/
  | beq (a : XReg) (b : XReg) (o : BitVec 13)
  /-- BNE (R154). Branches if xa differs from xb. -/
  | bne (a : XReg) (b : XReg) (o : BitVec 13)
  /-- BLT (R154). Branches if xa is less than xb, signed. -/
  | blt (a : XReg) (b : XReg) (o : BitVec 13)
  /-- BGE (R154). Branches if xa is at least xb, signed. -/
  | bge (a : XReg) (b : XReg) (o : BitVec 13)
  /-- BLTU (R154). Branches if xa is less than xb, unsigned. -/
  | bltu (a : XReg) (b : XReg) (o : BitVec 13)
  /-- BGEU (R154). Branches if xa is at least xb, unsigned. -/
  | bgeu (a : XReg) (b : XReg) (o : BitVec 13)
  /-- J (R154). Jumps by a word offset. -/
  | j (o : BitVec 19)
  /-- JAL (R154). Jumps and writes the return address. -/
  | jal (d : XReg) (o : BitVec 19)
  /-- JALR (R154). Jumps to xa plus an offset and writes the return address. -/
  | jalr (d : XReg) (a : XReg) (i : BitVec 13)
  /-- LDS_B (R155). Loads a sign-extended byte from the scratchpad or core-local store. -/
  | ldsB (d : XReg) (a : XReg) (i : BitVec 13)
  /-- LDS_BU (R155). Loads a zero-extended byte. -/
  | ldsBu (d : XReg) (a : XReg) (i : BitVec 13)
  /-- LDS_H (R155). Loads a sign-extended halfword. -/
  | ldsH (d : XReg) (a : XReg) (i : BitVec 13)
  /-- LDS_HU (R155). Loads a zero-extended halfword. -/
  | ldsHu (d : XReg) (a : XReg) (i : BitVec 13)
  /-- LDS_W (R155). Loads a sign-extended word. -/
  | ldsW (d : XReg) (a : XReg) (i : BitVec 13)
  /-- LDS_WU (R155). Loads a zero-extended word. -/
  | ldsWu (d : XReg) (a : XReg) (i : BitVec 13)
  /-- LDS_D (R155). Loads a doubleword. -/
  | ldsD (d : XReg) (a : XReg) (i : BitVec 13)
  /-- STS_B (R155). Stores a byte to the scratchpad or core-local store. -/
  | stsB (s : XReg) (a : XReg) (i : BitVec 13)
  /-- STS_H (R155). Stores a halfword. -/
  | stsH (s : XReg) (a : XReg) (i : BitVec 13)
  /-- STS_W (R155). Stores a word. -/
  | stsW (s : XReg) (a : XReg) (i : BitVec 13)
  /-- STS_D (R155). Stores a doubleword. -/
  | stsD (s : XReg) (a : XReg) (i : BitVec 13)
  /-- AMOS (R156). Atomic read-modify-write in the scratchpad or core-local store. -/
  | amos (d : XReg) (a : XReg) (b : XReg) (z : Fin 4) (o : Fin 32)
  /-- CASS (R156). Atomic compare-and-swap in the scratchpad or core-local store. -/
  | cass (d : XReg) (a : XReg) (b : XReg) (z : Fin 4)
  /-- LD_B (R158). Thread load of a sign-extended byte from global memory. -/
  | ldB (d : XReg) (a : XReg) (i : BitVec 13)
  /-- LD_BU (R158). Thread load of a zero-extended byte. -/
  | ldBu (d : XReg) (a : XReg) (i : BitVec 13)
  /-- LD_H (R158). Thread load of a sign-extended halfword. -/
  | ldH (d : XReg) (a : XReg) (i : BitVec 13)
  /-- LD_HU (R158). Thread load of a zero-extended halfword. -/
  | ldHu (d : XReg) (a : XReg) (i : BitVec 13)
  /-- LD_W (R158). Thread load of a sign-extended word. -/
  | ldW (d : XReg) (a : XReg) (i : BitVec 13)
  /-- LD_WU (R158). Thread load of a zero-extended word. -/
  | ldWu (d : XReg) (a : XReg) (i : BitVec 13)
  /-- LD_D (R158). Thread load of a doubleword. -/
  | ldD (d : XReg) (a : XReg) (i : BitVec 13)
  /-- ST_B (R158). Thread store of a byte to global memory. -/
  | stB (s : XReg) (a : XReg) (i : BitVec 13)
  /-- ST_H (R158). Thread store of a halfword. -/
  | stH (s : XReg) (a : XReg) (i : BitVec 13)
  /-- ST_W (R158). Thread store of a word. -/
  | stW (s : XReg) (a : XReg) (i : BitVec 13)
  /-- ST_D (R158). Thread store of a doubleword. -/
  | stD (s : XReg) (a : XReg) (i : BitVec 13)
  /-- AMO (R158). Thread atomic read-modify-write at the memory side. -/
  | amo (d : XReg) (a : XReg) (b : XReg) (z : Fin 4) (o : Fin 32)
  /-- CAS (R158). Thread atomic compare-and-swap at the memory side. -/
  | cas (d : XReg) (a : XReg) (b : XReg) (z : Fin 4)
  /-- FADD (R160). FP32 add in a static rounding mode. -/
  | fadd (d : XReg) (a : XReg) (b : XReg) (m : Fin 8)
  /-- FADD_DYN (R160). FP32 add in FPCR.RM. -/
  | faddDyn (d : XReg) (a : XReg) (b : XReg)
  /-- FSUB (R160). FP32 subtract in a static rounding mode. -/
  | fsub (d : XReg) (a : XReg) (b : XReg) (m : Fin 8)
  /-- FSUB_DYN (R160). FP32 subtract in FPCR.RM. -/
  | fsubDyn (d : XReg) (a : XReg) (b : XReg)
  /-- FMUL (R160). FP32 multiply in a static rounding mode. -/
  | fmul (d : XReg) (a : XReg) (b : XReg) (m : Fin 8)
  /-- FMUL_DYN (R160). FP32 multiply in FPCR.RM. -/
  | fmulDyn (d : XReg) (a : XReg) (b : XReg)
  /-- FMA (R160). FP32 fused multiply-add into xd, static mode. -/
  | fma (d : XReg) (a : XReg) (b : XReg) (m : Fin 8)
  /-- FMA_DYN (R160). FP32 fused multiply-add in FPCR.RM. -/
  | fmaDyn (d : XReg) (a : XReg) (b : XReg)
  /-- FDIV (R160). FP32 divide in a static rounding mode. -/
  | fdiv (d : XReg) (a : XReg) (b : XReg) (m : Fin 8)
  /-- FDIV_DYN (R160). FP32 divide in FPCR.RM. -/
  | fdivDyn (d : XReg) (a : XReg) (b : XReg)
  /-- FSQRT (R160). FP32 square root in a static rounding mode. -/
  | fsqrt (d : XReg) (a : XReg) (m : Fin 8)
  /-- FSQRT_DYN (R160). FP32 square root in FPCR.RM. -/
  | fsqrtDyn (d : XReg) (a : XReg)
  /-- FMIN (R48). IEEE 754-2019 minimum of FP32 values. -/
  | fmin (d : XReg) (a : XReg) (b : XReg)
  /-- FMAX (R48). IEEE 754-2019 maximum of FP32 values. -/
  | fmax (d : XReg) (a : XReg) (b : XReg)
  /-- FMINN (R48). minimumNumber of FP32 values. -/
  | fminn (d : XReg) (a : XReg) (b : XReg)
  /-- FMAXN (R48). maximumNumber of FP32 values. -/
  | fmaxn (d : XReg) (a : XReg) (b : XReg)
  /-- FCMP (R161). Compares FP32 values by a predicate. -/
  | fcmp (d : XReg) (a : XReg) (b : XReg) (p : Fin 8)
  /-- FCVT_FMT_F32 (R160). Converts FP32 into another format, static mode. -/
  | fcvtFmtF32 (d : XReg) (a : XReg) (s : Bool) (f : Fin 16) (m : Fin 8)
  /-- FCVT_FMT_F32_DYN (R160). Converts FP32 into another format in FPCR.RM. -/
  | fcvtFmtF32Dyn (d : XReg) (a : XReg) (s : Bool) (f : Fin 16)
  /-- FCVT_F32_FMT (R160). Converts another format into FP32, static mode. -/
  | fcvtF32Fmt (d : XReg) (a : XReg) (s : Bool) (f : Fin 16) (m : Fin 8)
  /-- FCVT_F32_FMT_DYN (R160). Converts another format into FP32 in FPCR.RM. -/
  | fcvtF32FmtDyn (d : XReg) (a : XReg) (s : Bool) (f : Fin 16)
  /-- FCLASS (R162). Writes the class mask of an FP32 value. -/
  | fclass (d : XReg) (a : XReg)
  /-- QPOPS (R163). Pops and converts one queue element into a scalar register. -/
  | qpops (d : XReg) (q : Fin 4)
  /-- FORK (R133). Starts the V, M and A streams named in the mask. -/
  | fork (a : XReg) (m : Fin 8)
  /-- JOIN (R134). Waits until every forked stream has ended and empties the forked set. -/
  | join
  /-- END (R136). Ends the task as a commit point that publishes all buffered effects. -/
  | taskEnd
  /-- CKPT (R142). Publishes at SYSTEM scope and saves a checkpoint from a live-range table. -/
  | ckpt (a : XReg) (i : BitVec 13)
  /-- WAITC (R327). Stalls the S stream until outstanding engine commands fall within per-class limits. -/
  | waitc (l : Fin 16) (s : Fin 16) (c : Fin 16) (o : Fin 16)
  /-- WAITV (R330). Waits on up to four counter conditions, ANY or ALL, with a time-out. -/
  | waitv (d : XReg) (a : XReg) (l : Bool) (m : Fin 16)
  /-- PEGP (R331). Posts a peg once earlier S-stream scratchpad accesses have taken effect. -/
  | pegp (p : Fin 16)
  /-- PEGW (R331). Stalls the S stream until a peg reaches a count. -/
  | pegw (a : XReg) (p : Fin 16)
  /-- BAR (R332). Gang barrier, optionally publishing at a scope first. -/
  | bar (p : Bool) (s : Fin 4)
  /-- PHASE (R334). Commit point that publishes at a scope, waits, and acquires. -/
  | phase (s : Fin 4)
  /-- FENCE (R335). Acquires at a scope after earlier accesses take effect, publishing nothing. -/
  | fence (s : Fin 4)
  /-- JQPUT (R280). Reserves a JQ unit and buffers or sends a put through a queue handle. -/
  | jqput (d : XReg) (a : XReg) (b : XReg)
  /-- JQCTL_CLASSSET (R266). Installs a class record and returns a new handle. -/
  | jqctlClassset (d : XReg) (a : XReg) (b : XReg)
  /-- JQCTL_CLASSGET (R289). Derives or frees a queue handle. -/
  | jqctlClassget (d : XReg) (a : XReg) (b : XReg)
  /-- JQCTL_FREEZE (R287). Freezes a class. -/
  | jqctlFreeze (d : XReg) (a : XReg) (b : XReg)
  /-- JQCTL_THAW (R290). Thaws a class and requeues or frees its FAULTED entries. -/
  | jqctlThaw (d : XReg) (a : XReg) (b : XReg)
  /-- JQCTL_TAKE (R291). Removes the first READY entry of a class and returns its record. -/
  | jqctlTake (d : XReg) (a : XReg) (b : XReg)
  /-- JQCTL_STEAL (R291). Removes the matchable entry with a given key and returns its record. -/
  | jqctlSteal (d : XReg) (a : XReg) (b : XReg)
  /-- JQCTL_QUERY (R292). Reports the state of an entry by key. -/
  | jqctlQuery (d : XReg) (a : XReg) (b : XReg)
  /-- CTRADD_LOCAL (R336). Atomically adds to a scratchpad or core-local counter. -/
  | ctraddLocal (a : XReg) (b : XReg)
  /-- CTRADD_GLOBAL (R336). Adds to a global counter, buffered on a tile and immediate on a thread. -/
  | ctraddGlobal (a : XReg) (b : XReg)
  /-- SEND (R403). Sends a message or RMA operation through an endpoint handle. -/
  | send (d : XReg) (a : XReg) (b : XReg)
  /-- BKARM (R398). Arms, replaces or disarms a booking from a record. -/
  | bkarm (d : XReg) (a : XReg) (b : XReg)
  /-- EVGET (R383). Ends any active handler and takes the next event, parking while none is queued. -/
  | evget (d : XReg)
  /-- EVDONE (R384). Ends the active handler. -/
  | evdone
  /-- CSRR (R105). Reads a CSR. -/
  | csrr (d : XReg) (c : BitVec 12)
  /-- CSRW (R105). Writes a CSR. -/
  | csrw (a : XReg) (c : BitVec 12)
  /-- CSRW_C (R105). Clears the CSR bits set in xa. -/
  | csrwC (a : XReg) (c : BitVec 12)
  /-- CSRX (R105). Swaps a CSR with xa. -/
  | csrx (d : XReg) (a : XReg) (c : BitVec 12)
  /-- CSRX_S (R105). Reads a CSR and sets the bits set in xa. -/
  | csrxS (d : XReg) (a : XReg) (c : BitVec 12)
  /-- TRAP (R106). Raises BREAKPOINT or a software cause. -/
  | trap (c : BitVec 8)
  /-- SRET (R107). Returns from a thread trap to the level and PC saved. -/
  | sret
  /-- TLBI_VA (R347). Invalidates translations of one virtual address under an ASID. -/
  | tlbiVa (a : XReg) (b : XReg)
  /-- TLBI_ASID (R347). Invalidates every translation of an ASID. -/
  | tlbiAsid (b : XReg)
  /-- TLBI_ALL (R347). Invalidates every translation of the partition. -/
  | tlbiAll
  /-- SEGHOLD (R348). Holds the stage-2 segment window of a VF. -/
  | seghold (a : XReg)
  /-- SEGREL (R349). Sets a new segment base and releases held accesses. -/
  | segrel (a : XReg)
  /-- VADD (R177). Adds vector elements. -/
  | vadd (d : VReg) (a : VOpnd) (b : VOpnd) (t : Fin 8) (m : Fin 8) (y : Bool) (s : Bool) (n : Bool)
  /-- VSUB (R177). Subtracts vector elements. -/
  | vsub (d : VReg) (a : VOpnd) (b : VOpnd) (t : Fin 8) (m : Fin 8) (y : Bool) (s : Bool) (n : Bool)
  /-- VMUL (R177). Multiplies vector elements. -/
  | vmul (d : VReg) (a : VOpnd) (b : VOpnd) (t : Fin 8) (m : Fin 8) (y : Bool) (s : Bool) (n : Bool)
  /-- VFMA (R177). Fused multiply-add with vd as addend. -/
  | vfma (d : VReg) (a : VOpnd) (b : VOpnd) (t : Fin 8) (m : Fin 8) (y : Bool) (s : Bool) (n : Bool)
  /-- VFMS (R177). Fused vd minus va times vb. -/
  | vfms (d : VReg) (a : VOpnd) (b : VOpnd) (t : Fin 8) (m : Fin 8) (y : Bool) (s : Bool) (n : Bool)
  /-- VDIV (R177). Divides vector elements. -/
  | vdiv (d : VReg) (a : VOpnd) (b : VOpnd) (t : Fin 8) (m : Fin 8) (y : Bool) (s : Bool) (n : Bool)
  /-- VSQRT (R177). Square root of vector elements. -/
  | vsqrt (d : VReg) (a : VOpnd) (t : Fin 8) (m : Fin 8) (y : Bool) (s : Bool) (n : Bool)
  /-- VMIN (R177). Element minimum. -/
  | vmin (d : VReg) (a : VOpnd) (b : VOpnd) (t : Fin 8) (n : Bool)
  /-- VMAX (R177). Element maximum. -/
  | vmax (d : VReg) (a : VOpnd) (b : VOpnd) (t : Fin 8) (n : Bool)
  /-- VMINN (R177). Element minimumNumber. -/
  | vminn (d : VReg) (a : VOpnd) (b : VOpnd) (t : Fin 8) (n : Bool)
  /-- VMAXN (R177). Element maximumNumber. -/
  | vmaxn (d : VReg) (a : VOpnd) (b : VOpnd) (t : Fin 8) (n : Bool)
  /-- VABS (R177). Absolute value of elements. -/
  | vabs (d : VReg) (a : VOpnd) (t : Fin 8) (s : Bool) (n : Bool)
  /-- VNEG (R177). Negation of elements. -/
  | vneg (d : VReg) (a : VOpnd) (t : Fin 8) (s : Bool) (n : Bool)
  /-- VCMP (R178). Compares elements and writes all-ones or all-zeros masks. -/
  | vcmp (d : VReg) (a : VOpnd) (b : VOpnd) (t : Fin 8) (p : Fin 8) (n : Bool) (u : Bool)
  /-- VSEL (R179). Bitwise select between va and vb by vd. -/
  | vsel (d : VReg) (a : VOpnd) (b : VOpnd) (t : Fin 8) (n : Bool)
  /-- VAND (R179). Bitwise and. -/
  | vand (d : VReg) (a : VOpnd) (b : VOpnd) (t : Fin 8) (n : Bool)
  /-- VOR (R179). Bitwise or. -/
  | vor (d : VReg) (a : VOpnd) (b : VOpnd) (t : Fin 8) (n : Bool)
  /-- VXOR (R179). Bitwise xor. -/
  | vxor (d : VReg) (a : VOpnd) (b : VOpnd) (t : Fin 8) (n : Bool)
  /-- VSHL (R180). Shifts integer sub-elements left. -/
  | vshl (d : VReg) (a : VOpnd) (b : VOpnd) (t : Fin 8) (n : Bool)
  /-- VSHR (R180). Logical right shift of integer sub-elements. -/
  | vshr (d : VReg) (a : VOpnd) (b : VOpnd) (t : Fin 8) (n : Bool)
  /-- VSAR (R180). Arithmetic right shift of integer sub-elements. -/
  | vsar (d : VReg) (a : VOpnd) (b : VOpnd) (t : Fin 8) (n : Bool)
  /-- VCVT (R181). Converts elements between formats of equal width. -/
  | vcvt (d : VReg) (a : VOpnd) (t : Fin 8) (m : Fin 8) (y : Bool) (s : Bool) (e : Fin 8)
  /-- VCLASS (R182). Writes the class number of each element. -/
  | vclass (d : VReg) (a : VOpnd) (t : Fin 8) (n : Bool)
  /-- VEXP2 (R183). Correctly rounded 2^x. -/
  | vexp2 (d : VReg) (a : VOpnd) (t : Fin 8) (m : Fin 8) (y : Bool) (s : Bool) (n : Bool)
  /-- VLOG2 (R183). Correctly rounded log2 x. -/
  | vlog2 (d : VReg) (a : VOpnd) (t : Fin 8) (m : Fin 8) (y : Bool) (s : Bool) (n : Bool)
  /-- VRCP (R183). Correctly rounded 1/x. -/
  | vrcp (d : VReg) (a : VOpnd) (t : Fin 8) (m : Fin 8) (y : Bool) (s : Bool) (n : Bool)
  /-- VRSQ (R183). Correctly rounded 1/sqrt x. -/
  | vrsq (d : VReg) (a : VOpnd) (t : Fin 8) (m : Fin 8) (y : Bool) (s : Bool) (n : Bool)
  /-- VTANH (R183). Correctly rounded tanh x. -/
  | vtanh (d : VReg) (a : VOpnd) (t : Fin 8) (m : Fin 8) (y : Bool) (s : Bool) (n : Bool)
  /-- VERF (R183). Correctly rounded erf x. -/
  | verf (d : VReg) (a : VOpnd) (t : Fin 8) (m : Fin 8) (y : Bool) (s : Bool) (n : Bool)
  /-- VROTR (R185). Rotates lanes along each row. -/
  | vrotr (d : VReg) (a : VOpnd) (n : Bool) (c : Fin 64)
  /-- VBCR (R185). Broadcasts one column across each row. -/
  | vbcr (d : VReg) (a : VOpnd) (n : Bool) (c : Fin 64)
  /-- VREDR (R187). Reduces each row into element 0 of the row. -/
  | vredr (d : VReg) (a : VOpnd) (t : Fin 8) (m : Fin 8) (y : Bool) (n : Bool) (o : Fin 8)
  /-- VROTC (R186). Rotates lanes along each column. -/
  | vrotc (d : VReg) (a : VOpnd) (n : Bool) (c : Fin 16)
  /-- VBCC (R186). Broadcasts one row down each column. -/
  | vbcc (d : VReg) (a : VOpnd) (n : Bool) (c : Fin 16)
  /-- VREDC (R187). Reduces each column into row 0. -/
  | vredc (d : VReg) (a : VOpnd) (t : Fin 8) (m : Fin 8) (y : Bool) (n : Bool) (o : Fin 8)
  /-- VTRN (R189). Transposes each 16 x 16 block of lanes. -/
  | vtrn (d : VReg) (a : VOpnd) (n : Bool)
  /-- VSELK (R191). Selects the k highest-ranked rows of each column, writing indices and a mask. -/
  | vselk (d : VReg) (a : VOpnd) (g : Fin 8) (t : Fin 8) (k : Fin 16)
  /-- VCOMPR (R192). Packs each row of va under a mask. -/
  | vcompr (d : VReg) (a : VOpnd) (b : VOpnd) (n : Bool)
  /-- VLDS (R193). Loads a register image from the scratchpad. -/
  | vlds (d : VReg) (k : Fin 8)
  /-- VSTS (R193). Stores a register image to the scratchpad. -/
  | vsts (a : VOpnd) (k : Fin 8)
  /-- VLDX (R194). Gathers lanes from the scratchpad by index. -/
  | vldx (d : VReg) (b : VOpnd) (k : Fin 8)
  /-- VSTX (R194). Scatters lanes to the scratchpad by index. -/
  | vstx (a : VOpnd) (b : VOpnd) (k : Fin 8)
  /-- VMOV (R196). Copies an operand image to vd. -/
  | vmov (d : VReg) (a : VOpnd) (n : Bool)
  /-- VPOP (R197). Pops 4096 bytes of a queue into vd. -/
  | vpop (d : VReg) (q : Fin 4)
  /-- VPUSH (R197). Appends an image to a queue's outbound side. -/
  | vpush (a : VOpnd) (q : Fin 4)
  /-- VIDX (R196). Writes the row or column index of each lane. -/
  | vidx (d : VReg) (c : Bool)
  /-- VACCR (R198). Reads a segment of an accumulator block. -/
  | vaccr (d : VReg) (c : Fin 16) (s : Fin 8)
  /-- VACCW (R198). Writes a segment of an accumulator block. -/
  | vaccw (a : VOpnd) (c : Fin 16) (s : Fin 8)
  /-- VPACK (R200). Narrows two or four registers into one. -/
  | vpack (d : VReg) (a : VOpnd) (b : VOpnd) (t : Fin 8) (m : Fin 8) (y : Bool) (s : Bool) (e : Fin 8)
  /-- VUNPK (R201). Widens half of a register exactly. -/
  | vunpk (d : VReg) (a : VOpnd) (t : Fin 8) (h : Bool) (e : Fin 8)
  /-- KLI (R202). Loads a sign-extended immediate into a k register. -/
  | kli (k : Fin 8) (i : BitVec 21)
  /-- KADD (R202). Adds an immediate to a k register. -/
  | kadd (k : Fin 8) (a : Fin 8) (i : BitVec 16)
  /-- KBR (R203). Branches on a k register compared with zero. -/
  | kbr (c : Fin 16) (a : Fin 8) (o : BitVec 16)
  /-- V_END (R135). A KBR with offset 0 ends the V stream. -/
  | vEnd (c : Fin 16) (a : Fin 8)
  /-- VLOOP (R204). Runs a body of words a counted number of times. -/
  | vloop (a : Fin 8) (l : Fin 4096)
  /-- LIT (R74). Pushes a sign-extended 15-bit value. -/
  | lit (i : BitVec 15)
  /-- LITX (R74). Extends TOS by 14 more bits. -/
  | litx (i : BitVec 14)
  /-- DUP (R229). Duplicates TOS. -/
  | dup
  /-- DROP (R229). Drops TOS. -/
  | drop
  /-- SWAP (R229). Swaps the top two entries. -/
  | swap
  /-- OVER (R229). Pushes a copy of the second entry. -/
  | over
  /-- ENGINE_ADD (R229). Adds the top two entries modulo 2^64. -/
  | engineAdd
  /-- ENGINE_SUB (R229). Subtracts TOS from the entry below it. -/
  | engineSub
  /-- DO (R229). Pops a loop count into l0 or l1. -/
  | engineDo (l : Bool)
  /-- LOOP (R229). Decrements a loop counter and branches back while positive. -/
  | engineLoop (l : Bool) (d : Fin 128)
  /-- BR (R229). Branches by a word offset. -/
  | engineBr (o : BitVec 8)
  /-- BZ (R229). Pops and branches if zero. -/
  | engineBz (o : BitVec 8)
  /-- ENGINE_PEGP (R229). Command that posts a peg when earlier commands have completed. -/
  | enginePegp (p : Fin 16)
  /-- ENGINE_PEGW (R229). Stalls the engine stream until a peg reaches the popped count. -/
  | enginePegw (p : Fin 16)
  /-- ENGINE_WAITC (R229). Stalls until this stream's outstanding commands of a class fall to a count. -/
  | engineWaitc (c : Fin 4) (n : Fin 16)
  /-- ENGINE_FENCE (R337). Waits for earlier commands and acquires at a scope. -/
  | engineFence (s : Fin 4)
  /-- ENGINE_CTRADD_LOCAL (R337). Command that adds to a scratchpad counter after earlier commands. -/
  | engineCtraddLocal (q : Bool) (r : Bool) (s : Fin 4)
  /-- ENGINE_CTRADD_GLOBAL (R337). Command that buffers a global counter increment after earlier commands. -/
  | engineCtraddGlobal (q : Bool) (r : Bool) (s : Fin 4)
  /-- ENGINE_END (R135). Ends an M or A stream once its commands complete. -/
  | engineEnd
  /-- MMA (R220). Matrix multiply-accumulate into a block from two shape records. -/
  | mma (q : Bool) (r : Bool) (s : Fin 4) (x : Bool)
  /-- ACCZ (R226). Zeroes the named accumulator blocks. -/
  | accz (q : Bool) (r : Bool) (s : Fin 4)
  /-- ACCDRAIN (R227). Completes when earlier writes to named blocks complete. -/
  | accdrain (q : Bool) (r : Bool) (s : Fin 4)
  /-- SCALESET (R228). Writes the A or B superscale register. -/
  | scaleset (t : Bool)
  /-- COPYIN (R253). Loads a frame window into the scratchpad. -/
  | copyin (q : Bool) (r : Bool) (s : Fin 4) (p : Bool)
  /-- COPYOUT (R253). Buffers stores of a frame window to global memory. -/
  | copyout (q : Bool) (r : Bool) (s : Fin 4) (p : Bool)
  /-- NEST (R255). Runs a loop nest of copies from a template frame. -/
  | nest (q : Bool) (r : Bool) (s : Fin 4) (p : Bool)
  /-- GATH (R256). Gathers rows by an index list into the scratchpad. -/
  | gath (q : Bool) (r : Bool) (s : Fin 4) (p : Bool)
  /-- SCAT (R256). Scatters rows by an index list to global memory. -/
  | scat (q : Bool) (r : Bool) (s : Fin 4) (p : Bool)
  /-- QSTREAM (R257). Pushes a window's elements into a queue's inbound side. -/
  | qstream (q : Bool) (r : Bool) (s : Fin 4) (n : Fin 4)
  /-- QDRAIN (R258). Takes a queue's outbound elements and stores them to a window. -/
  | qdrain (q : Bool) (r : Bool) (s : Fin 4) (n : Fin 4)
  /-- MLR (R260). Reduces elements over an address group in the Ridge switch. -/
  | mlr (q : Bool) (r : Bool) (s : Fin 4) (b : Bool)
  /-- MST (R261). Buffers stores of scratchpad bytes to every group member. -/
  | mst (q : Bool) (r : Bool) (s : Fin 4)
  /-- PREF (R262). Prefetches translations and lines with no visible effect. -/
  | pref (q : Bool) (r : Bool) (s : Fin 4)
  /-- DISCARD_COMPLETE (R126). An aborting task's buffered effects are discarded and it returns to QUEUED. -/
  | discardComplete (gang : Nat)
  /-- COMMAND_COMPLETION (R235). An engine command's last write lands, its status is written, its counter advances and any release completes. -/
  | commandCompletion (t : TileId) (onM : Bool) (id : Nat)
  /-- NEST_ITERATION (R255). A NEST iteration completes, advancing its counter and posting its peg. -/
  | nestIteration (t : TileId) (id : Nat)
  /-- STREAM_END (R135). A forked stream counts as ended once its commands have completed. -/
  | streamEnd (t : TileId) (st : Stream)
  /-- PUBLISH_COMPLETE (R315). A publish's stores become readable and its effect-list entries are applied. -/
  | publishComplete (t : TileId)
  /-- CHECKPOINT_COMMIT (R298). All members of a gang switch to the new checkpoint in one cycle. -/
  | checkpointCommit (gang : Nat)
  /-- PREEMPT_FALLBACK (R146). After 10,000 ticks without a checkpoint the task is aborted and requeued unless deferred. -/
  | preemptFallback (gang : Nat)
  /-- BAR_COMPLETE (R332). The barrier completes in every member 8 cycles after the last arrival and acquires at GANG. -/
  | barComplete (gang : Nat)
  /-- WAITV_TIMEOUT (R330). WAITV returns with the time-out bit after its ticks expire. -/
  | waitvTimeout (t : TileId)
  /-- WAITV_RETURN (R330). WAITV returns when its counter conditions are met. -/
  | waitvReturn (t : TileId)
  /-- PORT_CYCLE (R274). One JQ port cycle runs its select phase then its match phase. -/
  | portCycle
  /-- GANG_START (R296). All members of a placed gang issue their first words in one cycle. -/
  | gangStart (gang : Nat)
  /-- GANG_COMPLETE (R297). All tiles of a gang become free once every member has ended and its publish is accepted. -/
  | gangComplete (gang : Nat)
  /-- CARD_READ (R302). The Innkeeper reads and checks an activated card record. -/
  | cardRead (p : PartId) (slot : Nat)
  /-- AGING_STEP (R282). A READY item's priority rises by 1 after 10 ms. -/
  | agingStep (item : ItemId)
  /-- HOLD_CLAIM (R308). An item unplaceable for 1000 ticks claims a tile hold. -/
  | holdClaim (p : PartId) (item : ItemId)
  /-- BACKOFF_EXPIRY (R366). A HELD entry's back-off passes and it re-enters the port. -/
  | backoffExpiry (entry : Nat)
  /-- PAGE_WAIT_TIMEOUT (R352). A page wait ends after 1 ms and the gang becomes eligible. -/
  | pageWaitTimeout (item : ItemId)
  /-- TLBI_COMPLETE (R347). A TLBI completes once removed entries are unused and drained, releasing page waits. -/
  | tlbiComplete (th : ThreadId)
  /-- SEGHOLD_COMPLETE (R348). SEGHOLD completes once accesses that applied the old row reach memory. -/
  | segholdComplete (th : ThreadId)
  /-- INSTALL (R356). Creates a Lodging entry in ABSENT. -/
  | install (th : ThreadId) (msg : Msg)
  /-- REMOVE (R356). Evicts a resident expert and frees its Lodging entry. -/
  | remove (th : ThreadId) (msg : Msg)
  /-- PREFETCH (R356). Starts a fetch of an ABSENT expert. -/
  | prefetch (th : ThreadId) (msg : Msg)
  /-- EVICT (R356). Starts eviction of an unpinned RESIDENT expert. -/
  | evict (th : ThreadId) (msg : Msg)
  /-- POOL (R356). Sets a VF's pool region. -/
  | pool (th : ThreadId) (msg : Msg)
  /-- SPILL (R356). Sets the partition's spill ring. -/
  | spill (th : ThreadId) (msg : Msg)
  /-- FETCH_COMPLETE (R357). Every byte of a fetch has landed; the expert becomes RESIDENT and parked entries re-enter. -/
  | fetchComplete (entry : Nat)
  /-- FETCH_FAILURE (R362). A tier error fails a fetch, faults parked records and sends a fault record. -/
  | fetchFailure (entry : Nat) (tierAddr : BitVec 64)
  /-- EVICTION_COMPLETE (R357). An EVICTING expert becomes ABSENT and its frames are freed. -/
  | evictionComplete (entry : Nat)
  /-- SNAPSHOT (R370). A snapshot message starts a partition or device snapshot. -/
  | snapshot (th : ThreadId) (msg : Msg)
  /-- SNAPSHOT_CUT (R371). The marker reaches every memory-side controller and fixes the cut. -/
  | snapshotCut (scope : SnapScope)
  /-- SNAPSHOT_FRAME_SAVE (R372). A 64 KiB frame is saved once the cut's writes to it have applied. -/
  | snapshotFrameSave (scope : SnapScope)
  /-- SNAPSHOT_COMPLETE (R375). The snapshot ends, advancing CTR and sending MSG_COMPLETE. -/
  | snapshotComplete (scope : SnapScope) (tierError : Bool)
  /-- PREEMPT (R309). Sets PREQ.PENDING of every task in scope and its gang. -/
  | preempt (th : ThreadId) (msg : Msg)
  /-- WITHDRAW (R309). Clears pending pre-emption and stops fallback counts in scope. -/
  | withdraw (th : ThreadId) (msg : Msg)
  /-- NVME_ADMIN (R413). Queues an NVMe admin command to a drive. -/
  | nvmeAdmin (th : ThreadId) (msg : Msg)
  /-- DROVER_COPY (R404). A copy message starts a Drover copy. -/
  | droverCopy (th : ThreadId) (msg : Msg)
  /-- STATE_EXPORT (R415). Exports a FROZEN VF's state image. -/
  | stateExport (th : ThreadId) (msg : Msg)
  /-- STATE_IMPORT (R415). Imports a state image into a CREATED VF, refusing a bad hash. -/
  | stateImport (th : ThreadId) (msg : Msg)
  /-- DROVER_COMPLETE (R353). A Drover copy or zeroing completes and advances its done counter. -/
  | droverComplete (id : Nat) (tierError : Bool)
  /-- HOST_COMPLETION (R411). Writes one completion entry to the host ring. -/
  | hostCompletion (th : ThreadId) (cookie : BitVec 64) (lo hi : BitVec 64)
  /-- TIMER_REQUEST (R404). Arms a timer service request. -/
  | timerRequest (th : ThreadId) (msg : Msg)
  /-- TIMER_EXPIRY (R404). A timer request expires and sends a TIMER event. -/
  | timerExpiry (id : Nat)
  /-- WATCHDOG (R380). A handler running 5000 ticks is killed. -/
  | watchdog (th : ThreadId)
  /-- PACKET_ARRIVAL (R389). A packet arrives; duplicates drop, refusals answer, and first packets bind to bookings. -/
  | packetArrival (p : Packet)
  /-- MESSAGE_COMPLETION (R400). A bound message's bytes become readable, counters advance and fire checks run. -/
  | messageCompletion (id : Nat)
  /-- COUNTER_INCREMENT (R394). An addition through a counter window reaches the booking unit as a counter change. -/
  | counterIncrement (ctr : CtrId) (by_ : BitVec 64)
  /-- ACK_ARRIVAL (R389). The receiver's acknowledgement completes a send at the sender. -/
  | ackArrival (id : SendPacket) (resp : List (BitVec 8))
  /-- RETRANSMIT_TIMEOUT (R391). An unacknowledged packet is retried or the send ends with PEER_ABSENT. -/
  | retransmitTimeout (id : SendPacket)
  /-- RETRY_BACKOFF_EXPIRY (R391). A retry-later back-off passes and the packet is sent again. -/
  | retryBackoffExpiry (id : SendPacket)
  /-- PURLIN_REQUEST (R406). A peer's Purlin request is served, refused or answered retry later. -/
  | purlinRequest (r : PurlinReq)
  /-- LINK_STATE_CHANGE (R405). A link goes up or down and LINK_STATE events are sent. -/
  | linkStateChange (kind : PortKind) (port : Nat) (up : Bool)
  /-- LAUNCH (R410). A host launch packet is accepted or ignored. -/
  | launch (vf : VfId) (packet : Msg)
  /-- CPLHEAD (R411). The host's consumed sequence lets waiting completion entries be written. -/
  | cplhead (vf : VfId) (value : BitVec 64)
  /-- READYCTL (R419). A host write of READY moves a CREATED VF to READY. -/
  | readyctl (vf : Option VfId) (value : BitVec 64)
  /-- ATTGO (R427). Starts an attestation report request. -/
  | attgo (vf : VfId) (value : BitVec 64)
  /-- ATTESTATION_REPORT (R427). The signed report is written and DONE is set. -/
  | attestationReport (vf : VfId)
  /-- RECOVERY_IMAGE (R424). The recovery loader verifies and writes a host image and resets. -/
  | recoveryImage (length : Nat)
  /-- VFCTL_CREATE (R96). Creates a VF from a record. -/
  | vfctlCreate (th : ThreadId) (value : BitVec 64)
  /-- VFCTL_FREEZE (R414). Starts freezing a VF. -/
  | vfctlFreeze (th : ThreadId) (value : BitVec 64)
  /-- FREEZE_COMPLETE (R414). The VF becomes FROZEN once no task or handler of it is active. -/
  | freezeComplete (vf : VfId)
  /-- VFCTL_UNFREEZE (R99). Returns a FROZEN VF to READY. -/
  | vfctlUnfreeze (th : ThreadId) (value : BitVec 64)
  /-- VFCTL_TEAR (R122). Starts tear-down of a VF. -/
  | vfctlTear (th : ThreadId) (value : BitVec 64)
  /-- TEARDOWN_COMPLETE (R122). Reclaiming ends, the VF becomes ABSENT and its counter advances. -/
  | teardownComplete (vf : VfId)
  /-- PARTCTL_CREATE (R94). Creates a partition from a record. -/
  | partctlCreate (th : ThreadId) (value : BitVec 64)
  /-- PARTCTL_DELETE (R125). Tears down a partition's VFs and frees its resources. -/
  | partctlDelete (th : ThreadId) (value : BitVec 64)
  /-- PARTITION_FAULT (R117). An uncorrectable error in Innkeeper state faults a partition. -/
  | partitionFault (p : PartId)
  /-- DBGCTL_HALT (R118). Stops every stream of a tile's task. -/
  | dbgctlHalt (th : ThreadId) (value : BitVec 64)
  /-- HALT_REPORT (R118). Once issued commands land, the halt or breakpoint report is sent. -/
  | haltReport (t : TileId)
  /-- DBGCTL_RESUME (R121). Restarts held commands and streams of a halted task. -/
  | dbgctlResume (th : ThreadId) (value : BitVec 64)
  /-- DBGCTL_ABORT (R121). Aborts and requeues a halted task. -/
  | dbgctlAbort (th : ThreadId) (value : BitVec 64)
  /-- DBGCTL_BPARM (R119). Arms breakpoints for a VF. -/
  | dbgctlBparm (th : ThreadId) (value : BitVec 64)
  /-- DBGCTL_BPDISARM (R119). Disarms breakpoints for a VF. -/
  | dbgctlBpdisarm (th : ThreadId) (value : BitVec 64)
  /-- DBGDATA_READ (R120). Reads 8 bytes of a halted tile and advances the offset. -/
  | dbgdataRead (th : ThreadId)
  /-- DBGDATA_WRITE (R120). Writes 8 bytes of a halted tile and advances the offset. -/
  | dbgdataWrite (th : ThreadId) (value : BitVec 64)
  /-- DBGSEL_WRITE (R104). Sets the debug selection and clears DBGSTAT.ERR. -/
  | dbgselWrite (th : ThreadId) (value : BitVec 64)
  /-- FPCR_WRITE (R41). A write to FPCR reseeds the S generator. -/
  | fpcrWrite (value : BitVec 64)
  /-- CODESIZE (R379). A nonzero CODESIZE releases the partition's threads. -/
  | codesize (th : ThreadId) (p : PartId) (value : BitVec 64)
  /-- OWNER_TAG (R341). A loan frame tag write changes ownership and may start zeroing. -/
  | ownerTag (th : ThreadId) (frame : Nat) (tag : BitVec 8)
  /-- ENDPOINT_SLOT (R386). A write to an endpoint slot, advancing GEN when V or KIND changes. -/
  | endpointSlot (th : ThreadId) (p : PartId) (slot : Nat) (word : Fin 4) (value : BitVec 64)
  /-- REGISTER_WRITE (R7). A write to a register with no behaviour of its own. -/
  | registerWrite (target : RegTarget) (value : BitVec 64)
  /-- BOOT (R422). After power-on or reset the boot ROM chooses and verifies an image. -/
  | boot
  /-- POWER_ON (R430). Rails rise in order or the device is held in reset. -/
  | powerOn (railsInOrder : Bool)
  /-- CLOCK_STEP (R431). Power limit pressure steps a die's arithmetic clock down or up by 50 MHz. -/
  | clockStep (die : Fin 4) (up : Bool)
  /-- SCRUB (R429). The scrubber reads a granule and writes back a corrected value. -/
  | scrub (granule : Nat) (upset : Upset)
  /-- NVME_ADMIN_COMPLETION (R413). A drive completes an NVMe admin command and its completion entry returns to the sender in MSG_COMPLETE. -/
  | nvmeAdminCompletion (port : Fin 8) (lo hi : BitVec 64)
  /-- PURLIN_RETRY_EXPIRY (R406). After 10,000 reference ticks of retry-later answers the requester's Ridge switch counts the member as absent. -/
  | purlinRetryExpiry (t : TileId) (id : Nat)
  /-- POWER_LOSS (R423). Power is lost at any moment, cutting short any flash write in progress. -/
  | powerLoss (cut : Option FlashCut)
  deriving DecidableEq, Repr

end Sys2Proof
end

