-- ==== Sys2Proof/WellFormed.lean ====
section
/-! DEFINITION. Well-formed instructions: the limits on fields that the encoding maps state (03 R62 to R76, R78;
06 R176 to R204). A word whose fields break one of them raises ILLEGAL_INSTR (R78). -/

namespace Sys2Proof

/-- A static rounding mode 0 to 5 (R37, R64). -/
def roundOk (m : Fin 8) : Bool := decide (m.val ≤ 5)

/-- The size field of an atomic: 2 for .W, 3 for .D (R65). -/
def sizeOk (z : Fin 4) : Bool := decide (2 ≤ z.val)

/-- pos + len at most 64, where the field holds len - 1 (R62, R153). -/
def fieldFits (p l : Fin 64) : Bool := decide (p.val + l.val + 1 ≤ 64)

/-- The formats FCVT from FP32 accepts: codes 0 to 4 and 6 to 9 (R64). -/
def narrowFmt (f : Fin 16) : Bool := decide (f.val ≤ 4 ∨ (6 ≤ f.val ∧ f.val ≤ 9))

/-- The formats FCVT into FP32 accepts: codes 0 to 4 and 6 to 10 (R64). -/
def widenFmt (f : Fin 16) : Bool := decide (f.val ≤ 4 ∨ (6 ≤ f.val ∧ f.val ≤ 10))

/-- The lane types 5 to 7 are integers, 0 to 4 are floating (R69, R72). -/
def intType (t : Fin 8) : Bool := decide (5 ≤ t.val)
def floatType (t : Fin 8) : Bool := decide (t.val ≤ 4)

/-- The width in bits of one element of a lane type (R69). -/
def typeWidth (t : Fin 8) : Nat :=
  match t.val with
  | 0 | 5 => 32
  | 1 | 2 | 6 => 16
  | _ => 8

/-- RM at most 5, and 0 with DYN (R71). -/
def dynRound (m : Fin 8) (y : Bool) : Bool := roundOk m && (!y || decide (m.val = 0))

/-- RM and DYN are 0 with an integer type (R71). -/
def intRound (t : Fin 8) (m : Fin 8) (y : Bool) : Bool := floatType t || (decide (m.val = 0) && !y)

/-- NW leaves vd unwritten, and vd must then be 0 (R71). -/
def noWrite (n : Bool) (d : VReg) : Bool := !n || decide (d.val = 0)

/-- The reductions of R188: OP 0 to 4, MINN and MAXN on floating types only, RM and DYN only for a floating SUM. -/
def reduceOk (t m : Fin 8) (y : Bool) (o : Fin 8) : Bool :=
  decide (o.val ≤ 4) && (floatType t || decide (o.val ≤ 2)) &&
    (if floatType t && decide (o.val = 0) then dynRound m y else decide (m.val = 0) && !y)

/-- VPACK narrows to one half or one quarter of the width; the quarter form reads register pairs (R200). -/
def packOk (t e : Fin 8) (a b : VOpnd) : Bool :=
  decide (typeWidth e * 2 = typeWidth t) ||
    (decide (typeWidth e * 4 = typeWidth t) && decide (a.val ≤ 14 ∧ b.val ≤ 14))

/-- The pairs of R201: the width doubles, and a floating source needs a floating destination. -/
def unpackOk (t e : Fin 8) : Bool :=
  decide (typeWidth e = typeWidth t * 2) && (floatType e || intType t)

/-- A launch word's scope is 0 unless ACQ or REL is set (R76). -/
def scopeOk (q r : Bool) (s : Fin 4) : Bool := q || r || decide (s.val = 0)

/-- The limits of each form. A step of the device has no word and no limit of its own. -/
def wellFormed : Instr → Bool
  | .add _ _ _ => true
  | .sub _ _ _ => true
  | .mul _ _ _ => true
  | .mulhs _ _ _ => true
  | .mulhu _ _ _ => true
  | .div _ _ _ => true
  | .divu _ _ _ => true
  | .rem _ _ _ => true
  | .remu _ _ _ => true
  | .and _ _ _ => true
  | .or _ _ _ => true
  | .xor _ _ _ => true
  | .andn _ _ _ => true
  | .shl _ _ _ => true
  | .shr _ _ _ => true
  | .sar _ _ _ => true
  | .rol _ _ _ => true
  | .min _ _ _ => true
  | .minu _ _ _ => true
  | .max _ _ _ => true
  | .maxu _ _ _ => true
  | .slt _ _ _ => true
  | .sltu _ _ _ => true
  | .seq _ _ _ => true
  | .clz _ _ => true
  | .ctz _ _ => true
  | .popc _ _ => true
  | .sel _ _ _ => true
  | .addi _ _ _ => true
  | .andi _ _ _ => true
  | .ori _ _ _ => true
  | .xori _ _ _ => true
  | .shli _ _ _ => true
  | .shri _ _ _ => true
  | .sari _ _ _ => true
  | .slti _ _ _ => true
  | .sltiu _ _ _ => true
  | .lih _ _ => true
  | .extu _ _ p l => fieldFits p l
  | .exts _ _ p l => fieldFits p l
  | .ins _ _ p l => fieldFits p l
  | .beq _ _ _ => true
  | .bne _ _ _ => true
  | .blt _ _ _ => true
  | .bge _ _ _ => true
  | .bltu _ _ _ => true
  | .bgeu _ _ _ => true
  | .j _ => true
  | .jal _ _ => true
  | .jalr _ _ _ => true
  | .ldsB _ _ _ => true
  | .ldsBu _ _ _ => true
  | .ldsH _ _ _ => true
  | .ldsHu _ _ _ => true
  | .ldsW _ _ _ => true
  | .ldsWu _ _ _ => true
  | .ldsD _ _ _ => true
  | .stsB _ _ _ => true
  | .stsH _ _ _ => true
  | .stsW _ _ _ => true
  | .stsD _ _ _ => true
  | .amos _ _ _ z o => sizeOk z && decide (o.val ≤ 8)
  | .cass _ _ _ z => sizeOk z
  | .ldB _ _ _ => true
  | .ldBu _ _ _ => true
  | .ldH _ _ _ => true
  | .ldHu _ _ _ => true
  | .ldW _ _ _ => true
  | .ldWu _ _ _ => true
  | .ldD _ _ _ => true
  | .stB _ _ _ => true
  | .stH _ _ _ => true
  | .stW _ _ _ => true
  | .stD _ _ _ => true
  | .amo _ _ _ z o => sizeOk z && decide (o.val ≤ 8)
  | .cas _ _ _ z => sizeOk z
  | .fadd _ _ _ m => roundOk m
  | .faddDyn _ _ _ => true
  | .fsub _ _ _ m => roundOk m
  | .fsubDyn _ _ _ => true
  | .fmul _ _ _ m => roundOk m
  | .fmulDyn _ _ _ => true
  | .fma _ _ _ m => roundOk m
  | .fmaDyn _ _ _ => true
  | .fdiv _ _ _ m => roundOk m
  | .fdivDyn _ _ _ => true
  | .fsqrt _ _ m => roundOk m
  | .fsqrtDyn _ _ => true
  | .fmin _ _ _ => true
  | .fmax _ _ _ => true
  | .fminn _ _ _ => true
  | .fmaxn _ _ _ => true
  | .fcmp _ _ _ p => decide (p.val ≤ 4)
  | .fcvtFmtF32 _ _ _ f m => narrowFmt f && roundOk m
  | .fcvtFmtF32Dyn _ _ _ f => narrowFmt f
  | .fcvtF32Fmt _ _ _ f m => widenFmt f && roundOk m
  | .fcvtF32FmtDyn _ _ _ f => widenFmt f
  | .fclass _ _ => true
  | .qpops _ _ => true
  | .fork a m => decide (m.val ≠ 0 ∧ a.val ≤ 61)
  | .join => true
  | .taskEnd => true
  | .ckpt _ _ => true
  | .waitc _ _ _ _ => true
  | .waitv _ _ _ m => decide (m.val ≠ 0)
  | .pegp _ => true
  | .pegw _ _ => true
  | .bar p s => p || decide (s.val = 0)
  | .phase _ => true
  | .fence _ => true
  | .jqput _ _ _ => true
  | .jqctlClassset _ _ _ => true
  | .jqctlClassget _ _ _ => true
  | .jqctlFreeze _ _ _ => true
  | .jqctlThaw _ _ _ => true
  | .jqctlTake _ _ _ => true
  | .jqctlSteal _ _ _ => true
  | .jqctlQuery _ _ _ => true
  | .ctraddLocal _ _ => true
  | .ctraddGlobal _ _ => true
  | .send _ _ _ => true
  | .bkarm _ _ _ => true
  | .evget _ => true
  | .evdone => true
  | .csrr _ _ => true
  | .csrw _ _ => true
  | .csrwC _ _ => true
  | .csrx _ _ _ => true
  | .csrxS _ _ _ => true
  | .trap c => decide (c.toNat = 0x13 ∨ 0x80 ≤ c.toNat)
  | .sret => true
  | .tlbiVa _ _ => true
  | .tlbiAsid _ => true
  | .tlbiAll => true
  | .seghold _ => true
  | .segrel _ => true
  | .vadd d _ _ t m y _ n => intRound t m y && dynRound m y && noWrite n d
  | .vsub d _ _ t m y _ n => intRound t m y && dynRound m y && noWrite n d
  | .vmul d _ _ t m y _ n => intRound t m y && dynRound m y && noWrite n d
  | .vfma d _ _ t m y _ n => floatType t && dynRound m y && noWrite n d
  | .vfms d _ _ t m y _ n => floatType t && dynRound m y && noWrite n d
  | .vdiv d _ _ t m y _ n => floatType t && dynRound m y && noWrite n d
  | .vsqrt d _ t m y _ n => floatType t && dynRound m y && noWrite n d
  | .vmin d _ _ _ n => noWrite n d
  | .vmax d _ _ _ n => noWrite n d
  | .vminn d _ _ t n => floatType t && noWrite n d
  | .vmaxn d _ _ t n => floatType t && noWrite n d
  | .vabs d _ t s n => (intType t || !s) && noWrite n d
  | .vneg d _ t s n => (intType t || !s) && noWrite n d
  | .vcmp d _ _ t p n u => decide (p.val ≤ 4) && (if intType t then decide (p.val ≠ 4) else !u) && noWrite n d
  | .vsel d _ _ _ n => noWrite n d
  | .vand d _ _ _ n => noWrite n d
  | .vor d _ _ _ n => noWrite n d
  | .vxor d _ _ _ n => noWrite n d
  | .vshl d _ _ t n => intType t && noWrite n d
  | .vshr d _ _ t n => intType t && noWrite n d
  | .vsar d _ _ t n => intType t && noWrite n d
  | .vcvt _ _ t m y s e => decide (typeWidth t = typeWidth e) && intRound t m y && dynRound m y && (floatType e || !s)
  | .vclass d _ t n => floatType t && noWrite n d
  | .vexp2 d _ t m y _ n => decide (t.val ≤ 2) && dynRound m y && noWrite n d
  | .vlog2 d _ t m y _ n => decide (t.val ≤ 2) && dynRound m y && noWrite n d
  | .vrcp d _ t m y _ n => decide (t.val ≤ 2) && dynRound m y && noWrite n d
  | .vrsq d _ t m y _ n => decide (t.val ≤ 2) && dynRound m y && noWrite n d
  | .vtanh d _ t m y _ n => decide (t.val ≤ 2) && dynRound m y && noWrite n d
  | .verf d _ t m y _ n => decide (t.val ≤ 2) && dynRound m y && noWrite n d
  | .vrotr d _ n _ => noWrite n d
  | .vbcr d _ n _ => noWrite n d
  | .vredr d _ t m y n o => reduceOk t m y o && noWrite n d
  | .vrotc d _ n _ => noWrite n d
  | .vbcc d _ n _ => noWrite n d
  | .vredc d _ t m y n o => reduceOk t m y o && noWrite n d
  | .vtrn d _ n => noWrite n d
  | .vselk d a g t _ => decide ((t.val = 0 ∨ t.val = 5) ∧ a.val + g.val + 1 ≤ 16 ∧ d.val ≤ 14)
  | .vcompr d _ _ n => noWrite n d
  | .vlds _ _ => true
  | .vsts _ _ => true
  | .vldx _ _ _ => true
  | .vstx _ _ _ => true
  | .vmov d _ n => noWrite n d
  | .vpop _ _ => true
  | .vpush _ _ => true
  | .vidx _ _ => true
  | .vaccr _ _ _ => true
  | .vaccw _ _ _ => true
  | .vpack _ a b t m y s e => packOk t e a b && intRound t m y && dynRound m y && (floatType e || !s)
  | .vunpk _ _ t _ e => unpackOk t e
  | .kli _ _ => true
  | .kadd _ _ _ => true
  | .kbr c _ o => decide (c.val ≤ 3) && decide (o ≠ 0)
  | .vEnd c _ => decide (c.val ≤ 3)
  | .vloop _ _ => true
  | .lit _ => true
  | .litx _ => true
  | .dup => true
  | .drop => true
  | .swap => true
  | .over => true
  | .engineAdd => true
  | .engineSub => true
  | .engineDo _ => true
  | .engineLoop _ d => decide (d.val ≠ 0)
  | .engineBr _ => true
  | .engineBz _ => true
  | .enginePegp _ => true
  | .enginePegw _ => true
  | .engineWaitc _ _ => true
  | .engineFence _ => true
  | .engineCtraddLocal q r s => scopeOk q r s
  | .engineCtraddGlobal q r s => scopeOk q r s
  | .engineEnd => true
  | .mma q r s _ => scopeOk q r s
  | .accz q r s => scopeOk q r s
  | .accdrain q r s => scopeOk q r s
  | .scaleset _ => true
  | .copyin q r s _ => scopeOk q r s
  | .copyout q r s _ => scopeOk q r s
  | .nest q r s _ => scopeOk q r s
  | .gath q r s _ => scopeOk q r s
  | .scat q r s _ => scopeOk q r s
  | .qstream q r s _ => scopeOk q r s
  | .qdrain q r s _ => scopeOk q r s
  | .mlr q r s _ => scopeOk q r s
  | .mst q r s => scopeOk q r s
  | .pref q r s => scopeOk q r s
  | .discardComplete _ => true
  | .commandCompletion _ _ _ => true
  | .nestIteration _ _ => true
  | .streamEnd _ _ => true
  | .publishComplete _ => true
  | .checkpointCommit _ => true
  | .preemptFallback _ => true
  | .barComplete _ => true
  | .waitvTimeout _ => true
  | .waitvReturn _ => true
  | .portCycle => true
  | .gangStart _ => true
  | .gangComplete _ => true
  | .cardRead _ _ => true
  | .agingStep _ => true
  | .holdClaim _ _ => true
  | .backoffExpiry _ => true
  | .pageWaitTimeout _ => true
  | .tlbiComplete _ => true
  | .segholdComplete _ => true
  | .install _ _ => true
  | .remove _ _ => true
  | .prefetch _ _ => true
  | .evict _ _ => true
  | .pool _ _ => true
  | .spill _ _ => true
  | .fetchComplete _ => true
  | .fetchFailure _ _ => true
  | .evictionComplete _ => true
  | .snapshot _ _ => true
  | .snapshotCut _ => true
  | .snapshotFrameSave _ => true
  | .snapshotComplete _ _ => true
  | .preempt _ _ => true
  | .withdraw _ _ => true
  | .nvmeAdmin _ _ => true
  | .droverCopy _ _ => true
  | .stateExport _ _ => true
  | .stateImport _ _ => true
  | .droverComplete _ _ => true
  | .hostCompletion _ _ _ _ => true
  | .timerRequest _ _ => true
  | .timerExpiry _ => true
  | .watchdog _ => true
  | .packetArrival _ => true
  | .messageCompletion _ => true
  | .counterIncrement _ _ => true
  | .ackArrival _ _ => true
  | .retransmitTimeout _ => true
  | .retryBackoffExpiry _ => true
  | .purlinRequest _ => true
  | .linkStateChange _ _ _ => true
  | .launch _ _ => true
  | .cplhead _ _ => true
  | .readyctl _ _ => true
  | .attgo _ _ => true
  | .attestationReport _ => true
  | .recoveryImage _ => true
  | .vfctlCreate _ _ => true
  | .vfctlFreeze _ _ => true
  | .freezeComplete _ => true
  | .vfctlUnfreeze _ _ => true
  | .vfctlTear _ _ => true
  | .teardownComplete _ => true
  | .partctlCreate _ _ => true
  | .partctlDelete _ _ => true
  | .partitionFault _ => true
  | .dbgctlHalt _ _ => true
  | .haltReport _ => true
  | .dbgctlResume _ _ => true
  | .dbgctlAbort _ _ => true
  | .dbgctlBparm _ _ => true
  | .dbgctlBpdisarm _ _ => true
  | .dbgdataRead _ => true
  | .dbgdataWrite _ _ => true
  | .dbgselWrite _ _ => true
  | .fpcrWrite _ => true
  | .codesize _ _ _ => true
  | .ownerTag _ _ _ => true
  | .endpointSlot _ _ _ _ _ => true
  | .registerWrite _ _ => true
  | .boot => true
  | .powerOn _ => true
  | .clockStep _ _ => true
  | .scrub _ _ => true
  | .nvmeAdminCompletion _ _ _ => true
  | .purlinRetryExpiry _ _ => true
  | .powerLoss _ => true

end Sys2Proof
end

