-- ==== Sys2Proof/Decode.lean ====
section
/-! DEFINITION. The decoder of the three word families and, after it, the encoder (03 R57 to R79). Words are natural
numbers, little-endian in memory (R3, R57). -/

namespace Sys2Proof

/-- The three word families (R57). -/
inductive Family where
  | scalar | vector | engine
  deriving DecidableEq, Repr

/-- Why a word is no instruction (R78). Each of them raises ILLEGAL_INSTR where the word issues. -/
inductive Reject where
  /-- Fewer bytes than the family's word has. -/
  | tooShort
  /-- An opcode or subcode that the maps do not assign. -/
  | unassigned
  /-- A field that the form does not use is nonzero. -/
  | unusedField
  /-- A field holds a value outside its limits. -/
  | limit
  deriving DecidableEq, Repr

/-- Bytes in a word of the family (R57). -/
def Family.bytes : Family → Nat
  | .scalar => 4
  | .vector => 4
  | .engine => 2

/-- `len` bits of `w` from bit `lo`. -/
def bits (w lo len : Nat) : Nat := w / 2 ^ lo % 2 ^ len
/-- One bit of `w`. -/
def flag (w lo : Nat) : Bool := decide (w / 2 ^ lo % 2 = 1)
/-- A field read as a bit vector. -/
def field (w lo len : Nat) : BitVec len := BitVec.ofNat len (w / 2 ^ lo)
/-- A field read as one of `n` codes. -/
def index (w lo n : Nat) [NeZero n] : Fin n := Fin.ofNat n (w / 2 ^ lo)
/-- An x register field. -/
def xreg (w lo : Nat) : XReg := index w lo 64
/-- A v register field. -/
def vreg (w lo : Nat) : VReg := index w lo 16
/-- A V-ISA operand field. -/
def vopnd (w lo : Nat) : VOpnd := index w lo 32

/-- A form whose fields are read: legal when its limits hold (R78). -/
def candidate (i : Instr) : Except Reject Instr := if wellFormed i then .ok i else .error .limit

/-- A form whose unused fields, given as (low bit, length), must be zero (R78). -/
def unused (w : Nat) (z : List (Nat × Nat)) (i : Instr) : Except Reject Instr :=
  if z.all (fun f => decide (bits w f.1 f.2 = 0)) then candidate i else .error .unusedField

/-- The S-ISA map (R62 to R66): op7 selects the form, a subcode field the operation, and the fields that the form
does not use must be zero (R78). R67 is checked where the word issues. -/
def decodeS (w : Nat) : Except Reject Instr :=
  match bits w 25 7 with
  | 0x00 =>
    match bits w 0 7 with
    | 0 => candidate (.add (xreg w 19) (xreg w 13) (xreg w 7))
    | 1 => candidate (.sub (xreg w 19) (xreg w 13) (xreg w 7))
    | 2 => candidate (.mul (xreg w 19) (xreg w 13) (xreg w 7))
    | 3 => candidate (.mulhs (xreg w 19) (xreg w 13) (xreg w 7))
    | 4 => candidate (.mulhu (xreg w 19) (xreg w 13) (xreg w 7))
    | 5 => candidate (.div (xreg w 19) (xreg w 13) (xreg w 7))
    | 6 => candidate (.divu (xreg w 19) (xreg w 13) (xreg w 7))
    | 7 => candidate (.rem (xreg w 19) (xreg w 13) (xreg w 7))
    | 8 => candidate (.remu (xreg w 19) (xreg w 13) (xreg w 7))
    | 9 => candidate (.and (xreg w 19) (xreg w 13) (xreg w 7))
    | 10 => candidate (.or (xreg w 19) (xreg w 13) (xreg w 7))
    | 11 => candidate (.xor (xreg w 19) (xreg w 13) (xreg w 7))
    | 12 => candidate (.andn (xreg w 19) (xreg w 13) (xreg w 7))
    | 13 => candidate (.shl (xreg w 19) (xreg w 13) (xreg w 7))
    | 14 => candidate (.shr (xreg w 19) (xreg w 13) (xreg w 7))
    | 15 => candidate (.sar (xreg w 19) (xreg w 13) (xreg w 7))
    | 16 => candidate (.rol (xreg w 19) (xreg w 13) (xreg w 7))
    | 17 => candidate (.min (xreg w 19) (xreg w 13) (xreg w 7))
    | 18 => candidate (.minu (xreg w 19) (xreg w 13) (xreg w 7))
    | 19 => candidate (.max (xreg w 19) (xreg w 13) (xreg w 7))
    | 20 => candidate (.maxu (xreg w 19) (xreg w 13) (xreg w 7))
    | 21 => candidate (.slt (xreg w 19) (xreg w 13) (xreg w 7))
    | 22 => candidate (.sltu (xreg w 19) (xreg w 13) (xreg w 7))
    | 23 => candidate (.seq (xreg w 19) (xreg w 13) (xreg w 7))
    | 24 => unused w [(7, 6)] (.clz (xreg w 19) (xreg w 13))
    | 25 => unused w [(7, 6)] (.ctz (xreg w 19) (xreg w 13))
    | 26 => unused w [(7, 6)] (.popc (xreg w 19) (xreg w 13))
    | 27 => candidate (.sel (xreg w 19) (xreg w 13) (xreg w 7))
    | _ => .error .unassigned
  | 0x01 => candidate (.addi (xreg w 19) (xreg w 13) (field w 0 13))
  | 0x02 => candidate (.andi (xreg w 19) (xreg w 13) (field w 0 13))
  | 0x03 => candidate (.ori (xreg w 19) (xreg w 13) (field w 0 13))
  | 0x04 => candidate (.xori (xreg w 19) (xreg w 13) (field w 0 13))
  | 0x05 => unused w [(6, 7)] (.shli (xreg w 19) (xreg w 13) (index w 0 64))
  | 0x06 => unused w [(6, 7)] (.shri (xreg w 19) (xreg w 13) (index w 0 64))
  | 0x07 => unused w [(6, 7)] (.sari (xreg w 19) (xreg w 13) (index w 0 64))
  | 0x08 => candidate (.slti (xreg w 19) (xreg w 13) (field w 0 13))
  | 0x09 => candidate (.sltiu (xreg w 19) (xreg w 13) (field w 0 13))
  | 0x0A => candidate (.lih (xreg w 19) (field w 0 19))
  | 0x0B => unused w [(12, 1)] (.extu (xreg w 19) (xreg w 13) (index w 6 64) (index w 0 64))
  | 0x0C => unused w [(12, 1)] (.exts (xreg w 19) (xreg w 13) (index w 6 64) (index w 0 64))
  | 0x0D => unused w [(12, 1)] (.ins (xreg w 19) (xreg w 13) (index w 6 64) (index w 0 64))
  | 0x10 => candidate (.beq (xreg w 19) (xreg w 13) (field w 0 13))
  | 0x11 => candidate (.bne (xreg w 19) (xreg w 13) (field w 0 13))
  | 0x12 => candidate (.blt (xreg w 19) (xreg w 13) (field w 0 13))
  | 0x13 => candidate (.bge (xreg w 19) (xreg w 13) (field w 0 13))
  | 0x14 => candidate (.bltu (xreg w 19) (xreg w 13) (field w 0 13))
  | 0x15 => candidate (.bgeu (xreg w 19) (xreg w 13) (field w 0 13))
  | 0x16 => unused w [(19, 6)] (.j (field w 0 19))
  | 0x17 => candidate (.jal (xreg w 19) (field w 0 19))
  | 0x18 => candidate (.jalr (xreg w 19) (xreg w 13) (field w 0 13))
  | 0x20 => candidate (.ldsB (xreg w 19) (xreg w 13) (field w 0 13))
  | 0x21 => candidate (.ldsBu (xreg w 19) (xreg w 13) (field w 0 13))
  | 0x22 => candidate (.ldsH (xreg w 19) (xreg w 13) (field w 0 13))
  | 0x23 => candidate (.ldsHu (xreg w 19) (xreg w 13) (field w 0 13))
  | 0x24 => candidate (.ldsW (xreg w 19) (xreg w 13) (field w 0 13))
  | 0x25 => candidate (.ldsWu (xreg w 19) (xreg w 13) (field w 0 13))
  | 0x26 => candidate (.ldsD (xreg w 19) (xreg w 13) (field w 0 13))
  | 0x28 => candidate (.stsB (xreg w 19) (xreg w 13) (field w 0 13))
  | 0x29 => candidate (.stsH (xreg w 19) (xreg w 13) (field w 0 13))
  | 0x2A => candidate (.stsW (xreg w 19) (xreg w 13) (field w 0 13))
  | 0x2B => candidate (.stsD (xreg w 19) (xreg w 13) (field w 0 13))
  | 0x2C => candidate (.amos (xreg w 19) (xreg w 13) (xreg w 7) (index w 5 4) (index w 0 32))
  | 0x2D => unused w [(0, 5)] (.cass (xreg w 19) (xreg w 13) (xreg w 7) (index w 5 4))
  | 0x30 => candidate (.ldB (xreg w 19) (xreg w 13) (field w 0 13))
  | 0x31 => candidate (.ldBu (xreg w 19) (xreg w 13) (field w 0 13))
  | 0x32 => candidate (.ldH (xreg w 19) (xreg w 13) (field w 0 13))
  | 0x33 => candidate (.ldHu (xreg w 19) (xreg w 13) (field w 0 13))
  | 0x34 => candidate (.ldW (xreg w 19) (xreg w 13) (field w 0 13))
  | 0x35 => candidate (.ldWu (xreg w 19) (xreg w 13) (field w 0 13))
  | 0x36 => candidate (.ldD (xreg w 19) (xreg w 13) (field w 0 13))
  | 0x38 => candidate (.stB (xreg w 19) (xreg w 13) (field w 0 13))
  | 0x39 => candidate (.stH (xreg w 19) (xreg w 13) (field w 0 13))
  | 0x3A => candidate (.stW (xreg w 19) (xreg w 13) (field w 0 13))
  | 0x3B => candidate (.stD (xreg w 19) (xreg w 13) (field w 0 13))
  | 0x3C => candidate (.amo (xreg w 19) (xreg w 13) (xreg w 7) (index w 5 4) (index w 0 32))
  | 0x3D => unused w [(0, 5)] (.cas (xreg w 19) (xreg w 13) (xreg w 7) (index w 5 4))
  | 0x40 =>
    match bits w 0 4 with
    | 0 => candidate (.fadd (xreg w 19) (xreg w 13) (xreg w 7) (index w 4 8))
    | 1 => candidate (.fsub (xreg w 19) (xreg w 13) (xreg w 7) (index w 4 8))
    | 2 => candidate (.fmul (xreg w 19) (xreg w 13) (xreg w 7) (index w 4 8))
    | 3 => candidate (.fma (xreg w 19) (xreg w 13) (xreg w 7) (index w 4 8))
    | 4 => candidate (.fdiv (xreg w 19) (xreg w 13) (xreg w 7) (index w 4 8))
    | 5 => unused w [(7, 6)] (.fsqrt (xreg w 19) (xreg w 13) (index w 4 8))
    | 6 => unused w [(4, 3)] (.fmin (xreg w 19) (xreg w 13) (xreg w 7))
    | 7 => unused w [(4, 3)] (.fmax (xreg w 19) (xreg w 13) (xreg w 7))
    | 8 => unused w [(4, 3)] (.fminn (xreg w 19) (xreg w 13) (xreg w 7))
    | 9 => unused w [(4, 3)] (.fmaxn (xreg w 19) (xreg w 13) (xreg w 7))
    | 10 => candidate (.fcmp (xreg w 19) (xreg w 13) (xreg w 7) (index w 4 8))
    | 11 => unused w [(12, 1)] (.fcvtFmtF32 (xreg w 19) (xreg w 13) (flag w 11) (index w 7 16) (index w 4 8))
    | 12 => unused w [(12, 1)] (.fcvtF32Fmt (xreg w 19) (xreg w 13) (flag w 11) (index w 7 16) (index w 4 8))
    | 13 => unused w [(4, 9)] (.fclass (xreg w 19) (xreg w 13))
    | _ => .error .unassigned
  | 0x41 =>
    match bits w 0 4 with
    | 0 => unused w [(4, 3)] (.faddDyn (xreg w 19) (xreg w 13) (xreg w 7))
    | 1 => unused w [(4, 3)] (.fsubDyn (xreg w 19) (xreg w 13) (xreg w 7))
    | 2 => unused w [(4, 3)] (.fmulDyn (xreg w 19) (xreg w 13) (xreg w 7))
    | 3 => unused w [(4, 3)] (.fmaDyn (xreg w 19) (xreg w 13) (xreg w 7))
    | 4 => unused w [(4, 3)] (.fdivDyn (xreg w 19) (xreg w 13) (xreg w 7))
    | 5 => unused w [(4, 9)] (.fsqrtDyn (xreg w 19) (xreg w 13))
    | 11 => unused w [(4, 3), (12, 1)] (.fcvtFmtF32Dyn (xreg w 19) (xreg w 13) (flag w 11) (index w 7 16))
    | 12 => unused w [(4, 3), (12, 1)] (.fcvtF32FmtDyn (xreg w 19) (xreg w 13) (flag w 11) (index w 7 16))
    | _ => .error .unassigned
  | 0x48 => unused w [(2, 17)] (.qpops (xreg w 19) (index w 0 4))
  | 0x50 => unused w [(3, 10), (19, 6)] (.fork (xreg w 13) (index w 0 8))
  | 0x51 => unused w [(0, 25)] .join
  | 0x52 => unused w [(0, 25)] .taskEnd
  | 0x53 => unused w [(19, 6)] (.ckpt (xreg w 13) (field w 0 13))
  | 0x58 => unused w [(16, 9)] (.waitc (index w 12 16) (index w 8 16) (index w 4 16) (index w 0 16))
  | 0x59 => unused w [(5, 8)] (.waitv (xreg w 19) (xreg w 13) (flag w 4) (index w 0 16))
  | 0x5A => unused w [(4, 21)] (.pegp (index w 0 16))
  | 0x5B => unused w [(4, 9), (19, 6)] (.pegw (xreg w 13) (index w 0 16))
  | 0x5C => unused w [(3, 22)] (.bar (flag w 2) (index w 0 4))
  | 0x5D => unused w [(2, 23)] (.phase (index w 0 4))
  | 0x5E => unused w [(2, 23)] (.fence (index w 0 4))
  | 0x60 => unused w [(0, 7)] (.jqput (xreg w 19) (xreg w 13) (xreg w 7))
  | 0x61 =>
    match bits w 0 7 with
    | 0 => candidate (.jqctlClassset (xreg w 19) (xreg w 13) (xreg w 7))
    | 1 => candidate (.jqctlClassget (xreg w 19) (xreg w 13) (xreg w 7))
    | 2 => candidate (.jqctlFreeze (xreg w 19) (xreg w 13) (xreg w 7))
    | 3 => candidate (.jqctlThaw (xreg w 19) (xreg w 13) (xreg w 7))
    | 4 => candidate (.jqctlTake (xreg w 19) (xreg w 13) (xreg w 7))
    | 5 => candidate (.jqctlSteal (xreg w 19) (xreg w 13) (xreg w 7))
    | 6 => candidate (.jqctlQuery (xreg w 19) (xreg w 13) (xreg w 7))
    | _ => .error .unassigned
  | 0x62 =>
    match bits w 0 1 with
    | 0 => unused w [(1, 6), (19, 6)] (.ctraddLocal (xreg w 13) (xreg w 7))
    | _ => unused w [(1, 6), (19, 6)] (.ctraddGlobal (xreg w 13) (xreg w 7))
  | 0x63 => unused w [(0, 7)] (.send (xreg w 19) (xreg w 13) (xreg w 7))
  | 0x64 => unused w [(0, 7)] (.bkarm (xreg w 19) (xreg w 13) (xreg w 7))
  | 0x65 => unused w [(0, 19)] (.evget (xreg w 19))
  | 0x66 => unused w [(0, 25)] .evdone
  | 0x70 => unused w [(0, 1), (13, 6)] (.csrr (xreg w 19) (field w 1 12))
  | 0x71 =>
    match bits w 0 1 with
    | 0 => unused w [(19, 6)] (.csrw (xreg w 13) (field w 1 12))
    | _ => unused w [(19, 6)] (.csrwC (xreg w 13) (field w 1 12))
  | 0x72 =>
    match bits w 0 1 with
    | 0 => candidate (.csrx (xreg w 19) (xreg w 13) (field w 1 12))
    | _ => candidate (.csrxS (xreg w 19) (xreg w 13) (field w 1 12))
  | 0x73 => unused w [(8, 17)] (.trap (field w 0 8))
  | 0x74 => unused w [(0, 25)] .sret
  | 0x75 =>
    match bits w 0 7 with
    | 0 => unused w [(19, 6)] (.tlbiVa (xreg w 13) (xreg w 7))
    | 1 => unused w [(13, 12)] (.tlbiAsid (xreg w 7))
    | 2 => unused w [(7, 18)] .tlbiAll
    | _ => .error .unassigned
  | 0x76 => unused w [(0, 13), (19, 6)] (.seghold (xreg w 13))
  | 0x77 => unused w [(0, 13), (19, 6)] (.segrel (xreg w 13))
  | _ => .error .unassigned

/-- The V-ISA map (R68 to R73). A KBR with offset 0 is the V stream's end. -/
def decodeV (w : Nat) : Except Reject Instr :=
  match bits w 25 7 with
  | 0x00 => unused w [(0, 2)] (.vadd (vreg w 21) (vopnd w 16) (vopnd w 11) (index w 8 8) (index w 5 8) (flag w 4) (flag w 3) (flag w 2))
  | 0x01 => unused w [(0, 2)] (.vsub (vreg w 21) (vopnd w 16) (vopnd w 11) (index w 8 8) (index w 5 8) (flag w 4) (flag w 3) (flag w 2))
  | 0x02 => unused w [(0, 2)] (.vmul (vreg w 21) (vopnd w 16) (vopnd w 11) (index w 8 8) (index w 5 8) (flag w 4) (flag w 3) (flag w 2))
  | 0x03 => unused w [(0, 2)] (.vfma (vreg w 21) (vopnd w 16) (vopnd w 11) (index w 8 8) (index w 5 8) (flag w 4) (flag w 3) (flag w 2))
  | 0x04 => unused w [(0, 2)] (.vfms (vreg w 21) (vopnd w 16) (vopnd w 11) (index w 8 8) (index w 5 8) (flag w 4) (flag w 3) (flag w 2))
  | 0x05 => unused w [(0, 2)] (.vdiv (vreg w 21) (vopnd w 16) (vopnd w 11) (index w 8 8) (index w 5 8) (flag w 4) (flag w 3) (flag w 2))
  | 0x06 => unused w [(0, 2), (11, 5)] (.vsqrt (vreg w 21) (vopnd w 16) (index w 8 8) (index w 5 8) (flag w 4) (flag w 3) (flag w 2))
  | 0x07 => unused w [(0, 2), (3, 5)] (.vmin (vreg w 21) (vopnd w 16) (vopnd w 11) (index w 8 8) (flag w 2))
  | 0x08 => unused w [(0, 2), (3, 5)] (.vmax (vreg w 21) (vopnd w 16) (vopnd w 11) (index w 8 8) (flag w 2))
  | 0x09 => unused w [(0, 2), (3, 5)] (.vminn (vreg w 21) (vopnd w 16) (vopnd w 11) (index w 8 8) (flag w 2))
  | 0x0A => unused w [(0, 2), (3, 5)] (.vmaxn (vreg w 21) (vopnd w 16) (vopnd w 11) (index w 8 8) (flag w 2))
  | 0x0B => unused w [(0, 2), (4, 4), (11, 5)] (.vabs (vreg w 21) (vopnd w 16) (index w 8 8) (flag w 3) (flag w 2))
  | 0x0C => unused w [(0, 2), (4, 4), (11, 5)] (.vneg (vreg w 21) (vopnd w 16) (index w 8 8) (flag w 3) (flag w 2))
  | 0x0D => unused w [(1, 1), (3, 2)] (.vcmp (vreg w 21) (vopnd w 16) (vopnd w 11) (index w 8 8) (index w 5 8) (flag w 2) (flag w 0))
  | 0x0E => unused w [(0, 2), (3, 5)] (.vsel (vreg w 21) (vopnd w 16) (vopnd w 11) (index w 8 8) (flag w 2))
  | 0x0F => unused w [(0, 2), (3, 5)] (.vand (vreg w 21) (vopnd w 16) (vopnd w 11) (index w 8 8) (flag w 2))
  | 0x10 => unused w [(0, 2), (3, 5)] (.vor (vreg w 21) (vopnd w 16) (vopnd w 11) (index w 8 8) (flag w 2))
  | 0x11 => unused w [(0, 2), (3, 5)] (.vxor (vreg w 21) (vopnd w 16) (vopnd w 11) (index w 8 8) (flag w 2))
  | 0x12 => unused w [(0, 2), (3, 5)] (.vshl (vreg w 21) (vopnd w 16) (vopnd w 11) (index w 8 8) (flag w 2))
  | 0x13 => unused w [(0, 2), (3, 5)] (.vshr (vreg w 21) (vopnd w 16) (vopnd w 11) (index w 8 8) (flag w 2))
  | 0x14 => unused w [(0, 2), (3, 5)] (.vsar (vreg w 21) (vopnd w 16) (vopnd w 11) (index w 8 8) (flag w 2))
  | 0x15 => unused w [(11, 5)] (.vcvt (vreg w 21) (vopnd w 16) (index w 8 8) (index w 5 8) (flag w 4) (flag w 3) (index w 0 8))
  | 0x16 => unused w [(0, 2), (3, 5), (11, 5)] (.vclass (vreg w 21) (vopnd w 16) (index w 8 8) (flag w 2))
  | 0x18 => unused w [(0, 2), (11, 5)] (.vexp2 (vreg w 21) (vopnd w 16) (index w 8 8) (index w 5 8) (flag w 4) (flag w 3) (flag w 2))
  | 0x19 => unused w [(0, 2), (11, 5)] (.vlog2 (vreg w 21) (vopnd w 16) (index w 8 8) (index w 5 8) (flag w 4) (flag w 3) (flag w 2))
  | 0x1A => unused w [(0, 2), (11, 5)] (.vrcp (vreg w 21) (vopnd w 16) (index w 8 8) (index w 5 8) (flag w 4) (flag w 3) (flag w 2))
  | 0x1B => unused w [(0, 2), (11, 5)] (.vrsq (vreg w 21) (vopnd w 16) (index w 8 8) (index w 5 8) (flag w 4) (flag w 3) (flag w 2))
  | 0x1C => unused w [(0, 2), (11, 5)] (.vtanh (vreg w 21) (vopnd w 16) (index w 8 8) (index w 5 8) (flag w 4) (flag w 3) (flag w 2))
  | 0x1D => unused w [(0, 2), (11, 5)] (.verf (vreg w 21) (vopnd w 16) (index w 8 8) (index w 5 8) (flag w 4) (flag w 3) (flag w 2))
  | 0x20 => unused w [(6, 1), (8, 8)] (.vrotr (vreg w 21) (vopnd w 16) (flag w 7) (index w 0 64))
  | 0x21 => unused w [(6, 1), (8, 8)] (.vbcr (vreg w 21) (vopnd w 16) (flag w 7) (index w 0 64))
  | 0x22 => unused w [(11, 5)] (.vredr (vreg w 21) (vopnd w 16) (index w 8 8) (index w 5 8) (flag w 4) (flag w 3) (index w 0 8))
  | 0x24 => unused w [(4, 3), (8, 8)] (.vrotc (vreg w 21) (vopnd w 16) (flag w 7) (index w 0 16))
  | 0x25 => unused w [(4, 3), (8, 8)] (.vbcc (vreg w 21) (vopnd w 16) (flag w 7) (index w 0 16))
  | 0x26 => unused w [(11, 5)] (.vredc (vreg w 21) (vopnd w 16) (index w 8 8) (index w 5 8) (flag w 4) (flag w 3) (index w 0 8))
  | 0x28 => unused w [(0, 7), (8, 8)] (.vtrn (vreg w 21) (vopnd w 16) (flag w 7))
  | 0x29 => unused w [(4, 4), (14, 2)] (.vselk (vreg w 21) (vopnd w 16) (index w 11 8) (index w 8 8) (index w 0 16))
  | 0x2A => unused w [(0, 7), (8, 3)] (.vcompr (vreg w 21) (vopnd w 16) (vopnd w 11) (flag w 7))
  | 0x30 => unused w [(3, 18)] (.vlds (vreg w 21) (index w 0 8))
  | 0x31 => unused w [(3, 13), (21, 4)] (.vsts (vopnd w 16) (index w 0 8))
  | 0x32 => unused w [(3, 8), (16, 5)] (.vldx (vreg w 21) (vopnd w 11) (index w 0 8))
  | 0x33 => unused w [(3, 8), (21, 4)] (.vstx (vopnd w 16) (vopnd w 11) (index w 0 8))
  | 0x34 => unused w [(0, 2), (3, 13)] (.vmov (vreg w 21) (vopnd w 16) (flag w 2))
  | 0x35 => if bits w 18 3 = 4 then unused w [(0, 16)] (.vpop (vreg w 21) (index w 16 4)) else .error .limit
  | 0x36 => unused w [(2, 14), (21, 4)] (.vpush (vopnd w 16) (index w 0 4))
  | 0x37 => unused w [(1, 20)] (.vidx (vreg w 21) (flag w 0))
  | 0x38 => unused w [(3, 1), (8, 13)] (.vaccr (vreg w 21) (index w 4 16) (index w 0 8))
  | 0x39 => unused w [(3, 1), (8, 8), (21, 4)] (.vaccw (vopnd w 16) (index w 4 16) (index w 0 8))
  | 0x3A => candidate (.vpack (vreg w 21) (vopnd w 16) (vopnd w 11) (index w 8 8) (index w 5 8) (flag w 4) (flag w 3) (index w 0 8))
  | 0x3B => unused w [(4, 4), (11, 5)] (.vunpk (vreg w 21) (vopnd w 16) (index w 8 8) (flag w 3) (index w 0 8))
  | 0x40 => unused w [(24, 1)] (.kli (index w 21 8) (field w 0 21))
  | 0x41 => unused w [(19, 2), (24, 1)] (.kadd (index w 21 8) (index w 16 8) (field w 0 16))
  | 0x42 => if bits w 0 16 = 0 then unused w [(19, 2)] (.vEnd (index w 21 16) (index w 16 8)) else unused w [(19, 2)] (.kbr (index w 21 16) (index w 16 8) (field w 0 16))
  | 0x43 => unused w [(12, 4), (19, 6)] (.vloop (index w 16 8) (index w 0 4096))
  | _ => .error .unassigned

/-- The engine operation map (R75, R76): op6 selects the word. -/
def decodeEngineOp (w : Nat) : Except Reject Instr :=
  match bits w 8 6 with
  | 0x01 => unused w [(0, 8)] .dup
  | 0x02 => unused w [(0, 8)] .drop
  | 0x03 => unused w [(0, 8)] .swap
  | 0x04 => unused w [(0, 8)] .over
  | 0x05 => unused w [(0, 8)] .engineAdd
  | 0x06 => unused w [(0, 8)] .engineSub
  | 0x07 => unused w [(0, 7)] (.engineDo (flag w 7))
  | 0x08 => candidate (.engineLoop (flag w 7) (index w 0 128))
  | 0x09 => candidate (.engineBr (field w 0 8))
  | 0x0A => candidate (.engineBz (field w 0 8))
  | 0x0B => unused w [(4, 4)] (.enginePegp (index w 0 16))
  | 0x0C => unused w [(4, 4)] (.enginePegw (index w 0 16))
  | 0x0D => unused w [(4, 2)] (.engineWaitc (index w 6 4) (index w 0 16))
  | 0x0E => unused w [(0, 4), (6, 2)] (.engineFence (index w 4 4))
  | 0x0F =>
    match bits w 0 1 with
    | 0 => unused w [(1, 3)] (.engineCtraddLocal (flag w 7) (flag w 6) (index w 4 4))
    | _ => unused w [(1, 3)] (.engineCtraddGlobal (flag w 7) (flag w 6) (index w 4 4))
  | 0x10 => unused w [(0, 8)] .engineEnd
  | 0x20 => unused w [(0, 3)] (.mma (flag w 7) (flag w 6) (index w 4 4) (flag w 3))
  | 0x21 => unused w [(0, 4)] (.accz (flag w 7) (flag w 6) (index w 4 4))
  | 0x22 => unused w [(0, 4)] (.accdrain (flag w 7) (flag w 6) (index w 4 4))
  | 0x23 => unused w [(1, 7)] (.scaleset (flag w 0))
  | 0x30 => unused w [(0, 3)] (.copyin (flag w 7) (flag w 6) (index w 4 4) (flag w 3))
  | 0x31 => unused w [(0, 3)] (.copyout (flag w 7) (flag w 6) (index w 4 4) (flag w 3))
  | 0x32 => unused w [(0, 3)] (.nest (flag w 7) (flag w 6) (index w 4 4) (flag w 3))
  | 0x33 => unused w [(0, 3)] (.gath (flag w 7) (flag w 6) (index w 4 4) (flag w 3))
  | 0x34 => unused w [(0, 3)] (.scat (flag w 7) (flag w 6) (index w 4 4) (flag w 3))
  | 0x35 => unused w [(2, 2)] (.qstream (flag w 7) (flag w 6) (index w 4 4) (index w 0 4))
  | 0x36 => unused w [(2, 2)] (.qdrain (flag w 7) (flag w 6) (index w 4 4) (index w 0 4))
  | 0x37 => unused w [(1, 3)] (.mlr (flag w 7) (flag w 6) (index w 4 4) (flag w 0))
  | 0x38 => unused w [(0, 4)] (.mst (flag w 7) (flag w 6) (index w 4 4))
  | 0x39 => unused w [(0, 4)] (.pref (flag w 7) (flag w 6) (index w 4 4))
  | _ => .error .unassigned

/-- An engine word: LIT, LITX or an operation, by its top bits (R74). -/
def decodeEngine (w : Nat) : Except Reject Instr :=
  if bits w 15 1 = 1 then candidate (.lit (field w 0 15))
  else if bits w 14 1 = 1 then candidate (.litx (field w 0 14))
  else decodeEngineOp w

/-- A word decoded in its family (R57). -/
def decodeWord (f : Family) (w : Nat) : Except Reject Instr :=
  match f with
  | .scalar => decodeS w
  | .vector => decodeV w
  | .engine => decodeEngine w

/-- Little-endian bytes read as a number (R3). -/
def bytesToNat : List Byte → Nat
  | [] => 0
  | b :: bs => b.toNat + 256 * bytesToNat bs

/-- The `n` low bytes of a number, least significant first (R3). -/
def natToBytes : Nat → Nat → List Byte
  | 0, _ => []
  | n + 1, w => BitVec.ofNat 8 w :: natToBytes n (w / 256)

/-- The decoder on bytes: the instruction and the bytes after it, or the reason there is none. -/
def decode (f : Family) (bs : List Byte) : Except Reject (Instr × List Byte) :=
  if bs.length < f.bytes then .error .tooShort
  else match decodeWord f (bytesToNat (bs.take f.bytes)) with
    | .ok i => .ok (i, bs.drop f.bytes)
    | .error r => .error r

/-- The instruction of a word of `nbits` bits: 16 bits are an engine word; 32 bits are an S-ISA word, or a V-ISA word
where the S-ISA refuses them. The word goes through its bytes in memory order. -/
def decodeTableWord (nbits w : Nat) : Option Instr :=
  if nbits = 16 then (decode .engine (natToBytes 2 w)).toOption.map Prod.fst
  else match decode .scalar (natToBytes 4 w) with
    | .ok (i, _) => some i
    | .error _ => (decode .vector (natToBytes 4 w)).toOption.map Prod.fst

/-- A word: its fixed bits and its fields, each with its low bit. -/
def word (f : Family) (base : Nat) (fs : List (Nat × Nat)) : Option (Family × Nat) :=
  some (f, fs.foldl (fun w x => w + x.1 * 2 ^ x.2) base)

/-- The family and the word of an instruction, from the same tables. A step of the device has none. -/
def encode : Instr → Option (Family × Nat)
  | .add d a b => word .scalar 0x00000000 [(d.val, 19), (a.val, 13), (b.val, 7)]
  | .sub d a b => word .scalar 0x00000001 [(d.val, 19), (a.val, 13), (b.val, 7)]
  | .mul d a b => word .scalar 0x00000002 [(d.val, 19), (a.val, 13), (b.val, 7)]
  | .mulhs d a b => word .scalar 0x00000003 [(d.val, 19), (a.val, 13), (b.val, 7)]
  | .mulhu d a b => word .scalar 0x00000004 [(d.val, 19), (a.val, 13), (b.val, 7)]
  | .div d a b => word .scalar 0x00000005 [(d.val, 19), (a.val, 13), (b.val, 7)]
  | .divu d a b => word .scalar 0x00000006 [(d.val, 19), (a.val, 13), (b.val, 7)]
  | .rem d a b => word .scalar 0x00000007 [(d.val, 19), (a.val, 13), (b.val, 7)]
  | .remu d a b => word .scalar 0x00000008 [(d.val, 19), (a.val, 13), (b.val, 7)]
  | .and d a b => word .scalar 0x00000009 [(d.val, 19), (a.val, 13), (b.val, 7)]
  | .or d a b => word .scalar 0x0000000A [(d.val, 19), (a.val, 13), (b.val, 7)]
  | .xor d a b => word .scalar 0x0000000B [(d.val, 19), (a.val, 13), (b.val, 7)]
  | .andn d a b => word .scalar 0x0000000C [(d.val, 19), (a.val, 13), (b.val, 7)]
  | .shl d a b => word .scalar 0x0000000D [(d.val, 19), (a.val, 13), (b.val, 7)]
  | .shr d a b => word .scalar 0x0000000E [(d.val, 19), (a.val, 13), (b.val, 7)]
  | .sar d a b => word .scalar 0x0000000F [(d.val, 19), (a.val, 13), (b.val, 7)]
  | .rol d a b => word .scalar 0x00000010 [(d.val, 19), (a.val, 13), (b.val, 7)]
  | .min d a b => word .scalar 0x00000011 [(d.val, 19), (a.val, 13), (b.val, 7)]
  | .minu d a b => word .scalar 0x00000012 [(d.val, 19), (a.val, 13), (b.val, 7)]
  | .max d a b => word .scalar 0x00000013 [(d.val, 19), (a.val, 13), (b.val, 7)]
  | .maxu d a b => word .scalar 0x00000014 [(d.val, 19), (a.val, 13), (b.val, 7)]
  | .slt d a b => word .scalar 0x00000015 [(d.val, 19), (a.val, 13), (b.val, 7)]
  | .sltu d a b => word .scalar 0x00000016 [(d.val, 19), (a.val, 13), (b.val, 7)]
  | .seq d a b => word .scalar 0x00000017 [(d.val, 19), (a.val, 13), (b.val, 7)]
  | .clz d a => word .scalar 0x00000018 [(d.val, 19), (a.val, 13)]
  | .ctz d a => word .scalar 0x00000019 [(d.val, 19), (a.val, 13)]
  | .popc d a => word .scalar 0x0000001A [(d.val, 19), (a.val, 13)]
  | .sel d a b => word .scalar 0x0000001B [(d.val, 19), (a.val, 13), (b.val, 7)]
  | .addi d a i => word .scalar 0x02000000 [(d.val, 19), (a.val, 13), (i.toNat, 0)]
  | .andi d a i => word .scalar 0x04000000 [(d.val, 19), (a.val, 13), (i.toNat, 0)]
  | .ori d a i => word .scalar 0x06000000 [(d.val, 19), (a.val, 13), (i.toNat, 0)]
  | .xori d a i => word .scalar 0x08000000 [(d.val, 19), (a.val, 13), (i.toNat, 0)]
  | .shli d a n => word .scalar 0x0A000000 [(d.val, 19), (a.val, 13), (n.val, 0)]
  | .shri d a n => word .scalar 0x0C000000 [(d.val, 19), (a.val, 13), (n.val, 0)]
  | .sari d a n => word .scalar 0x0E000000 [(d.val, 19), (a.val, 13), (n.val, 0)]
  | .slti d a i => word .scalar 0x10000000 [(d.val, 19), (a.val, 13), (i.toNat, 0)]
  | .sltiu d a i => word .scalar 0x12000000 [(d.val, 19), (a.val, 13), (i.toNat, 0)]
  | .lih d i => word .scalar 0x14000000 [(d.val, 19), (i.toNat, 0)]
  | .extu d a p l => word .scalar 0x16000000 [(d.val, 19), (a.val, 13), (p.val, 6), (l.val, 0)]
  | .exts d a p l => word .scalar 0x18000000 [(d.val, 19), (a.val, 13), (p.val, 6), (l.val, 0)]
  | .ins d a p l => word .scalar 0x1A000000 [(d.val, 19), (a.val, 13), (p.val, 6), (l.val, 0)]
  | .beq a b o => word .scalar 0x20000000 [(a.val, 19), (b.val, 13), (o.toNat, 0)]
  | .bne a b o => word .scalar 0x22000000 [(a.val, 19), (b.val, 13), (o.toNat, 0)]
  | .blt a b o => word .scalar 0x24000000 [(a.val, 19), (b.val, 13), (o.toNat, 0)]
  | .bge a b o => word .scalar 0x26000000 [(a.val, 19), (b.val, 13), (o.toNat, 0)]
  | .bltu a b o => word .scalar 0x28000000 [(a.val, 19), (b.val, 13), (o.toNat, 0)]
  | .bgeu a b o => word .scalar 0x2A000000 [(a.val, 19), (b.val, 13), (o.toNat, 0)]
  | .j o => word .scalar 0x2C000000 [(o.toNat, 0)]
  | .jal d o => word .scalar 0x2E000000 [(d.val, 19), (o.toNat, 0)]
  | .jalr d a i => word .scalar 0x30000000 [(d.val, 19), (a.val, 13), (i.toNat, 0)]
  | .ldsB d a i => word .scalar 0x40000000 [(d.val, 19), (a.val, 13), (i.toNat, 0)]
  | .ldsBu d a i => word .scalar 0x42000000 [(d.val, 19), (a.val, 13), (i.toNat, 0)]
  | .ldsH d a i => word .scalar 0x44000000 [(d.val, 19), (a.val, 13), (i.toNat, 0)]
  | .ldsHu d a i => word .scalar 0x46000000 [(d.val, 19), (a.val, 13), (i.toNat, 0)]
  | .ldsW d a i => word .scalar 0x48000000 [(d.val, 19), (a.val, 13), (i.toNat, 0)]
  | .ldsWu d a i => word .scalar 0x4A000000 [(d.val, 19), (a.val, 13), (i.toNat, 0)]
  | .ldsD d a i => word .scalar 0x4C000000 [(d.val, 19), (a.val, 13), (i.toNat, 0)]
  | .stsB s a i => word .scalar 0x50000000 [(s.val, 19), (a.val, 13), (i.toNat, 0)]
  | .stsH s a i => word .scalar 0x52000000 [(s.val, 19), (a.val, 13), (i.toNat, 0)]
  | .stsW s a i => word .scalar 0x54000000 [(s.val, 19), (a.val, 13), (i.toNat, 0)]
  | .stsD s a i => word .scalar 0x56000000 [(s.val, 19), (a.val, 13), (i.toNat, 0)]
  | .amos d a b z o => word .scalar 0x58000000 [(d.val, 19), (a.val, 13), (b.val, 7), (z.val, 5), (o.val, 0)]
  | .cass d a b z => word .scalar 0x5A000000 [(d.val, 19), (a.val, 13), (b.val, 7), (z.val, 5)]
  | .ldB d a i => word .scalar 0x60000000 [(d.val, 19), (a.val, 13), (i.toNat, 0)]
  | .ldBu d a i => word .scalar 0x62000000 [(d.val, 19), (a.val, 13), (i.toNat, 0)]
  | .ldH d a i => word .scalar 0x64000000 [(d.val, 19), (a.val, 13), (i.toNat, 0)]
  | .ldHu d a i => word .scalar 0x66000000 [(d.val, 19), (a.val, 13), (i.toNat, 0)]
  | .ldW d a i => word .scalar 0x68000000 [(d.val, 19), (a.val, 13), (i.toNat, 0)]
  | .ldWu d a i => word .scalar 0x6A000000 [(d.val, 19), (a.val, 13), (i.toNat, 0)]
  | .ldD d a i => word .scalar 0x6C000000 [(d.val, 19), (a.val, 13), (i.toNat, 0)]
  | .stB s a i => word .scalar 0x70000000 [(s.val, 19), (a.val, 13), (i.toNat, 0)]
  | .stH s a i => word .scalar 0x72000000 [(s.val, 19), (a.val, 13), (i.toNat, 0)]
  | .stW s a i => word .scalar 0x74000000 [(s.val, 19), (a.val, 13), (i.toNat, 0)]
  | .stD s a i => word .scalar 0x76000000 [(s.val, 19), (a.val, 13), (i.toNat, 0)]
  | .amo d a b z o => word .scalar 0x78000000 [(d.val, 19), (a.val, 13), (b.val, 7), (z.val, 5), (o.val, 0)]
  | .cas d a b z => word .scalar 0x7A000000 [(d.val, 19), (a.val, 13), (b.val, 7), (z.val, 5)]
  | .fadd d a b m => word .scalar 0x80000000 [(d.val, 19), (a.val, 13), (b.val, 7), (m.val, 4)]
  | .faddDyn d a b => word .scalar 0x82000000 [(d.val, 19), (a.val, 13), (b.val, 7)]
  | .fsub d a b m => word .scalar 0x80000001 [(d.val, 19), (a.val, 13), (b.val, 7), (m.val, 4)]
  | .fsubDyn d a b => word .scalar 0x82000001 [(d.val, 19), (a.val, 13), (b.val, 7)]
  | .fmul d a b m => word .scalar 0x80000002 [(d.val, 19), (a.val, 13), (b.val, 7), (m.val, 4)]
  | .fmulDyn d a b => word .scalar 0x82000002 [(d.val, 19), (a.val, 13), (b.val, 7)]
  | .fma d a b m => word .scalar 0x80000003 [(d.val, 19), (a.val, 13), (b.val, 7), (m.val, 4)]
  | .fmaDyn d a b => word .scalar 0x82000003 [(d.val, 19), (a.val, 13), (b.val, 7)]
  | .fdiv d a b m => word .scalar 0x80000004 [(d.val, 19), (a.val, 13), (b.val, 7), (m.val, 4)]
  | .fdivDyn d a b => word .scalar 0x82000004 [(d.val, 19), (a.val, 13), (b.val, 7)]
  | .fsqrt d a m => word .scalar 0x80000005 [(d.val, 19), (a.val, 13), (m.val, 4)]
  | .fsqrtDyn d a => word .scalar 0x82000005 [(d.val, 19), (a.val, 13)]
  | .fmin d a b => word .scalar 0x80000006 [(d.val, 19), (a.val, 13), (b.val, 7)]
  | .fmax d a b => word .scalar 0x80000007 [(d.val, 19), (a.val, 13), (b.val, 7)]
  | .fminn d a b => word .scalar 0x80000008 [(d.val, 19), (a.val, 13), (b.val, 7)]
  | .fmaxn d a b => word .scalar 0x80000009 [(d.val, 19), (a.val, 13), (b.val, 7)]
  | .fcmp d a b p => word .scalar 0x8000000A [(d.val, 19), (a.val, 13), (b.val, 7), (p.val, 4)]
  | .fcvtFmtF32 d a s f m => word .scalar 0x8000000B [(d.val, 19), (a.val, 13), (s.toNat, 11), (f.val, 7), (m.val, 4)]
  | .fcvtFmtF32Dyn d a s f => word .scalar 0x8200000B [(d.val, 19), (a.val, 13), (s.toNat, 11), (f.val, 7)]
  | .fcvtF32Fmt d a s f m => word .scalar 0x8000000C [(d.val, 19), (a.val, 13), (s.toNat, 11), (f.val, 7), (m.val, 4)]
  | .fcvtF32FmtDyn d a s f => word .scalar 0x8200000C [(d.val, 19), (a.val, 13), (s.toNat, 11), (f.val, 7)]
  | .fclass d a => word .scalar 0x8000000D [(d.val, 19), (a.val, 13)]
  | .qpops d q => word .scalar 0x90000000 [(d.val, 19), (q.val, 0)]
  | .fork a m => word .scalar 0xA0000000 [(a.val, 13), (m.val, 0)]
  | .join => word .scalar 0xA2000000 []
  | .taskEnd => word .scalar 0xA4000000 []
  | .ckpt a i => word .scalar 0xA6000000 [(a.val, 13), (i.toNat, 0)]
  | .waitc l s c o => word .scalar 0xB0000000 [(l.val, 12), (s.val, 8), (c.val, 4), (o.val, 0)]
  | .waitv d a l m => word .scalar 0xB2000000 [(d.val, 19), (a.val, 13), (l.toNat, 4), (m.val, 0)]
  | .pegp p => word .scalar 0xB4000000 [(p.val, 0)]
  | .pegw a p => word .scalar 0xB6000000 [(a.val, 13), (p.val, 0)]
  | .bar p s => word .scalar 0xB8000000 [(p.toNat, 2), (s.val, 0)]
  | .phase s => word .scalar 0xBA000000 [(s.val, 0)]
  | .fence s => word .scalar 0xBC000000 [(s.val, 0)]
  | .jqput d a b => word .scalar 0xC0000000 [(d.val, 19), (a.val, 13), (b.val, 7)]
  | .jqctlClassset d a b => word .scalar 0xC2000000 [(d.val, 19), (a.val, 13), (b.val, 7)]
  | .jqctlClassget d a b => word .scalar 0xC2000001 [(d.val, 19), (a.val, 13), (b.val, 7)]
  | .jqctlFreeze d a b => word .scalar 0xC2000002 [(d.val, 19), (a.val, 13), (b.val, 7)]
  | .jqctlThaw d a b => word .scalar 0xC2000003 [(d.val, 19), (a.val, 13), (b.val, 7)]
  | .jqctlTake d a b => word .scalar 0xC2000004 [(d.val, 19), (a.val, 13), (b.val, 7)]
  | .jqctlSteal d a b => word .scalar 0xC2000005 [(d.val, 19), (a.val, 13), (b.val, 7)]
  | .jqctlQuery d a b => word .scalar 0xC2000006 [(d.val, 19), (a.val, 13), (b.val, 7)]
  | .ctraddLocal a b => word .scalar 0xC4000000 [(a.val, 13), (b.val, 7)]
  | .ctraddGlobal a b => word .scalar 0xC4000001 [(a.val, 13), (b.val, 7)]
  | .send d a b => word .scalar 0xC6000000 [(d.val, 19), (a.val, 13), (b.val, 7)]
  | .bkarm d a b => word .scalar 0xC8000000 [(d.val, 19), (a.val, 13), (b.val, 7)]
  | .evget d => word .scalar 0xCA000000 [(d.val, 19)]
  | .evdone => word .scalar 0xCC000000 []
  | .csrr d c => word .scalar 0xE0000000 [(d.val, 19), (c.toNat, 1)]
  | .csrw a c => word .scalar 0xE2000000 [(a.val, 13), (c.toNat, 1)]
  | .csrwC a c => word .scalar 0xE2000001 [(a.val, 13), (c.toNat, 1)]
  | .csrx d a c => word .scalar 0xE4000000 [(d.val, 19), (a.val, 13), (c.toNat, 1)]
  | .csrxS d a c => word .scalar 0xE4000001 [(d.val, 19), (a.val, 13), (c.toNat, 1)]
  | .trap c => word .scalar 0xE6000000 [(c.toNat, 0)]
  | .sret => word .scalar 0xE8000000 []
  | .tlbiVa a b => word .scalar 0xEA000000 [(a.val, 13), (b.val, 7)]
  | .tlbiAsid b => word .scalar 0xEA000001 [(b.val, 7)]
  | .tlbiAll => word .scalar 0xEA000002 []
  | .seghold a => word .scalar 0xEC000000 [(a.val, 13)]
  | .segrel a => word .scalar 0xEE000000 [(a.val, 13)]
  | .vadd d a b t m y s n => word .vector 0x00000000 [(d.val, 21), (a.val, 16), (b.val, 11), (t.val, 8), (m.val, 5), (y.toNat, 4), (s.toNat, 3), (n.toNat, 2)]
  | .vsub d a b t m y s n => word .vector 0x02000000 [(d.val, 21), (a.val, 16), (b.val, 11), (t.val, 8), (m.val, 5), (y.toNat, 4), (s.toNat, 3), (n.toNat, 2)]
  | .vmul d a b t m y s n => word .vector 0x04000000 [(d.val, 21), (a.val, 16), (b.val, 11), (t.val, 8), (m.val, 5), (y.toNat, 4), (s.toNat, 3), (n.toNat, 2)]
  | .vfma d a b t m y s n => word .vector 0x06000000 [(d.val, 21), (a.val, 16), (b.val, 11), (t.val, 8), (m.val, 5), (y.toNat, 4), (s.toNat, 3), (n.toNat, 2)]
  | .vfms d a b t m y s n => word .vector 0x08000000 [(d.val, 21), (a.val, 16), (b.val, 11), (t.val, 8), (m.val, 5), (y.toNat, 4), (s.toNat, 3), (n.toNat, 2)]
  | .vdiv d a b t m y s n => word .vector 0x0A000000 [(d.val, 21), (a.val, 16), (b.val, 11), (t.val, 8), (m.val, 5), (y.toNat, 4), (s.toNat, 3), (n.toNat, 2)]
  | .vsqrt d a t m y s n => word .vector 0x0C000000 [(d.val, 21), (a.val, 16), (t.val, 8), (m.val, 5), (y.toNat, 4), (s.toNat, 3), (n.toNat, 2)]
  | .vmin d a b t n => word .vector 0x0E000000 [(d.val, 21), (a.val, 16), (b.val, 11), (t.val, 8), (n.toNat, 2)]
  | .vmax d a b t n => word .vector 0x10000000 [(d.val, 21), (a.val, 16), (b.val, 11), (t.val, 8), (n.toNat, 2)]
  | .vminn d a b t n => word .vector 0x12000000 [(d.val, 21), (a.val, 16), (b.val, 11), (t.val, 8), (n.toNat, 2)]
  | .vmaxn d a b t n => word .vector 0x14000000 [(d.val, 21), (a.val, 16), (b.val, 11), (t.val, 8), (n.toNat, 2)]
  | .vabs d a t s n => word .vector 0x16000000 [(d.val, 21), (a.val, 16), (t.val, 8), (s.toNat, 3), (n.toNat, 2)]
  | .vneg d a t s n => word .vector 0x18000000 [(d.val, 21), (a.val, 16), (t.val, 8), (s.toNat, 3), (n.toNat, 2)]
  | .vcmp d a b t p n u => word .vector 0x1A000000 [(d.val, 21), (a.val, 16), (b.val, 11), (t.val, 8), (p.val, 5), (n.toNat, 2), (u.toNat, 0)]
  | .vsel d a b t n => word .vector 0x1C000000 [(d.val, 21), (a.val, 16), (b.val, 11), (t.val, 8), (n.toNat, 2)]
  | .vand d a b t n => word .vector 0x1E000000 [(d.val, 21), (a.val, 16), (b.val, 11), (t.val, 8), (n.toNat, 2)]
  | .vor d a b t n => word .vector 0x20000000 [(d.val, 21), (a.val, 16), (b.val, 11), (t.val, 8), (n.toNat, 2)]
  | .vxor d a b t n => word .vector 0x22000000 [(d.val, 21), (a.val, 16), (b.val, 11), (t.val, 8), (n.toNat, 2)]
  | .vshl d a b t n => word .vector 0x24000000 [(d.val, 21), (a.val, 16), (b.val, 11), (t.val, 8), (n.toNat, 2)]
  | .vshr d a b t n => word .vector 0x26000000 [(d.val, 21), (a.val, 16), (b.val, 11), (t.val, 8), (n.toNat, 2)]
  | .vsar d a b t n => word .vector 0x28000000 [(d.val, 21), (a.val, 16), (b.val, 11), (t.val, 8), (n.toNat, 2)]
  | .vcvt d a t m y s e => word .vector 0x2A000000 [(d.val, 21), (a.val, 16), (t.val, 8), (m.val, 5), (y.toNat, 4), (s.toNat, 3), (e.val, 0)]
  | .vclass d a t n => word .vector 0x2C000000 [(d.val, 21), (a.val, 16), (t.val, 8), (n.toNat, 2)]
  | .vexp2 d a t m y s n => word .vector 0x30000000 [(d.val, 21), (a.val, 16), (t.val, 8), (m.val, 5), (y.toNat, 4), (s.toNat, 3), (n.toNat, 2)]
  | .vlog2 d a t m y s n => word .vector 0x32000000 [(d.val, 21), (a.val, 16), (t.val, 8), (m.val, 5), (y.toNat, 4), (s.toNat, 3), (n.toNat, 2)]
  | .vrcp d a t m y s n => word .vector 0x34000000 [(d.val, 21), (a.val, 16), (t.val, 8), (m.val, 5), (y.toNat, 4), (s.toNat, 3), (n.toNat, 2)]
  | .vrsq d a t m y s n => word .vector 0x36000000 [(d.val, 21), (a.val, 16), (t.val, 8), (m.val, 5), (y.toNat, 4), (s.toNat, 3), (n.toNat, 2)]
  | .vtanh d a t m y s n => word .vector 0x38000000 [(d.val, 21), (a.val, 16), (t.val, 8), (m.val, 5), (y.toNat, 4), (s.toNat, 3), (n.toNat, 2)]
  | .verf d a t m y s n => word .vector 0x3A000000 [(d.val, 21), (a.val, 16), (t.val, 8), (m.val, 5), (y.toNat, 4), (s.toNat, 3), (n.toNat, 2)]
  | .vrotr d a n c => word .vector 0x40000000 [(d.val, 21), (a.val, 16), (n.toNat, 7), (c.val, 0)]
  | .vbcr d a n c => word .vector 0x42000000 [(d.val, 21), (a.val, 16), (n.toNat, 7), (c.val, 0)]
  | .vredr d a t m y n o => word .vector 0x44000000 [(d.val, 21), (a.val, 16), (t.val, 8), (m.val, 5), (y.toNat, 4), (n.toNat, 3), (o.val, 0)]
  | .vrotc d a n c => word .vector 0x48000000 [(d.val, 21), (a.val, 16), (n.toNat, 7), (c.val, 0)]
  | .vbcc d a n c => word .vector 0x4A000000 [(d.val, 21), (a.val, 16), (n.toNat, 7), (c.val, 0)]
  | .vredc d a t m y n o => word .vector 0x4C000000 [(d.val, 21), (a.val, 16), (t.val, 8), (m.val, 5), (y.toNat, 4), (n.toNat, 3), (o.val, 0)]
  | .vtrn d a n => word .vector 0x50000000 [(d.val, 21), (a.val, 16), (n.toNat, 7)]
  | .vselk d a g t k => word .vector 0x52000000 [(d.val, 21), (a.val, 16), (g.val, 11), (t.val, 8), (k.val, 0)]
  | .vcompr d a b n => word .vector 0x54000000 [(d.val, 21), (a.val, 16), (b.val, 11), (n.toNat, 7)]
  | .vlds d k => word .vector 0x60000000 [(d.val, 21), (k.val, 0)]
  | .vsts a k => word .vector 0x62000000 [(a.val, 16), (k.val, 0)]
  | .vldx d b k => word .vector 0x64000000 [(d.val, 21), (b.val, 11), (k.val, 0)]
  | .vstx a b k => word .vector 0x66000000 [(a.val, 16), (b.val, 11), (k.val, 0)]
  | .vmov d a n => word .vector 0x68000000 [(d.val, 21), (a.val, 16), (n.toNat, 2)]
  | .vpop d q => word .vector 0x6A100000 [(d.val, 21), (q.val, 16)]
  | .vpush a q => word .vector 0x6C000000 [(a.val, 16), (q.val, 0)]
  | .vidx d c => word .vector 0x6E000000 [(d.val, 21), (c.toNat, 0)]
  | .vaccr d c s => word .vector 0x70000000 [(d.val, 21), (c.val, 4), (s.val, 0)]
  | .vaccw a c s => word .vector 0x72000000 [(a.val, 16), (c.val, 4), (s.val, 0)]
  | .vpack d a b t m y s e => word .vector 0x74000000 [(d.val, 21), (a.val, 16), (b.val, 11), (t.val, 8), (m.val, 5), (y.toNat, 4), (s.toNat, 3), (e.val, 0)]
  | .vunpk d a t h e => word .vector 0x76000000 [(d.val, 21), (a.val, 16), (t.val, 8), (h.toNat, 3), (e.val, 0)]
  | .kli k i => word .vector 0x80000000 [(k.val, 21), (i.toNat, 0)]
  | .kadd k a i => word .vector 0x82000000 [(k.val, 21), (a.val, 16), (i.toNat, 0)]
  | .kbr c a o => word .vector 0x84000000 [(c.val, 21), (a.val, 16), (o.toNat, 0)]
  | .vEnd c a => word .vector 0x84000000 [(c.val, 21), (a.val, 16)]
  | .vloop a l => word .vector 0x86000000 [(a.val, 16), (l.val, 0)]
  | .lit i => word .engine 0x8000 [(i.toNat, 0)]
  | .litx i => word .engine 0x4000 [(i.toNat, 0)]
  | .dup => word .engine 0x0100 []
  | .drop => word .engine 0x0200 []
  | .swap => word .engine 0x0300 []
  | .over => word .engine 0x0400 []
  | .engineAdd => word .engine 0x0500 []
  | .engineSub => word .engine 0x0600 []
  | .engineDo l => word .engine 0x0700 [(l.toNat, 7)]
  | .engineLoop l d => word .engine 0x0800 [(l.toNat, 7), (d.val, 0)]
  | .engineBr o => word .engine 0x0900 [(o.toNat, 0)]
  | .engineBz o => word .engine 0x0A00 [(o.toNat, 0)]
  | .enginePegp p => word .engine 0x0B00 [(p.val, 0)]
  | .enginePegw p => word .engine 0x0C00 [(p.val, 0)]
  | .engineWaitc c n => word .engine 0x0D00 [(c.val, 6), (n.val, 0)]
  | .engineFence s => word .engine 0x0E00 [(s.val, 4)]
  | .engineCtraddLocal q r s => word .engine 0x0F00 [(q.toNat, 7), (r.toNat, 6), (s.val, 4)]
  | .engineCtraddGlobal q r s => word .engine 0x0F01 [(q.toNat, 7), (r.toNat, 6), (s.val, 4)]
  | .engineEnd => word .engine 0x1000 []
  | .mma q r s x => word .engine 0x2000 [(q.toNat, 7), (r.toNat, 6), (s.val, 4), (x.toNat, 3)]
  | .accz q r s => word .engine 0x2100 [(q.toNat, 7), (r.toNat, 6), (s.val, 4)]
  | .accdrain q r s => word .engine 0x2200 [(q.toNat, 7), (r.toNat, 6), (s.val, 4)]
  | .scaleset t => word .engine 0x2300 [(t.toNat, 0)]
  | .copyin q r s p => word .engine 0x3000 [(q.toNat, 7), (r.toNat, 6), (s.val, 4), (p.toNat, 3)]
  | .copyout q r s p => word .engine 0x3100 [(q.toNat, 7), (r.toNat, 6), (s.val, 4), (p.toNat, 3)]
  | .nest q r s p => word .engine 0x3200 [(q.toNat, 7), (r.toNat, 6), (s.val, 4), (p.toNat, 3)]
  | .gath q r s p => word .engine 0x3300 [(q.toNat, 7), (r.toNat, 6), (s.val, 4), (p.toNat, 3)]
  | .scat q r s p => word .engine 0x3400 [(q.toNat, 7), (r.toNat, 6), (s.val, 4), (p.toNat, 3)]
  | .qstream q r s n => word .engine 0x3500 [(q.toNat, 7), (r.toNat, 6), (s.val, 4), (n.val, 0)]
  | .qdrain q r s n => word .engine 0x3600 [(q.toNat, 7), (r.toNat, 6), (s.val, 4), (n.val, 0)]
  | .mlr q r s b => word .engine 0x3700 [(q.toNat, 7), (r.toNat, 6), (s.val, 4), (b.toNat, 0)]
  | .mst q r s => word .engine 0x3800 [(q.toNat, 7), (r.toNat, 6), (s.val, 4)]
  | .pref q r s => word .engine 0x3900 [(q.toNat, 7), (r.toNat, 6), (s.val, 4)]
  | .discardComplete _ => none
  | .commandCompletion _ _ _ => none
  | .nestIteration _ _ => none
  | .streamEnd _ _ => none
  | .publishComplete _ => none
  | .checkpointCommit _ => none
  | .preemptFallback _ => none
  | .barComplete _ => none
  | .waitvTimeout _ => none
  | .waitvReturn _ => none
  | .portCycle => none
  | .gangStart _ => none
  | .gangComplete _ => none
  | .cardRead _ _ => none
  | .agingStep _ => none
  | .holdClaim _ _ => none
  | .backoffExpiry _ => none
  | .pageWaitTimeout _ => none
  | .tlbiComplete _ => none
  | .segholdComplete _ => none
  | .install _ _ => none
  | .remove _ _ => none
  | .prefetch _ _ => none
  | .evict _ _ => none
  | .pool _ _ => none
  | .spill _ _ => none
  | .fetchComplete _ => none
  | .fetchFailure _ _ => none
  | .evictionComplete _ => none
  | .snapshot _ _ => none
  | .snapshotCut _ => none
  | .snapshotFrameSave _ => none
  | .snapshotComplete _ _ => none
  | .preempt _ _ => none
  | .withdraw _ _ => none
  | .nvmeAdmin _ _ => none
  | .droverCopy _ _ => none
  | .stateExport _ _ => none
  | .stateImport _ _ => none
  | .droverComplete _ _ => none
  | .hostCompletion _ _ _ _ => none
  | .timerRequest _ _ => none
  | .timerExpiry _ => none
  | .watchdog _ => none
  | .packetArrival _ => none
  | .messageCompletion _ => none
  | .counterIncrement _ _ => none
  | .ackArrival _ _ => none
  | .retransmitTimeout _ => none
  | .retryBackoffExpiry _ => none
  | .purlinRequest _ => none
  | .linkStateChange _ _ _ => none
  | .launch _ _ => none
  | .cplhead _ _ => none
  | .readyctl _ _ => none
  | .attgo _ _ => none
  | .attestationReport _ => none
  | .recoveryImage _ => none
  | .vfctlCreate _ _ => none
  | .vfctlFreeze _ _ => none
  | .freezeComplete _ => none
  | .vfctlUnfreeze _ _ => none
  | .vfctlTear _ _ => none
  | .teardownComplete _ => none
  | .partctlCreate _ _ => none
  | .partctlDelete _ _ => none
  | .partitionFault _ => none
  | .dbgctlHalt _ _ => none
  | .haltReport _ => none
  | .dbgctlResume _ _ => none
  | .dbgctlAbort _ _ => none
  | .dbgctlBparm _ _ => none
  | .dbgctlBpdisarm _ _ => none
  | .dbgdataRead _ => none
  | .dbgdataWrite _ _ => none
  | .dbgselWrite _ _ => none
  | .fpcrWrite _ => none
  | .codesize _ _ _ => none
  | .ownerTag _ _ _ => none
  | .endpointSlot _ _ _ _ _ => none
  | .registerWrite _ _ => none
  | .boot => none
  | .powerOn _ => none
  | .clockStep _ _ => none
  | .scrub _ _ => none
  | .nvmeAdminCompletion _ _ _ => none
  | .purlinRetryExpiry _ _ => none
  | .powerLoss _ => none

end Sys2Proof
end

