-- ==== Sys2Proof/Machine/State.lean ====
section
/-! DEFINITION. Everything the manual says the device holds, as plain data. A field's default is its value right after
device reset; where the manual gives none, the value and its log entry stand with the field. -/

namespace Sys2Proof.Machine

/-- Why the machine stops. -/
inductive Fault where
  /-- Raised by `step` when the package has no power, or is held in reset, and no turn is left (R430). Safe: nothing
  runs there. -/
  | noPower
  deriving DecidableEq, Repr

/-- Why an instruction has no meaning here. -/
inductive Refusal where
  /-- Raised by `exec` for an instruction whose meaning is not written yet. Safe. -/
  | notModelled (mnemonic : String)
  deriving DecidableEq, Repr

/-- Who issues words: a stream of a tile or an Innkeeper thread (R15, R21). -/
inductive Agent where
  | tile (t : TileId) (s : Stream)
  | thread (n : ThreadId)
  deriving DecidableEq, Repr

/-- A CXL decoder that Keeper firmware programs: its range, and the root ports it interleaves over at 4 KiB (R339,
R412). -/
structure Decoder where
  base : Nat
  size : Nat
  ports : List (Fin 4)
  deriving DecidableEq, Repr

/-- What the Keeper sets in the device without a register of the manual (R405, R412, R431; DESIGN CHOICE, log 5). -/
inductive KeeperSetting where
  | purlinId (n : BitVec 12)
  | route (dev : BitVec 12) (ports : BitVec 8)
  | powerLimit (watts : Nat)
  | decoders (ds : List Decoder)
  deriving DecidableEq, Repr

/-- What happens to the device beside its instructions and the steps of the opcode table: what the host and the Keeper's
firmware do to it, what its transfers do piece by piece, and soft errors. -/
inductive World where
  /-- The host reads a register of a function's page; none is the physical function (R409, R418, R427). -/
  | hostRead (vf : Option VfId) (off : Nat)
  /-- Keeper firmware sets a device parameter. -/
  | keeperSet (k : KeeperSetting)
  /-- Keeper firmware begins to write a new image into the slot that is not running (R423 step 1). -/
  | updateImage (image : List Byte)
  /-- Keeper firmware begins to rewrite a marker copy (R423 step 2). -/
  | updateMarker
  /-- The flash write in progress goes on by `n` bytes (R423, R424). -/
  | flashStep (n : Nat)
  /-- The host writes the recovery loader's staging buffer (R424). -/
  | stage (off : Nat) (bytes : List Byte)
  /-- A drive shows a namespace: its LBA size in bytes and how many it holds; 0 for none (R361, R370, R413). -/
  | driveSpace (port : Fin 8) (nsid : BitVec 32) (lba blocks : Nat)
  /-- What the package draws, in W (R431). -/
  | packagePower (watts : Nat)
  /-- An Ethernet delivery context ends, and its receive state with it (R388, R389). -/
  | closeContext (context : Nat)
  /-- A transfer on a Drover or a queue pair lands up to `n` more 64-byte writes (R353, R371). -/
  | transfer (id n : Nat)
  /-- A word in turn reads a store of the tile that ECC cannot correct, at `addr` (R428). -/
  | eccWord (t : TileId) (s : Stream) (addr : Word)
  /-- A running command reads a store of the tile that ECC cannot correct (R230, R263, R428). -/
  | eccCommand (t : TileId) (onM : Bool) (id : Nat) (addr : Word)
  /-- A thread's own registers hold an error that ECC cannot correct (R116, R428). -/
  | eccThread (n : ThreadId) (addr : Word)
  /-- The two computations of the next group step of an MMA with RED differ (R224). -/
  | mismatch (t : TileId) (id : Nat)
  /-- The oldest answer that the device has given leaves it. -/
  | collect
  deriving DecidableEq, Repr

/-- What happens next. The order of turns stands for time, which the manual leaves open (DESIGN CHOICE, log 4). -/
inductive Turn where
  /-- The agent issues its next word. -/
  | issue (a : Agent)
  /-- A step of the device without a word. -/
  | device (i : Instr)
  /-- One Innkeeper cycle passes (R6). -/
  | clock
  /-- Command `id` of a tile's Porter or M engine goes on by up to `n` elements or group steps. -/
  | work (t : TileId) (onM : Bool) (id n : Nat)
  /-- One store of the tile's oldest publish becomes readable (R315). -/
  | granule (t : TileId) (k : Nat)
  /-- A tile may go on reading the present value of a granule, by its number, once a write has covered it (R319). -/
  | keepOld (t : TileId) (g : Nat)
  /-- The tile reads the next value of the granule in its coherence order (R319). -/
  | seeNew (t : TileId) (g : Nat)
  /-- A tile's TLB drops entry `k` (R346, log 11). -/
  | tlbDrop (t : TileId) (k : Nat)
  /-- A walker of the tile's die keeps the entry that a walk of `va` reads at a level, 0 for the root word (R346). -/
  | walkKeep (t : TileId) (va lvl : Nat)
  /-- The walkers' kept entry `k` goes (R346). -/
  | walkDrop (k : Nat)
  /-- The bytes that a command has read for bank row `r` land whole (R249). -/
  | row (t : TileId) (id r : Nat)
  /-- A command that has not yet used bank row `r` will read its present contents (R221, R249). -/
  | rowRead (t : TileId) (onM : Bool) (id r : Nat)
  /-- Element `n` of a running MMA's block takes its next group step ahead of the others (R199). -/
  | element (t : TileId) (id n : Nat)
  /-- The dispatchers of the present port cycle select, ahead of its TAKEs and STEALs (R274). -/
  | select
  /-- Something from outside, or a piece of a transfer. -/
  | world (w : World)
  deriving DecidableEq, Repr

/-- A vector register's image: 1024 lanes, row by row (R58, R165). -/
abbrev Image := Vector Lane 1024

/-- An accumulator block: 64 x 128 elements, row by row (R17). -/
abbrev AccBlock := Vector Lane 8192

/-- A stream's life: not started or collected; issuing; its END issued and its commands running; ended and not yet
collected by JOIN (R133 to R135). -/
inductive RunState where
  | idle | running | ending | ended
  deriving DecidableEq, Repr

/-- One xorshift32 generator: its word and half-pointer (R40). -/
structure Gen where
  x : BitVec 32 := 1
  half : Bool := false
  deriving DecidableEq, Repr

/-- A stream of a tile. Registers without a reset value hold 0 (DESIGN CHOICE, log 2). -/
structure StreamCtx where
  /-- Virtual address of the next word. -/
  pc : Word := 0
  run : RunState := .idle
  /-- FPCR copy (R46). -/
  fpcr : Word := 0
  fpsr : Word := 0
  gen : Gen := {}
  /-- Parameter stack, top first (R58). -/
  stack : List Word := []
  l0 : Word := 0
  l1 : Word := 0
  /-- The oldest command of a full queue, for whose completion the stream stalls (R207, R232). -/
  stall : Option Nat := none
  deriving DecidableEq, Repr

/-- An active VLOOP: first and last body word, remaining count (R204). -/
structure VLoop where
  first : Word
  last : Word
  count : BitVec 32
  deriving DecidableEq, Repr

/-- One side pair of a queue (R172, R250, R251). Inbound elements stand in source format with their NQ4 code; outbound
elements in sink format. -/
structure Queue where
  inb : List (BitVec 32 × Byte) := []
  outb : List (BitVec 32) := []
  /-- Pops that wait, in the order in which they are served, with the ac cycle in which each came (R163, R174). -/
  waits : List (Stream × Nat) := []
  /-- QFMT (R250): launch value; 0 without a task (DESIGN CHOICE, log 2). -/
  fmt : Word := 0
  deriving DecidableEq, Repr

/-- A frame record as read at issue (R238), with its dynamic count (R241). -/
structure Frame where
  /-- Window offset of the record. -/
  off : Nat
  base : Nat
  fmt : Nat
  rank : Nat
  transpose : Bool
  fill : Nat
  interleave : Nat
  xormask : Nat
  dest : Nat
  fillbits : Nat
  /-- Sizes d0 to d4. -/
  sizes : List Nat
  /-- Strides S1 to S4. -/
  strides : List Nat
  /-- Origins o0 to o4. -/
  origins : List Int
  /-- Extents e0 to e4. Each list holds the dimensions below RANK only (R238). -/
  extents : List Nat
  /-- The dynamic count, clamped, when DYNEN is 1. -/
  dyn : Option Nat
  clamped : Bool
  deriving DecidableEq, Repr

/-- A shape record as read at issue (R211), with its dynamic count (R215). -/
structure Shape where
  off : Nat
  fmt : Nat
  interleave : Nat
  xormask : Nat
  transpose : Bool
  /-- Stored rows, columns and row stride. -/
  rows : Nat
  cols : Nat
  stride : Nat
  /-- Stored rows from here on read as +0. -/
  live : Nat
  scaled : Bool
  scaleFmt : Nat
  blockLog2 : Nat
  scaleOff : Nat
  deriving DecidableEq, Repr

/-- What a command does (R207, R232). Records are read at issue. -/
inductive CmdKind where
  | copyin (f : Frame) (prog : Bool)
  | copyout (f : Frame) (prog : Bool)
  | nest (f : Frame) (nestRec : List Word) (prog : Bool)
  | gath (f : Frame) (idx : Nat) (prog : Bool)
  | scat (f : Frame) (idx : Nat) (prog : Bool)
  | qstream (f : Frame) (q : Fin 4) (scale : Word)
  | qdrain (f : Frame) (q : Fin 4)
  | mlr (group : Word) (roff : Word) (desc : Word) (bf16 : Bool)
  | mst (group : Word) (roff : Word) (desc : Word)
  | pref (addr : Word) (len : Word)
  | pegp (p : Fin 16)
  | ctradd (isGlobal : Bool) (loc : Word) (v : Word)
  | mma (a : Shape) (b : Shape) (block : Fin 16) (red : Bool)
  | accz (mask : Word)
  | accdrain (mask : Word)
  | scaleset (toB : Bool) (v : Lane)
  deriving DecidableEq, Repr

/-- One byte of a buffered store with the halves it covers (R253, R314). -/
structure StoreByte where
  off : Nat
  lo : Bool
  hi : Bool
  val : Byte
  deriving DecidableEq, Repr

/-- A member of an address group, as its record gives it: its index, RBASE, KEY, RVF, DEV, and a set reserved bit (R407). -/
structure Member where
  m : Nat
  base : Nat
  key : Nat
  rvf : Nat
  dev : Nat
  bad : Bool
  deriving DecidableEq, Repr

/-- A command in an engine's queue. -/
structure Cmd where
  id : Nat
  kind : CmdKind
  acq : Bool
  rel : Bool
  scope : Fin 4
  /-- Counter specifier (R245); 0 for none. -/
  cspec : Word
  /-- Address of the command's word and its place in the issue order (R111). -/
  pc : Word
  order : Nat
  /-- ac cycle of its die in which the word issued (R111). -/
  issued : Nat
  started : Bool := false
  /-- Elements or group steps done, in walk order (R243); for a NEST those of the iteration. -/
  pos : Nat := 0
  /-- Iterations of a NEST that are complete (R255). -/
  iter : Nat := 0
  /-- Bytes a progressive counter has gained (R247). -/
  credited : Nat := 0
  /-- Absent members found at the start (R260, R261). -/
  absent : Option (BitVec 32) := none
  /-- Ticks since a member first answered retry later, and that they have run out (R406). -/
  retryTicks : Option Nat := none
  retryOver : Bool := false
  /-- A later command has written the same status word (R233, R246). -/
  covered : Bool := false
  /-- Every effect has landed; a REL waits for its release (R235). -/
  landed : Bool := false
  /-- Granules read in the iteration in progress, by physical address: each keeps one value, so that none tears (R319). -/
  reads : List (Nat × List Byte) := []
  /-- Bytes read for the scratchpad that have not landed, by scratchpad address (R249). -/
  pend : List StoreByte := []
  /-- The scratchpad as the command will read it (R221, R249): none until it starts, and for a NEST until its iteration
  does. -/
  view : Option Memory := none
  /-- Group steps done by elements of an MMA's block that are ahead of `pos` (R199); for an ACCZ a 1 for each element that
  already holds +0, at 8192 x block + element (R226). -/
  ahead : Table Nat := []
  /-- The members of the group, read at the start (R407). -/
  members : Option (List Member) := none
  deriving DecidableEq, Repr

/-- Where a buffered store goes: a granule of the VF's intermediate space, or a member of an address group (R259). -/
inductive StoreDest where
  | ipa
  | member (entry m : Nat) (dev : Nat) (rvf : Nat) (key : Nat)
  deriving DecidableEq, Repr

/-- A granule of the publish buffer: 64 bytes from `addr` (R138). -/
structure Granule where
  dest : StoreDest
  addr : Nat
  bytes : List StoreByte
  deriving DecidableEq, Repr

/-- A send as its descriptor and data stood when it issued (R402, R403). -/
structure Send where
  part : PartId
  /-- The issuer's VF, or none for a Steward or Keeper. -/
  vf : Option VfId
  handle : Word
  cookie : Word
  tag : Word
  op : Nat
  fromMem : Bool
  notify : Option ThreadId
  /-- Arrival counter, device wide, advanced at completion. -/
  done : Option Nat
  length : Nat
  srcAddr : Word
  remote : Word
  data : List Byte
  deriving DecidableEq, Repr

/-- A publish whose effect-list entry an agent has observed (R316, R317): its tile, its task as gang and rank, and its number
among the task's publishes, which rises from tile to tile. -/
structure Mark where
  tile : TileId
  gang : Nat
  num : Nat
  rank : Nat := 0
  deriving DecidableEq, Repr

/-- A put with its reservation (R280, R286). -/
structure Put where
  part : PartId
  handle : Word
  /-- Class that the handle's slot named when the put issued (R114). -/
  cls : Nat
  /-- Descriptor words w0 to w9 (R279). -/
  desc : List Word
  /-- The VF that reserved the unit. -/
  unitVf : VfId
  /-- The putter's VF, or none for a Steward thread (R277). -/
  putter : Option VfId
  /-- The publishes that carried it, from its application on (R281, R316). -/
  marks : List Mark := []
  deriving DecidableEq, Repr

/-- An entry of the effect list (R138). -/
inductive Effect where
  | put (p : Put)
  | send (s : Send)
  | incr (vf : VfId) (ipa : Nat) (v : Word)
  deriving DecidableEq, Repr

/-- Why a publish was begun (R137). -/
inductive PublishFor where
  | phase | bar | taskEnd
  /-- CKPT, with its live-range table (R142). -/
  | ckpt (table : List Word)
  | release (onM : Bool) (id : Nat)
  deriving DecidableEq, Repr

/-- A publish that has begun (R315). -/
structure Publish where
  why : PublishFor
  /-- Its number among the publishes of its tile. -/
  num : Nat
  /-- Owner of the stores, and the gang and run that published (R126): an abort leaves a publish that has begun. -/
  vf : VfId
  gang : Nat
  rank : Nat := 0
  runs : Nat
  scope : Fin 4
  stores : List Granule
  effects : List Effect
  /-- Ticks since a member first answered retry later (R406). -/
  retryTicks : Option Nat := none
  deriving DecidableEq, Repr

/-- What made a value of a granule old, or carries the write that did: a publish, by the tile and gang that issued it, its
number, its scope and the rank of the task; no issuer stands for an agent other than a task, of the device at scope 2, of the
host or a peer at scope 3 (R313 to R317). -/
structure Over where
  issuer : Option (TileId × Nat)
  num : Nat
  scope : Fin 4
  rank : Nat := 0
  deriving DecidableEq, Repr

/-- A value of the granule at `addr` that a tile's task may still read (R319): what made it old, and the agents to which that
is visible (R317), by `knower`. -/
structure OldValue where
  tile : TileId
  addr : Nat
  bytes : List Byte
  overs : List Over := []
  known : List Nat := []
  deriving DecidableEq, Repr

/-- A leaf translation (R346). -/
structure TlbEntry where
  asid : Nat
  /-- Virtual base and size of the page. -/
  base : Nat
  size : Nat
  r : Bool
  w : Bool
  x : Bool
  ipa : Nat
  deriving DecidableEq, Repr

/-- A table entry or root word that a walker of a die keeps: its ASID, its level (0 for the root word, else the level of R343
plus 1), the number of the range of addresses it covers, and its value (R346). -/
structure KeptEntry where
  die : Fin 4
  asid : Nat
  level : Nat
  range : Nat
  entry : Word
  deriving DecidableEq, Repr

/-- Who makes an access that SEGHOLD may hold (R348): a thread, a stream's fetch, a command of the Porter, the S stream or a
start on a tile, a publish of a tile by its number, a transfer or an outbound send, the landing of a message, or the read of
a card's record. -/
inductive Holder where
  | thread (n : ThreadId)
  | fetch (t : TileId) (s : Stream)
  | command (t : TileId) (id : Nat)
  | scalar (t : TileId)
  | publish (t : TileId) (num : Nat)
  | transfer (id : Nat)
  | landing (id : Nat)
  | card (p : PartId) (slot : Nat)
  deriving DecidableEq, Repr

/-- An access held at the segment row of a VF: its virtual address, or the address by which its agent knows it, what stage 1
gave for it, none where the walk itself is held, and the leaf that gave it (R347 to R350). -/
structure HeldAccess where
  who : Holder
  vf : VfId
  va : Nat
  ipa : Option Nat
  leaf : Option TlbEntry := none
  deriving DecidableEq, Repr

/-- A condition of a WAITV: its place in the mask, its counter and its target (R329). -/
structure WaitCond where
  bit : Nat
  isGlobal : Bool
  loc : Nat
  target : Word
  deriving DecidableEq, Repr

/-- A checkpoint (R131, R142, R143). -/
structure Checkpoint where
  x : Vector Word 64
  pc : Word
  fpcr : Word
  fpsr : List Word
  gens : List Gen
  pegs : Vector Word 16
  qfmt : List Word
  barGen : Nat
  /-- Window bytes saved, by offset. -/
  bytes : List (Nat × Byte)
  acc : List (Fin 16 × AccBlock)
  v : Option (Vector Image 16)
  k : Option (Vector Lane 8)
  /-- The task-start checkpoint, whose x9 rises at each restart (R131). -/
  start : Bool
  deriving DecidableEq, Repr

/-- What the S stream waits for beyond one word's stall. -/
inductive SWait where
  | none
  /-- A publish of PHASE, BAR.P, CKPT or END has begun (R334, R332, R142, R136). -/
  | publish
  /-- Arrived at the next BAR generation, with the scope of its end's acquire (R318, R332). -/
  | bar (sc : Fin 4)
  /-- CKPT's publish is complete, and step 2 is to come: its live-range table (R142). -/
  | ckpt (table : List Word)
  /-- CKPT step 2 is done: what it saved, until every member has done it (R298). -/
  | saved (c : Checkpoint)
  /-- WAITV: destination, .ALL, enabled mask, conditions, time-out and ticks counted (R330). -/
  | waitv (d : XReg) (all : Bool) (mask : Nat) (conds : List WaitCond) (timeout : Nat) (ticks : Nat)
  /-- JOIN (R134), PEGW, WAITC and a full command queue issue their word again; END has issued. -/
  | ended
  deriving DecidableEq, Repr

/-- A debug halt (R118, R119): none, halting (commands still landing), or halted and reported. -/
inductive Debug where
  | none
  | halting (reporter : ThreadId) (cause : Nat) (pc : Word)
  | halted
  deriving DecidableEq, Repr

/-- A trap held while the task is halted: its cause, value, source, pc, and the ac cycle in which its word issued (R111). -/
structure HeldTrap where
  cause : Nat
  val : Word
  src : Nat
  pc : Word
  issued : Nat
  deriving DecidableEq, Repr

/-- A task on a tile: its gang, its rank, and what it carries of its own (R100, R126, R130). -/
structure Task where
  gang : Nat
  rank : Nat
  vf : VfId
  part : PartId
  asid : Nat
  cls : Nat
  key : Word
  /-- Virtual address of the task entry. -/
  entry : Word
  /-- Window size and its base in the scratchpad (R128). -/
  log2 : Nat
  base : Nat
  acc : BitVec 16
  /-- PREQ.PENDING (R104). -/
  preq : Bool
  /-- CYCLE's origin: the die's ac count at the task's start (R103). -/
  startCycle : Nat
  /-- The region holds an irrevocable effect (R139). -/
  irrevocable : Bool
  /-- BAR generations reached (R332). -/
  barGen : Nat
  /-- END has completed (R136). -/
  hasEnded : Bool
  deriving DecidableEq, Repr

/-- A tile (R14 to R17). -/
structure Tile where
  spad : Memory := []
  /-- VF tags of the 4 KiB blocks (R129); an unlisted block names no VF (DESIGN CHOICE, log 2). -/
  tags : Table VfId := []
  acc : Vector AccBlock 16 := Vector.replicate 16 (Vector.replicate 8192 0)
  x : Vector Word 64 := Vector.replicate 64 0
  v : Vector Image 16 := Vector.replicate 16 (Vector.replicate 1024 0)
  k : Vector Lane 8 := Vector.replicate 8 0
  /-- Live bypass results, newest first, at most 3 (R169, R170). -/
  bypass : List Image := []
  vloops : List VLoop := []
  s : StreamCtx := {}
  vs : StreamCtx := {}
  m : StreamCtx := {}
  a : StreamCtx := {}
  ssa : Lane := 0x3F800000
  ssb : Lane := 0x3F800000
  pegs : Vector Word 16 := Vector.replicate 16 0
  queues : Vector Queue 4 := Vector.replicate 4 {}
  cmdsM : List Cmd := []
  cmdsA : List Cmd := []
  /-- Publish buffer and effect list of the phase (R138). -/
  stores : List Granule := []
  effects : List Effect := []
  publishes : List Publish := []
  /-- Publishes begun so far, to number them. -/
  pubs : Nat := 0
  tlb : List TlbEntry := []
  sWait : SWait := .none
  task : Option Task := none
  debug : Debug := .none
  heldTrap : Option HeldTrap := none
  /-- Publishes whose entries the task has observed (R316, R317). -/
  observed : List Mark := []
  deriving DecidableEq, Repr

/-- An event for a thread: its summary word, its 128-byte record, and what its handling completes (R381, R384). -/
structure Event where
  summary : Word
  record : List Word
  /-- JQ entry whose work EVDONE completes (R283). -/
  entry : Option Nat := none
  /-- VF whose undelivered fault record this is (R113). -/
  faultVf : Option VfId := none
  /-- Partition whose pager record this is (R351). -/
  pagerOf : Option PartId := none
  /-- VF whose launch packet this is (R410). -/
  launchVf : Option VfId := none
  /-- Publishes whose puts made its entry (R281). -/
  marks : List Mark := []
  deriving DecidableEq, Repr

/-- What a thread waits for beyond one word's stall. -/
inductive ThreadWait where
  | none
  /-- EVGET parks: destination and the EVGET's pc (R383). -/
  | evget (d : XReg)
  /-- TLBI runs: kind 0 .VA, 1 .ASID, 2 .ALL, with its address and ASID (R347). -/
  | tlbi (kind : Nat) (va : Word) (asid : Nat)
  /-- SEGHOLD runs (R348). -/
  | seghold (v : VfId)
  deriving DecidableEq, Repr

/-- One trap register set, of the Steward or the Keeper level (R104). -/
structure TrapRegs where
  tstat : Word := 0
  tepc : Word := 0
  tcause : Word := 0
  tval : Word := 0
  tvec : Word := 0
  deriving DecidableEq, Repr

/-- An Innkeeper thread (R101). Before its release a thread is held and its registers hold 0 (DESIGN CHOICE, log 3). VFSTAT,
PARTSTAT, DBGSEL and DBGSTAT are one register for each thread, though R101's context does not list them (DESIGN CHOICE,
log 70). -/
structure Thread where
  x : Vector Word 64 := Vector.replicate 64 0
  /-- Byte offset into the code region or the firmware image (R378). -/
  pc : Word := 0
  level : Nat := 0
  home : Nat := 0
  held : Bool := true
  fpcr : Word := 0
  fpsr : Word := 0
  gen : Gen := {}
  /-- Core-local store (R377). -/
  store : Memory := []
  steward : TrapRegs := {}
  keeper : TrapRegs := {}
  vfstat : Word := 0
  partstat : Word := 0
  dbgsel : Word := 0
  dbgErr : Bool := false
  /-- At most 256 events; the rest stands in `waiting` at the sources (R382). -/
  queue : List Event := []
  waiting : List Event := []
  /-- The active handler's event (R380). -/
  handler : Option Event := none
  wait : ThreadWait := .none
  /-- An access of the thread is held by SEGHOLD (R348, R380). -/
  heldAccess : Bool := false
  /-- Address and destination of the EVGET that began the handler (R116). -/
  evgetPc : Option Word := none
  evgetReg : XReg := 0
  watchdog : Nat := 0
  /-- Innkeeper cycle of the handler's EVGET (R103). -/
  startCycle : Nat := 0
  /-- Port cycle in which the thread's last request at the JQ port was dealt with (R293). -/
  dealt : Option Nat := none
  deriving DecidableEq, Repr

/-- A class record as installed (R265), with its frozen bit. -/
structure JqClass where
  vf : VfId
  asid : Nat
  target : Nat
  gang : Nat
  thread : Nat
  nbuck : Nat
  buckPayload : Bool
  expert : Bool
  prio : Nat
  op : Nat
  entry : Word
  acc : BitVec 16
  wlog2 : Nat
  seed : BitVec 32
  qfmt : List Word
  /-- Buckets: UP and DELTA. -/
  buckets : List (Nat × Int)
  frozen : Bool := false
  deriving DecidableEq, Repr

/-- A slot of a partition's handle table (R276). A free slot has no rights and no class. -/
structure HandleSlot where
  gen : Nat
  used : Bool
  cls : Nat
  clsGen : Nat
  rights : Nat
  vf : VfId
  deriving DecidableEq, Repr

/-- The states of a JQ entry (R268). -/
inductive EntryState where
  | free | waiting | ready | selected | dispatched | parked | held | faulted
  deriving DecidableEq, Repr

/-- A JQ entry (R267). A FREE entry is not listed. -/
structure JqEntry where
  part : PartId
  cls : Nat
  key : Word
  payload : BitVec 512
  state : EntryState
  prio : Nat
  folds : Nat
  ovf : Bool
  /-- Port cycle of the creating put, and its place in fold order. -/
  age : Nat
  place : Nat
  /-- Reference tick at which it last became READY, and the ticks counted since for aging (R282). -/
  readyTick : Nat
  aged : Nat
  /-- The VF that holds its unit (R286). -/
  unitVf : VfId
  /-- Created by a booking's LAUNCH: never matchable (R268), with its placement: tile, offset, LEN (R401). -/
  launched : Bool
  placeTile : Option (TileId × Nat × Nat)
  /-- Lodging entry whose pin it holds (R359). -/
  pin : Option Nat
  /-- Back-off: its length and the ticks still to wait (R366). -/
  backoff : Nat
  backoffLeft : Nat
  /-- Card slot it holds (R302, R305). -/
  card : Option Nat
  /-- Ticks it has not been placeable (R308). -/
  unplaced : Nat
  /-- Publishes that carried its puts (R281). -/
  marks : List Mark := []
  /-- Its place in the order in which entries were created (R292). -/
  made : Nat := 0
  deriving DecidableEq, Repr

/-- A put, a booking's launch or a re-entry that waits for the match phase, with its source rank (R274). -/
inductive PortWork where
  | put (p : Put)
  | launch (part : PartId) (vf : VfId) (cls : Nat) (key : Word) (payload : BitVec 512)
      (place : Option (TileId × Nat × Nat))
  | reentry (entry : Nat)
  deriving DecidableEq, Repr

/-- An arrival at the JQ port: arrival cycle, rank, number within the source, order within it (R274). -/
structure Arrival where
  cycle : Nat
  rank : Nat
  source : Nat
  order : Nat
  work : PortWork
  /-- Publishes whose increments made the booking's counter fire (R316). -/
  marks : List Mark := []
  deriving DecidableEq, Repr

/-- A card in a slot: its entry, its record, and what has been dealt (R301 to R305). -/
structure Card where
  entry : Nat
  /-- Virtual address of the record. -/
  addr : Word
  /-- The record has been read. -/
  ready : Bool
  words : List Word
  /-- First record not yet dealt. -/
  next : Nat
  /-- Faulted chunks to deal again: first record and count. -/
  redeal : List (Nat × Nat)
  /-- Chunk gangs not yet complete. -/
  live : List Nat
  /-- A chunk faulted: dealing has stopped. -/
  stopped : Bool
  /-- Page the record read waits on, and its ticks (R302). -/
  pageWait : Option (Nat × Nat)
  pageTicks : Nat
  /-- Ticks counted for aging since the activation or the last deal (R306). -/
  aged : Nat
  unplaced : Nat
  /-- Bucket index of its entry (R130, R283). -/
  bucket : Nat
  /-- Port cycle in which its dispatcher last activated it (R311). -/
  activeAt : Option Nat := none
  deriving DecidableEq, Repr

/-- The life of a gang (R126, R296, R299). -/
inductive GangState where
  /-- Placed on its tiles; its streams have not started. -/
  | placed
  | running
  /-- Aborted; its effects are being discarded, and it is requeued afterwards. -/
  | aborting
  /-- Held by a dispatcher. -/
  | queued
  deriving DecidableEq, Repr

/-- A gang and everything its members' starts need (R130, R283, R295 to R299, R304). -/
structure Gang where
  state : GangState
  part : PartId
  vf : VfId
  cls : Nat
  asid : Nat
  key : Word
  entryAddr : Word
  log2 : Nat
  acc : BitVec 16
  seed : BitVec 32
  qfmt : List Word
  size : Nat
  /-- Tiles by rank while it is on tiles. -/
  tiles : List TileId
  /-- The JQ entry that supplies it, and for a chunk the card slot, first record and count. -/
  entry : Nat
  chunk : Option (Nat × Nat × Nat)
  /-- Argument bytes to read at the start (R304): none for payload or booking placement. -/
  argAddr : Option (Word × Nat)
  args : List Byte
  x2 : Word
  x3 : Word
  x4 : Word
  x6 : Word
  x10 : Word
  /-- A booking's launch: its tile and window offset (R401). -/
  onTile : Option (TileId × Nat)
  /-- Times dispatched, and by rank the RESUMEs of the member's halts: each is a move to RUNNING (R126). -/
  runs : Nat
  resumes : Table Nat := []
  /-- Common checkpoints by rank; empty before the first start (R131, R298). -/
  ckpts : List Checkpoint
  prio : Nat
  age : Nat
  place : Nat
  aged : Nat
  unplaced : Nat
  /-- Page it waits on (ASID, 64 KiB page) and the ticks since the abort (R351, R352). -/
  pageWait : Option (Nat × Nat)
  pageTicks : Nat
  /-- Pre-emption requested, and the fallback's ticks (R146, R310). -/
  preq : Bool
  preqTicks : Nat
  /-- Port cycle in which its dispatcher last placed it (R123, R311). -/
  placedAt : Option Nat := none
  deriving DecidableEq, Repr

/-- A virtual function (R96, R99, R409). Fields without a reset value hold 0 (DESIGN CHOICE, log 3). -/
structure Vf where
  /-- 0 ABSENT, 1 CREATED, 2 READY, 3 FROZEN, 4 TEARING (R99). -/
  state : Nat := 0
  part : PartId := 0
  segBase : Nat := 0
  segSize : Nat := 0
  jqGuar : Nat := 0
  jqBurst : Nat := 0
  frGuar : Nat := 0
  frBurst : Nat := 0
  asidFirst : Nat := 0
  asidCount : Nat := 0
  faultThr : Nat := 0
  weight : Nat := 0
  gtFirst : Nat := 0
  gtCount : Nat := 0
  vtick : Nat := 0
  /-- Segment held by SEGHOLD (R348). -/
  segHeld : Bool := false
  /-- IPA of the pool region (R342, R356). -/
  pool : Option Nat := none
  cFirst : Nat := 0
  cCount : Nat := 0
  winIpa : Nat := 0
  winEn : Bool := false
  bFirst : Nat := 0
  bCount : Nat := 0
  purlinKey : Nat := 0
  hostThr : Nat := 0
  lastSeq : BitVec 32 := 0
  cplBase : Word := 0
  cplLog2 : Nat := 0
  cplHead : Word := 0
  cplNext : Word := 1
  msix : Word := 0
  /-- Completion entries that wait for room (R411). -/
  cplWaiting : List (List Word) := []
  /-- Launch packets accepted and not complete (R410). -/
  launches : Nat := 0
  /-- Accepted packets whose message a freeze abandoned: they are matched again at UNFREEZE (R414, R416). -/
  relaunch : List Msg := []
  /-- Launches discarded by tear-down (R122). -/
  discarded : Nat := 0
  /-- Undelivered fault records (R113). -/
  faults : Nat := 0
  /-- Breakpoints armed: the reporter (R119). -/
  breakpoints : Option ThreadId := none
  attNonce : BitVec 256 := 0
  attAddr : Word := 0
  attDone : Bool := false
  /-- The report being built (R427). -/
  attReport : Option (List Byte) := none
  mr4 : BitVec 256 := 0
  /-- A FREEZE or TEAR in progress and the device-wide counter it advances (R99, R104). -/
  freezeCtr : Option (Option Nat) := none
  tearCtr : Option (Option Nat) := none
  /-- The thread whose VFSTAT reports the command. -/
  cmdThread : Option ThreadId := none
  /-- Innkeeper cycle in which READYCTL made it READY (R419). -/
  readyAt : Option Nat := none
  deriving DecidableEq, Repr

/-- A partition (R94). -/
structure Partition where
  /-- 0 ABSENT, 1 ACTIVE, 2 FAULTED (R104). -/
  state : Nat := 0
  bays : BitVec 64 := 0
  carveBase : Nat := 0
  carveSize : Nat := 0
  loanBase : Nat := 0
  loanSize : Nat := 0
  jqShare : Nat := 0
  thrFirst : Nat := 0
  thrCount : Nat := 0
  stewCount : Nat := 0
  vfFirst : Nat := 0
  vfCount : Nat := 0
  ctrShare : Nat := 0
  bkShare : Nat := 0
  lodgeShare : Nat := 0
  parlShare : Nat := 0
  /-- First counter of its share (R385): that of the lowest free run (DESIGN CHOICE, log 16). -/
  ctrFirst : Nat := 0
  /-- Its bookings, as runs of device-wide numbers: the lowest free ones (R94, R396; DESIGN CHOICE, log 16). -/
  bkRuns : List (Nat × Nat) := []
  codeBase : Nat := 0
  codeSize : Nat := 0
  grpBase : Nat := 0
  /-- Tier window: CXL base, size, port mask (R369). -/
  tierBase : Nat := 0
  tierSize : Nat := 0
  tierPorts : BitVec 8 := 0
  /-- Statistics block w0 to w7 (R368). -/
  stats : Vector Word 8 := Vector.replicate 8 0
  /-- Installed classes and class generations (R264, R266). -/
  classes : Table JqClass := []
  clsGens : Table Nat := []
  handles : Table HandleSlot := []
  /-- Endpoint slot words, at 4 x slot + word (R386). -/
  endpoints : Table Word := []
  cards : Table Card := []
  /-- Deficits at 128 x priority + VF, and pointers by priority (R307). -/
  deficits : Table Nat := []
  pointers : Table Nat := []
  /-- The hold: its item and die (R308). -/
  hold : Option (ItemId × Nat) := none
  spillBase : Nat := 0
  spillSize : Nat := 0
  spillHead : Nat := 0
  spillCount : Nat := 0
  /-- Undelivered pager records (R351). -/
  pagerRecords : Nat := 0
  mr2 : BitVec 256 := 0
  mr3 : BitVec 256 := 0
  /-- PARTCTL DELETE in progress, and the counter it advances (R125). -/
  deleting : Option (Option Nat) := none
  deleteThread : Option ThreadId := none
  deriving DecidableEq, Repr

/-- A Lodging entry (R354), with its Parlour list (R364). -/
structure Lodging where
  part : PartId
  vf : VfId
  expert : Nat
  vbase : Nat
  length : Nat
  /-- 0 ABSENT, 1 ARRIVING, 2 RESIDENT, 3 EVICTING. -/
  state : Nat
  /-- IPAs of its frames, in ascending VA order. -/
  frames : List Nat
  /-- CXL, or NVMe with port, namespace and first LBA. -/
  nvme : Bool
  port : Nat
  nsid : Nat
  loc : Word
  pin : Nat
  last : Nat
  notify : Option ThreadId
  /-- Frames have been taken and the fetch runs; how many of its transfers have been asked for (R361). -/
  fetching : Bool
  issued : Nat
  /-- A fetch starts when an eviction ends (R357). -/
  wanted : Bool
  /-- REMOVE frees the entry when it is ABSENT (R356). -/
  removing : Bool
  /-- JQ entries parked on it, in park order (R364). -/
  parlour : List Nat
  deriving DecidableEq, Repr

/-- An armed booking (R396). Numbers are device wide. -/
structure Booking where
  part : Option PartId
  /-- The record's words w0 to w17, as armed. -/
  words : List Word
  /-- The current THRESHOLD: it rises by PERIOD at each fire and is not reduced (R401, log 22). -/
  threshold : Nat
  /-- Owning VF; none for a level booking (R393). -/
  vf : Option VfId
  ctr : Nat
  /-- Binding order counted from 0 since arming (R399). -/
  bound : Nat
  /-- Which arming this is: messages bound earlier finish under the old record (R398). -/
  arm : Nat
  armed : Bool
  deriving DecidableEq, Repr

/-- A message bound to a booking and not complete (R397, R400), with the record it was bound under (R398). -/
structure InMessage where
  /-- Delivery context and message number, or the host link for none. -/
  context : Option (Nat × Nat × Bool)
  vf : VfId
  booking : Nat
  arm : Nat
  words : List Word
  ctr : Nat
  kind : MsgKind
  slot : Nat
  tag : Word
  order : Nat
  offset : Nat
  total : Nat
  received : Nat
  placed : Nat
  /-- Launch packet: inline bytes, or an EXT address (R410). -/
  launch : Bool
  ext : Option Word
  data : List Byte
  /-- The response of an RMA read (R399). -/
  response : List Byte
  /-- The launch packet that it came as (R410). -/
  packet : Option Msg := none
  deriving DecidableEq, Repr

/-- A packet of a SEND (R388, R391). -/
structure OutPacket where
  /-- It has left the device at least once. -/
  sent : Bool := false
  /-- Unacknowledged tries of this round, and the ticks since the first (R391). -/
  tries : Nat := 0
  ticks : Nat := 0
  /-- A retry-later answer waits out this back-off, in ticks (R391). -/
  backoff : Option Nat := none
  /-- Length of the last back-off (R391). -/
  backoffLen : Nat := 0
  /-- The peer's answer to the last try: 0 none or acknowledgement, 1 retry later, else a refusal (R390). -/
  answer : Nat := 0
  /-- The receiver has acknowledged it, or a read's response has landed (R389). -/
  acked : Bool := false
  /-- Its bytes, as they stood when it first left (R403). -/
  bytes : List Byte := []
  /-- The port by which it last left (R388, R405). -/
  port : Option Nat := none
  deriving DecidableEq, Repr

/-- An accepted SEND to a peer that is not complete, with its packets in order (R388, R391, R403). -/
structure OutSend where
  send : Send
  packets : List OutPacket
  /-- Bytes of a read's response that have landed (R389). -/
  got : Nat := 0
  deriving DecidableEq, Repr

/-- Why a transfer runs (R353, R361, R372, R404, R122, R341). -/
inductive DroverKind where
  /-- Copy for a thread or a booking. -/
  | copy
  /-- Transfer `i` of a Lodging entry's fetch (R361). -/
  | fetch (entry i : Nat)
  /-- The next frame of a snapshot's image (R372, R374). -/
  | save (sc : SnapScope)
  /-- Zeroing of a loan frame whose tag changed. -/
  | frame (n : Nat)
  /-- Export or import of a frozen VF's state (R415). -/
  | exportState (v : VfId)
  | importState (v : VfId)
  deriving DecidableEq, Repr

/-- A request for a Drover engine or an NVMe queue pair (R353). Addresses are physical, or IPAs of a VF. -/
structure Drover where
  kind : DroverKind
  /-- The partition that asks; none for the Keeper. -/
  part : Option PartId
  /-- 0 for the 16 Drovers, p + 1 for the queue pairs of flash port p. -/
  pool : Nat
  /-- The engine, or the place in the port's queue pairs, that serves it; none while it waits. -/
  unit : Option Nat
  /-- Bytes that have landed. -/
  pos : Nat
  /-- VF in whose intermediate space the addresses lie; none for physical addresses. -/
  vf : Option VfId
  src : Nat
  dst : Nat
  length : Nat
  done : Option Nat
  /-- Event sent at completion, its status then set. -/
  notify : Option (ThreadId × Event)
  deriving DecidableEq, Repr

/-- A timer request (R404). -/
structure Timer where
  thread : ThreadId
  left : Nat
  cookie : Word
  deriving DecidableEq, Repr

/-- A snapshot that runs (R370 to R375). -/
structure Snapshot where
  scope : SnapScope
  thread : ThreadId
  cookie : Word
  ctr : Nat
  /-- NOTIFY and DONE of the SEND that started it (R402). -/
  notify : Option ThreadId
  done : Option Nat
  nvme : Bool
  ports : BitVec 8
  loc : Word
  nsid : Nat
  /-- The cut: the image's frames still to save, each with its place in the image, and the bytes of the cut, to which its
  writes that apply later are added. -/
  cut : Bool
  frames : List (Nat × Nat)
  header : List Byte
  image : Memory
  /-- The ranges of memory that the image holds, ascending (R370). -/
  ranges : List (Nat × Nat) := []
  /-- Frames still to save that a write waits for: they are saved first (R372). -/
  wanted : List Nat := []
  /-- Publishes and bound messages that the cut holds whole (R371). -/
  pubs : List (TileId × Nat)
  msgs : List Nat
  deriving DecidableEq, Repr

/-- An NVMe admin command that waits (R413). -/
structure NvmeCmd where
  port : Fin 8
  cmd : Msg
  notify : Option ThreadId
  cookie : Word
  done : Option Nat
  deriving DecidableEq, Repr

/-- The package's power and boot phase (R422, R424, R425, R430). -/
inductive Power where
  | off | heldInReset | bootPending | recovery | booted
  deriving DecidableEq, Repr

/-- The clock of a compute die: its rate, the ac cycles counted, and the part of a cycle that has passed (R431). -/
structure DieClock where
  mhz : Nat := 800
  ac : Nat := 0
  frac : Nat := 0
  deriving DecidableEq, Repr

/-- An answer to a packet or a request from outside (R388 to R390, R406). -/
inductive Reply where
  | ack | retryLater | unknownEndpoint | noMatch | unsupported | refused
  deriving DecidableEq, Repr

/-- What the device has sent out and nobody has collected: the model's own record of its answers (log 64). -/
inductive WireOut where
  /-- The answer to a packet, by delivery context and sequence number. -/
  | packet (context seqNo : Nat) (purlin : Bool) (a : Reply)
  /-- The answer to a Purlin request, with the bytes of a read. -/
  | purlin (a : Reply) (bytes : List Byte)
  /-- An MSI-X interrupt of a VF (R409). -/
  | interrupt (v : VfId) (vector : Nat)
  /-- The value of a register read by the host. -/
  | hostValue (vf : Option VfId) (off : Nat) (w : Word)
  deriving DecidableEq, Repr

/-- A flash write in progress: the bytes still to write (R423). -/
structure FlashWrite where
  offset : Nat
  bytes : List Byte
  deriving DecidableEq, Repr

/-- The machine. -/
structure State where
  /-- Turns still to come, the agent in turn, the count of free values, the creation order: the model's own (log 4, 6). -/
  agenda : List Turn := []
  cur : Agent := .thread 0
  freeCtr : Nat := 0
  seq : Nat := 0
  /-- Innkeeper cycles (R6) and port cycles (R432) since reset. -/
  ik : Nat := 0
  portCycle : Nat := 0
  /-- The dispatchers have selected in the present port cycle (R274). -/
  selected : Bool := false
  dies : Vector DieClock 4 := Vector.replicate 4 {}
  /-- Power limit in W (R431): 2400 (DESIGN CHOICE, log 5). -/
  powerLimit : Nat := 2400
  /-- What the package draws, in W (DESIGN CHOICE, log 5). -/
  drawn : Nat := 0
  power : Power := .bootPending
  flash : Memory := []
  /-- Flash writes that have begun, oldest first (R423, R424). -/
  flashWrites : List FlashWrite := []
  /-- Booted slot (true for B) and the SEQ of its marker, 0 after a fallback boot (R427). -/
  bootSlot : Bool := false
  bootSeq : Word := 0
  /-- Body of the booted image, which Keeper threads fetch (R378, R425). -/
  firmware : Memory := []
  firmwareSize : Nat := 0
  mr0 : BitVec 256 := 0
  mr1 : BitVec 256 := 0
  /-- HBM, CXL and host memory by physical address (R339). -/
  mem : Memory := []
  /-- Older values that tasks may still read, in coherence order (R314, R319). -/
  olds : List OldValue := []
  /-- Publishes that have incremented a counter: in a word of memory, by its address over 8, or an arrival counter, at 2^60
  plus its number (R316, R317). -/
  marks : Table (List Mark) := []
  /-- Accesses held at a segment row, in the order of their arrival there (R349). -/
  holds : List HeldAccess := []
  /-- What the walkers keep (R346). -/
  kept : List KeptEntry := []
  /-- Owner tags by HBM frame, and frames whose zeroing runs (R341). -/
  owners : Table (BitVec 8) := []
  zeroing : List Nat := []
  /-- NVMe namespace bytes, keyed by port, namespace and byte address (R413). -/
  nvme : Memory := []
  /-- LBA size and number of LBAs of the drives' namespaces, at 2^32 x port + NSID (R361, R370, R413). -/
  namespaces : Table (Nat × Nat) := []
  scrubFixed : Word := 0
  scrubLost : Word := 0
  /-- HBM granules with an error that ECC cannot correct, by number (R428). -/
  bad : List Nat := []
  tiles : Vector Tile 256 := Vector.replicate 256 {}
  threads : Vector Thread 1024 := Vector.replicate 1024 {}
  parts : Vector Partition 40 := Vector.replicate 40 {}
  vfs : Vector Vf 128 := Vector.replicate 128 {}
  gangs : Table Gang := []
  entries : Table JqEntry := []
  /-- Reservations not yet turned into entries, one VF each (R286). -/
  reserved : List VfId := []
  arrivals : List Arrival := []
  counters : Table Word := []
  /-- Changes of a FROZEN VF's counters, held in order until UNFREEZE (R414 to R416). -/
  heldCounts : List (Nat × Word) := []
  /-- How far the booking unit has come in the Innkeeper cycle (R400, log 65). -/
  bookPos : Nat := 0
  bookings : Table Booking := []
  lodging : Table Lodging := []
  drovers : Table Drover := []
  /-- The partition served last, by 3 x pool + class of request (R353). -/
  lastServed : Table Nat := []
  /-- CXL decoders (R339, R412). -/
  decoders : List Decoder := []
  timers : Table Timer := []
  snapshots : List Snapshot := []
  inbound : Table InMessage := []
  /-- Accepted packets: context, sequence number and message (R389). -/
  accepted : List (Nat × Nat × Nat) := []
  /-- Delivery contexts in use, with the partition whose share they take (R388). -/
  contexts : Table PartId := []
  outbound : Table OutSend := []
  nvmeAdmin : List NvmeCmd := []
  /-- Link state: ports that are down, as kind and number (log 3: every port is up at reset). -/
  linksDown : List (PortKind × Nat) := []
  /-- Innkeeper cycle in which a Purlin port last went down (R408). -/
  downAt : Table Nat := []
  /-- Ethernet packets dropped and counted (R388). -/
  dropped : Nat := 0
  purlinId : Nat := 0
  routes : Table (BitVec 8) := []
  /-- The PF's READYCTL.STATE (R418, R425). -/
  pfState : Nat := 0
  /-- Peers' memories: keyed by device, VF and IPA (R406). -/
  peers : Memory := []
  /-- Answers that have left the device, oldest first (log 64). -/
  wire : List WireOut := []
  deriving DecidableEq, Repr

/-- The machine right after device reset: every field at its default. -/
def State.reset : State := {}

end Sys2Proof.Machine
end

