-- ==== Sys2Proof/Machine/Ops.lean ====
section
/-! DEFINITION. The named operations that instructions share: registers, program counters, events, fault records,
stopping a gang, and taking a trap. -/

namespace Sys2Proof.Machine

/-- What a meaning answers. -/
abbrev Result := Host.Outcome State Fault Refusal

/-- Cause codes (R108). -/
def causeIllegal : Nat := 0x01
def causePrivilege : Nat := 0x02
def causeStack : Nat := 0x03
def causeShape : Nat := 0x04
def causeReserved : Nat := 0x05
def causeInvalid : Nat := 0x06
def causeAbsent : Nat := 0x07
def causePermission : Nat := 0x08
def causeSegment : Nat := 0x09
def causeUnderflow : Nat := 0x0A
def causeRights : Nat := 0x0B
def causePublishFull : Nat := 0x0C
def causeRedundant : Nat := 0x0D
def causeWatchdog : Nat := 0x0E
def causeNonrestartable : Nat := 0x0F
def causeMisaligned : Nat := 0x10
def causeQueueFormat : Nat := 0x11
def causeEcc : Nat := 0x12
def causeBreakpoint : Nat := 0x13
def causeHalt : Nat := 0x14

/-! ### Objects of the state -/

def tileOf (s : State) (t : TileId) : Tile := vget s.tiles t
def setTile (s : State) (t : TileId) (T : Tile) : State := { s with tiles := vset s.tiles t T }
def modTile (s : State) (t : TileId) (f : Tile → Tile) : State := setTile s t (f (tileOf s t))
def thrOf (s : State) (n : ThreadId) : Thread := vget s.threads n
def setThr (s : State) (n : ThreadId) (h : Thread) : State := { s with threads := vset s.threads n h }
def modThr (s : State) (n : ThreadId) (f : Thread → Thread) : State := setThr s n (f (thrOf s n))
def partOf (s : State) (p : PartId) : Partition := vget s.parts p
def setPart (s : State) (p : PartId) (q : Partition) : State := { s with parts := vset s.parts p q }
def modPart (s : State) (p : PartId) (f : Partition → Partition) : State := setPart s p (f (partOf s p))
def vfOf (s : State) (v : VfId) : Vf := vget s.vfs v
def setVf (s : State) (v : VfId) (f : Vf) : State := { s with vfs := vset s.vfs v f }
def modVf (s : State) (v : VfId) (f : Vf → Vf) : State := setVf s v (f (vfOf s v))

/-- Every number below `n`, ascending. -/
def allFin (n : Nat) [NeZero n] : List (Fin n) := (List.range n).map (Fin.ofNat n)

/-- A stream of a tile. -/
def strm (T : Tile) : Stream → StreamCtx
  | .S => T.s
  | .V => T.vs
  | .M => T.m
  | .A => T.a

def setStrm (T : Tile) (st : Stream) (c : StreamCtx) : Tile :=
  match st with
  | .S => { T with s := c }
  | .V => { T with vs := c }
  | .M => { T with m := c }
  | .A => { T with a := c }

def modStrm (T : Tile) (st : Stream) (f : StreamCtx → StreamCtx) : Tile := setStrm T st (f (strm T st))

/-! ### x registers (R58) -/

/-- Read an x register: x0 reads 0. -/
def xget (v : Vector Word 64) (r : XReg) : Word := if r = 0 then 0 else vget v r
/-- Write an x register: a write to x0 is ignored. -/
def xset (v : Vector Word 64) (r : XReg) (w : Word) : Vector Word 64 := if r = 0 then v else vset v r w

/-- The x registers of the agent in turn. -/
def rx (s : State) (r : XReg) : Word :=
  match s.cur with
  | .tile t _ => xget (tileOf s t).x r
  | .thread n => xget (thrOf s n).x r

def wx (s : State) (r : XReg) (w : Word) : State :=
  match s.cur with
  | .tile t _ => modTile s t fun T => { T with x := xset T.x r w }
  | .thread n => modThr s n fun h => { h with x := xset h.x r w }

/-! ### Program counters -/

/-- The address of the word in turn (R57). -/
def pcOf (s : State) : Word :=
  match s.cur with
  | .tile t st => (strm (tileOf s t) st).pc
  | .thread n => (thrOf s n).pc

def setPc (s : State) (w : Word) : State :=
  match s.cur with
  | .tile t st => modTile s t fun T => modStrm T st fun c => { c with pc := w }
  | .thread n => modThr s n fun h => { h with pc := w }

/-- Go on `n` bytes after the word in turn. -/
def advance (s : State) (n : Nat) : State := setPc s (pcOf s + word n)

/-- The word completes and the next one follows: 4 bytes on for S-ISA and V-ISA words. -/
def done4 (s : State) : Result := .next (advance s 4)
/-- The same for engine words, 2 bytes. -/
def done2 (s : State) : Result := .next (advance s 2)

/-! ### Time -/

/-- Reference ticks since reset: one for each 16 Innkeeper cycles (R6). -/
def tickOf (s : State) : Nat := s.ik / 16
/-- The compute die of a tile (R14). -/
def dieOf (t : TileId) : Fin 4 := Fin.ofNat 4 (t.val / 64)
/-- ac cycles of a tile's die. -/
def acOf (s : State) (t : TileId) : Nat := (vget s.dies (dieOf t)).ac

/-- A fresh number for a free value (log 6). -/
def fresh (s : State) : Nat × State := (s.freeCtr, { s with freeCtr := s.freeCtr + 1 })
/-- The next place in creation order (log 4). -/
def nextSeq (s : State) : Nat × State := (s.seq, { s with seq := s.seq + 1 })

/-! ### Who owns what (R92 to R98) -/

/-- The partition whose range holds a thread (R93). -/
def partOfThread (s : State) (n : ThreadId) : Option PartId :=
  (allFin 40).find? fun p =>
    let q := partOf s p
    decide (q.state ≠ 0 ∧ q.thrFirst ≤ n.val ∧ n.val < q.thrFirst + q.thrCount)

/-- The VF that has claimed a Guest thread (R93, R96). -/
def vfOfThread (s : State) (n : ThreadId) : Option VfId :=
  (allFin 128).find? fun v =>
    let f := vfOf s v
    decide (f.state ≠ 0 ∧ f.gtFirst ≤ n.val ∧ n.val < f.gtFirst + f.gtCount)

/-- The partition whose VF range holds a VF number (R95). -/
def partOfVf (s : State) (v : VfId) : Option PartId :=
  (allFin 40).find? fun p =>
    let q := partOf s p
    decide (q.state ≠ 0 ∧ q.vfFirst ≤ v.val ∧ v.val < q.vfFirst + q.vfCount)

/-- The VF that owns a live ASID (R97). -/
def vfOfAsid (s : State) (a : Nat) : Option VfId :=
  (allFin 128).find? fun v =>
    let f := vfOf s v
    decide (f.state ≠ 0 ∧ f.asidFirst ≤ a ∧ a ≤ f.asidFirst + f.asidCount)

/-- The tile lies in a bay of the partition (R14, R93). -/
def tileInPart (q : Partition) (t : TileId) : Bool := q.bays.getLsbD (t.val / 4)

/-- A thread's current level (R98). -/
def levelOf (s : State) (n : ThreadId) : Nat := (thrOf s n).level

/-- The partition's first Steward thread (R94). -/
def firstSteward (s : State) (p : PartId) : ThreadId := Fin.ofNat 1024 (partOf s p).thrFirst

/-- The thread is a Steward thread of the partition: at home in level 1 (R93). -/
def isStewardOf (s : State) (p : PartId) (n : ThreadId) : Bool :=
  let q := partOf s p
  decide (q.state ≠ 0 ∧ q.thrFirst ≤ n.val ∧ n.val < q.thrFirst + q.stewCount)

/-- Threads 0 to 15 are the Keeper's (R93). -/
def isKeeper (n : ThreadId) : Bool := decide (n.val < 16)

/-! ### Events (R381, R382) -/

/-- An event's summary word (R381). -/
def summaryWord (type status vf info : Nat) : Word :=
  word (type + status * 2 ^ 8 + vf * 2 ^ 16 + info * 2 ^ 32)

/-- A Guest thread that belongs to no VF: it receives no event (R93). -/
def unclaimed (s : State) (n : ThreadId) : Bool :=
  match partOfThread s n with
  | some p => !isStewardOf s p n && (vfOfThread s n).isNone
  | none => false

/-- Send an event: it joins the thread's queue, or waits at its source while 256 stand there. -/
def sendEvent (s : State) (n : ThreadId) (e : Event) : State :=
  if unclaimed s n then s
  else modThr s n fun h =>
    if h.queue.length < 256 ∧ h.waiting = [] then { h with queue := h.queue ++ [e] }
    else { h with waiting := h.waiting ++ [e] }

/-- A record of words, padded with 0 to 16 words. -/
def pad16 (ws : List Word) : List Word := (ws ++ List.replicate 16 0).take 16

/-- The fault record of R112. -/
def faultRecord (s : State) (tile thread double frozen src orig cause : Nat) (pc val : Word)
    (part asid vf cls : Nat) (key : Word) (runs : Nat) : List Word :=
  [word (tile * 2 ^ 48 + thread * 2 ^ 32 + double * 2 ^ 20 + frozen * 2 ^ 19 + src * 2 ^ 16 + orig * 2 ^ 8 + cause),
   pc, val, word (part * 2 ^ 32 + asid * 2 ^ 24 + vf * 2 ^ 16 + cls), key, word (runs % 2 ^ 32), word (tickOf s), 0]

/-- A FAULT_RECORD event (R381). -/
def faultEvent (r : List Word) (vf : Nat) : Event :=
  { summary := summaryWord 3 0 vf (bfld (recw r 0) 7 0), record := pad16 r }

/-- Deliver a fault record to the VF's FAULTTHR and count it as undelivered (R110, R113). -/
def sendVfFault (s : State) (v : VfId) (r : List Word) : State :=
  let thr : ThreadId := Fin.ofNat 1024 (vfOf s v).faultThr
  sendEvent (modVf s v fun f => { f with faults := f.faults + 1 }) thr
    { faultEvent r v.val with faultVf := some v }

/-! ### JQ entries and classes: the parts that traps need -/

/-- Freeze a class (R110, R287). -/
def freezeClass (s : State) (p : PartId) (c : Nat) : State :=
  modPart s p fun q => { q with classes := tmod q.classes c fun r => { r with frozen := true } }

/-- A pin falls (R359). -/
def unpin (s : State) (pin : Option Nat) : State :=
  match pin with
  | none => s
  | some l => { s with lodging := tmod s.lodging l fun e => { e with pin := e.pin - 1 } }

/-- An entry becomes FREE: its unit returns, its pin falls and its card's slot is freed (R268, R286, R305, R359). -/
def freeEntry (s : State) (id : Nat) : State :=
  match tfind s.entries id with
  | none => s
  | some e =>
    let s1 := match e.card with
      | some c => modPart s e.part fun q => { q with cards := tdel q.cards c }
      | none => s
    { unpin s1 e.pin with entries := tdel s.entries id }

/-- An entry becomes FAULTED; its pin falls (R269, R359). -/
def faultEntry (s : State) (id : Nat) : State :=
  match tfind s.entries id with
  | none => s
  | some e => { unpin s e.pin with entries := tput s.entries id { e with state := .faulted, pin := none } }

/-- Release the reservation that a put holds (R286). -/
def releaseUnit (s : State) (v : VfId) : State := { s with reserved := s.reserved.erase v }

/-- Release the reservations of discarded effects (R109, R286). -/
def releaseEffects (s : State) : List Effect → State
  | [] => s
  | .put p :: es => releaseEffects (releaseUnit s p.unitVf) es
  | .send _ :: es => releaseEffects s es
  | .incr _ _ _ :: es => releaseEffects s es

/-! ### Gangs -/

/-- The gang of a task. -/
def gangOf (s : State) (g : Nat) : Option Gang := tfind s.gangs g
def modGang (s : State) (g : Nat) (f : Gang → Gang) : State := { s with gangs := tmod s.gangs g f }

/-- The stream context of a tile without a running stream. -/
def idleStream (c : StreamCtx) : StreamCtx := { c with run := .idle, stack := [], l0 := 0, l1 := 0, stall := none }

/-- Accesses that are held no more: those of which `p` holds. -/
def dropHolds (s : State) (p : HeldAccess → Bool) : State := { s with holds := s.holds.filter fun h => !p h }

/-- A held access of a tile's task; a publish outlives it. -/
def heldOfTile (t : TileId) (h : HeldAccess) : Bool :=
  match h.who with
  | .fetch u _ => decide (u = t)
  | .command u _ => decide (u = t)
  | .scalar u => decide (u = t)
  | _ => false

/-- What an abort discards on one tile: streams, commands, queues, buffered effects and reservations. The scratchpad and
the publishes that have begun stay (R100, R109, R210, R299). -/
def clearTile (s : State) (t : TileId) : State :=
  let T := tileOf s t
  setTile (dropHolds (releaseEffects s T.effects) (heldOfTile t)) t
    { T with
      s := idleStream T.s, vs := idleStream T.vs, m := idleStream T.m, a := idleStream T.a
      bypass := [], vloops := [], cmdsM := [], cmdsA := [], stores := [], effects := [], sWait := .none,
      ssa := 0x3F800000, ssb := 0x3F800000,
      queues := T.queues.map fun q => { fmt := q.fmt }
      task := none, debug := .none, heldTrap := none, observed := [] }

/-- Clear every tile of a list. -/
def clearTiles (s : State) : List TileId → State
  | [] => s
  | t :: ts => clearTiles (clearTile s t) ts

/-- Some member's region holds an irrevocable effect (R139). -/
def gangIrrevocable (s : State) (g : Gang) : Bool :=
  g.tiles.any fun t => match (tileOf s t).task with
    | some k => k.irrevocable
    | none => false

/-- Abort every member and return the gang to its dispatcher once the discard is complete (R109, R299). -/
def abortGang (s : State) (id : Nat) : State :=
  match gangOf s id with
  | none => s
  | some g => modGang (clearTiles s g.tiles) id fun g => { g with state := .aborting }

/-- A gang leaves the machine: its tiles are free and the gang is forgotten. -/
def dropGang (s : State) (id : Nat) : State := { s with gangs := tdel s.gangs id }

/-- A chunk of a card faulted: dealing stops, and its boundaries stay, by ascending record (R305, R306). -/
def faultChunk (s : State) (p : PartId) (slot f n id : Nat) : State :=
  modPart s p fun q => { q with cards := tmod q.cards slot fun c =>
    { c with stopped := true, redeal := sortInsert (fun a b => decide (a.1 < b.1)) (f, n) c.redeal,
             live := c.live.erase id } }

/-- The chunk gangs of a card are all complete and its dealing has stopped: its entry becomes FAULTED (R305). -/
def settleCardFault (s : State) (p : PartId) (slot : Nat) : State :=
  match tfind (partOf s p).cards slot with
  | some c => if c.stopped ∧ c.live = [] then faultEntry s c.entry else s
  | none => s

/-- Stop a gang for good after a non-restartable cause: no member is requeued, the class freezes, and its entry becomes
FAULTED (R110, R299, R305). -/
def faultGang (s : State) (id : Nat) : State :=
  match gangOf s id with
  | none => s
  | some g =>
    let s := dropGang (clearTiles s g.tiles) id
    let s := freezeClass s g.part g.cls
    match g.chunk with
    | none => faultEntry s g.entry
    | some (slot, f, n) => settleCardFault (faultChunk s g.part slot f n id) g.part slot

/-! ### Taking a trap on a tile (R108 to R112, R299, R351) -/

/-- The source code of a stream in a fault record (R112). -/
def srcCode : Stream → Nat
  | .S => 0
  | .V => 1
  | .M => 2
  | .A => 3

/-- The run count of a member (R126). -/
def runCount (g : Gang) (rank : Nat) : Nat := g.runs + tget 0 g.resumes rank

/-- The record of a cause on a tile (R112). -/
def tileRecord (s : State) (t : TileId) (k : Task) (src frozen orig cause : Nat) (pc val : Word) : List Word :=
  faultRecord s t.val 0 0 frozen src orig cause pc val k.part.val k.asid k.vf.val k.cls k.key
    ((gangOf s k.gang).elim 0 fun g => runCount g k.rank)

/-- The expert range of a VF that holds an address, with its Lodging entry (R345, R354). -/
def expertAt (s : State) (v : VfId) (va : Nat) : Option (Nat × Lodging) :=
  s.lodging.find? fun e => decide (e.2.vf = v ∧ e.2.vbase ≤ va ∧ va < e.2.vbase + e.2.length)

/-- A page-waiting gang's record for the pager, unless 4096 stand undelivered (R351). -/
def sendPager (s : State) (t : TileId) (k : Task) (src : Nat) (pc va : Word) : State :=
  let q := partOf s k.part
  if q.pagerRecords < 4096 then
    let s := modPart s k.part fun q => { q with pagerRecords := q.pagerRecords + 1 }
    sendEvent s (firstSteward s k.part)
      { faultEvent (tileRecord s t k src 0 0 causeAbsent pc va) k.vf.val with pagerOf := some k.part }
  else modPart s k.part fun q => { q with stats := vset q.stats 7 (vget q.stats 7 + 1) }

/-- The restartable fate: the gang is aborted and requeued, waiting for the page (R109, R299, R351). -/
def pageWaitGang (s : State) (t : TileId) (k : Task) (src : Nat) (pc va : Word) : State :=
  let s1 := if (expertAt s k.vf va.toNat).isSome then s else sendPager s t k src pc va
  modGang (abortGang s1 k.gang) k.gang fun g =>
    { g with pageWait := some (k.asid, va.toNat / 2 ^ 16), pageTicks := 0 }

/-- The final fate: a fault record to FAULTTHR, the class frozen, nothing requeued (R110, R299). -/
def faultTile (s : State) (t : TileId) (k : Task) (src orig cause : Nat) (pc val : Word) : State :=
  faultGang (sendVfFault s k.vf (tileRecord s t k src 1 orig cause pc val)) k.gang

/-- One cause comes before another: its word issued in an earlier ac cycle, or in the same one and its stream is earlier in
the order S, V, M, A (R111). -/
def trapBefore (a b : HeldTrap) : Bool := decide (a.issued < b.issued ∨ (a.issued = b.issued ∧ a.src < b.src))

/-- A cause taken by the task on a tile, whose word issued in the ac cycle `issued`. While the task is halted the trap is
held, and of several the first by `trapBefore` (R111). PAGE_ABSENT is restartable; with an irrevocable effect in a member's
region it becomes NONRESTARTABLE (R139, R299). -/
def tileTrapAt (s : State) (t : TileId) (src cause : Nat) (pc val : Word) (issued : Nat) : State :=
  let T := tileOf s t
  match T.task with
  | none => s
  | some k =>
    if T.debug ≠ .none then
      let h : HeldTrap := { cause := cause, val := val, src := src, pc := pc, issued := issued }
      match T.heldTrap with
      | none => setTile s t { T with heldTrap := some h }
      | some o => if trapBefore h o then setTile s t { T with heldTrap := some h } else s
    else if cause = causeAbsent then
      match gangOf s k.gang with
      | none => s
      | some g =>
        if gangIrrevocable s g then faultTile s t k src causeAbsent causeNonrestartable pc val
        else pageWaitGang s t k src pc val
    else faultTile s t k src 0 cause pc val

/-- A cause of the word in turn, which issues now. -/
def tileTrap (s : State) (t : TileId) (src cause : Nat) (pc val : Word) : State :=
  tileTrapAt s t src cause pc val (acOf s t)

/-! ### Taking a trap on a thread (R115, R116), and the return from it (R107) -/

/-- The trap registers of a level (R104). -/
def trapRegs (h : Thread) (l : Nat) : TrapRegs := if l = 1 then h.steward else h.keeper
def setTrapRegs (h : Thread) (l : Nat) (r : TrapRegs) : Thread :=
  if l = 1 then { h with steward := r } else { h with keeper := r }

/-- TSTAT.ACT. -/
def tstatAct (w : Word) : Bool := w.getLsbD 2
/-- TSTAT.PL. -/
def tstatPl (w : Word) : Nat := w.toNat % 4

/-- The handler ends: a JQ_NOTIFY event completes its entry's work (R283, R384). -/
def endHandler (s : State) (n : ThreadId) : State :=
  let s1 := modThr s n fun h => { h with handler := none }
  match (thrOf s n).handler with
  | none => s1
  | some e => match e.entry with
    | some id => freeEntry s1 id
    | none => s1

/-- The registers of R379: x1 the thread number, x2 the level code, the rest 0. -/
def releaseRegs (n : ThreadId) (level : Nat) : Vector Word 64 :=
  vset (vset (Vector.replicate 64 0) 1 (word n.val)) 2 (word level)

/-- A released thread begins at offset 0 (R379). Until its first EVGET, CYCLE and the WATCHDOG's count run from the Innkeeper
cycle of the release: the manual gives CYCLE no origin there (DESIGN CHOICE, log 67). -/
def startThread (h : Thread) (n : ThreadId) (ik : Nat) : Thread :=
  { h with x := releaseRegs n h.home, pc := 0, level := h.home, fpcr := 0, fpsr := 0, gen := {}, held := false,
           wait := .none, evgetPc := none, handler := none, watchdog := 0, startCycle := ik }

/-- Clear TSTAT.ACT of a register set. -/
def clearAct (r : TrapRegs) : TrapRegs := { r with tstat := r.tstat &&& ~~~(4 : Word) }

/-- A kill: the handler ends, the thread returns to its home level and parks at the EVGET that began it, or starts over
when it has issued none (R116). -/
def parkThread (s : State) (n : ThreadId) : State :=
  modThr (dropHolds (endHandler s n) fun h => decide (h.who = .thread n)) n fun h =>
    let h := if h.home = 0 then { h with steward := clearAct h.steward, keeper := clearAct h.keeper }
      else if h.home = 1 then { h with keeper := clearAct h.keeper } else h
    match h.evgetPc with
    | none => startThread h n s.ik
    | some pc => { h with pc := pc, level := h.home, wait := .evget h.evgetReg, watchdog := 0 }

/-- The supervisor of a thread: for a Guest the partition's first Steward thread, else Keeper thread 0 (R116). -/
def supervisor (s : State) (n : ThreadId) : ThreadId :=
  if (thrOf s n).home = 0 then (partOfThread s n).elim 0 (firstSteward s) else 0

/-- The record of a cause on a thread (R112). PART is 0 for a Keeper thread, which belongs to no partition, and ASID is the
VF's ASIDFIRST: the manual states neither (DESIGN CHOICE, log 67). -/
def threadRecord (s : State) (n : ThreadId) (double cause : Nat) (pc val : Word) : List Word :=
  let v := vfOfThread s n
  faultRecord s 0 n.val double 0 4 0 cause pc val ((partOfThread s n).elim 0 (·.val))
    (v.elim 0 fun v => (vfOf s v).asidFirst) (v.elim 0 (·.val)) 0 0 0

/-- End the handler with a fault record to the supervisor (R116). -/
def killThread (s : State) (n : ThreadId) (double cause : Nat) (pc val : Word) : State :=
  sendEvent (parkThread s n) (supervisor s n)
    (faultEvent (threadRecord s n double cause pc val) ((vfOfThread s n).elim 0 (·.val)))

/-- The level a trap goes to (R115). -/
def trapLevel (level : Nat) : Nat := if level = 0 then 1 else 2

/-- The register set after a trap from `level` (R115): PL and ACT, TEPC, TCAUSE, TVAL; SW for TRAP (R106). -/
def trapped (r : TrapRegs) (level cause : Nat) (sw : Bool) (epc val : Word) : TrapRegs :=
  { r with tstat := word (level + 4 + (if sw then 8 else 0)), tepc := epc &&& ~~~(3 : Word),
           tcause := word cause, tval := val }

/-- A trap on a thread (R115). `pc` is the trapping word and `epc` what TEPC takes. -/
def threadTrap (s : State) (n : ThreadId) (cause : Nat) (sw : Bool) (pc epc val : Word) : State :=
  let h := thrOf s n
  let t := trapLevel h.level
  if tstatAct (trapRegs h t).tstat then killThread s n 1 cause pc val
  else
    let r := trapped (trapRegs h t) h.level cause sw epc val
    setThr s n { setTrapRegs h t r with level := t, pc := r.tvec, wait := .none }

/-- The return from a trap at a level (R107). -/
def trapReturn (h : Thread) : Thread :=
  let r := trapRegs h h.level
  { setTrapRegs h h.level (clearAct r) with level := tstatPl r.tstat, pc := r.tepc }

/-! ### Raising a cause from the word in turn (R79) -/

/-- The word in turn raises a cause and has no effect; ECC_UNCORRECTABLE ends a thread's handler (R108). -/
def raise (s : State) (cause : Nat) (val : Word) : Result :=
  match s.cur with
  | .tile t st => .next (tileTrap s t (srcCode st) cause (pcOf s) val)
  | .thread n =>
    if cause = causeEcc then .next (killThread s n 0 cause (pcOf s) val)
    else .next (threadTrap s n cause false (pcOf s) (pcOf s) val)

/-- The bits of an instruction word, for TVAL (R108). -/
def insnWord (i : Instr) : Word := word ((encode i).elim 0 Prod.snd)

/-- ILLEGAL_INSTR: TVAL holds the word (R78, R108). -/
def illegal (s : State) (i : Instr) : Result := raise s causeIllegal (insnWord i)
/-- PRIVILEGE: TVAL holds the word (R98, R108). -/
def privilege (s : State) (i : Instr) : Result := raise s causePrivilege (insnWord i)

/-- A meaning that only an Innkeeper thread may run (R67). -/
def onThread (s : State) (i : Instr) (f : ThreadId → Result) : Result :=
  match s.cur with
  | .thread n => f n
  | .tile _ _ => illegal s i

/-- A meaning that only a tile's S stream may run, with its task (R67). -/
def onTileS (s : State) (i : Instr) (f : TileId → Task → Result) : Result :=
  match s.cur with
  | .tile t .S => match (tileOf s t).task with
    | some k => f t k
    | none => .next s
  | _ => illegal s i

/-- A meaning that only a tile's V stream may run. -/
def onTileV (s : State) (i : Instr) (f : TileId → Task → Result) : Result :=
  match s.cur with
  | .tile t .V => match (tileOf s t).task with
    | some k => f t k
    | none => .next s
  | _ => illegal s i

/-- A meaning that a tile's M or A stream may run (R75). -/
def onEngine (s : State) (i : Instr) (f : TileId → Stream → Task → Result) : Result :=
  match s.cur with
  | .tile t .M => match (tileOf s t).task with
    | some k => f t .M k
    | none => .next s
  | .tile t .A => match (tileOf s t).task with
    | some k => f t .A k
    | none => .next s
  | _ => illegal s i

/-- A meaning that one engine's stream may run (R75). -/
def onStream (s : State) (i : Instr) (st : Stream) (f : TileId → Task → Result) : Result :=
  match s.cur with
  | .tile t st' => if st' = st then (match (tileOf s t).task with
      | some k => f t k
      | none => .next s) else illegal s i
  | .thread _ => illegal s i

end Sys2Proof.Machine
end

