-- ==== Sys2Proof/Machine/Access.lean ====
section
/-! DEFINITION. Memory as agents reach it: the physical map, stage 2, stage 1, the tile's TLB, the publish buffer, older
values and acquires, and instruction fetch (12 R339 to R346, R358; 05 R148, R158; 11 R313 to R319; 13 R378, R394). -/

namespace Sys2Proof.Machine

/-! ### Physical memory -/

/-- HBM lies below this address (R339). -/
def hbmEnd : Nat := 0x7735940000
def cxlBase : Nat := 0x100000000000
def cxlEnd : Nat := 0x200000000000
def hostBase : Nat := 0x800000000000
def hostEnd : Nat := 0xC00000000000
def configBase : Nat := 0xF00000000000
def configEnd : Nat := 0xF00001000000

def inHbm (a : Nat) : Bool := decide (a < hbmEnd)
def inCxl (a : Nat) : Bool := decide (cxlBase ≤ a ∧ a < cxlEnd)
def inHost (a : Nat) : Bool := decide (hostBase ≤ a ∧ a < hostEnd)
def inConfig (a : Nat) : Bool := decide (configBase ≤ a ∧ a < configEnd)

/-- The arrival counter whose window holds a physical address, device wide, and the byte within it (R394). -/
def windowCtr (s : State) (a : Nat) : Option (Nat × Nat) :=
  match s.vfs.toList.find? fun f =>
    decide (f.state ≠ 0 ∧ f.winEn = true ∧ f.segBase + f.winIpa ≤ a ∧ a < f.segBase + f.winIpa + 8 * f.cCount) with
  | none => none
  | some f =>
    let o := a - (f.segBase + f.winIpa)
    some ((partOf s f.part).ctrFirst + f.cFirst + o / 8, o % 8)

/-- The value of an arrival counter (R392). -/
def ctrGet (s : State) (c : Nat) : Word := tget 0 s.counters c
def ctrSet (s : State) (c : Nat) (w : Word) : State := { s with counters := tset 0 s.counters c w }

/-- One byte of physical memory: a counter through its window, else memory (R394). -/
def physByte (s : State) (a : Nat) : Byte :=
  match windowCtr s a with
  | some (c, o) => BitVec.ofNat 8 ((ctrGet s c).toNat / 2 ^ (8 * o))
  | none => mget s.mem a

def physRead (s : State) (a n : Nat) : List Byte := (List.range n).map fun i => physByte s (a + i)

/-- A write covers a granule: its values so far are old. A task's own writes leave it no older value (R314, R319). -/
def overtake (xs : List OldValue) (a : Nat) (o : Over) : List OldValue :=
  (xs.filter fun x => decide (x.addr ≠ a / 64 * 64 ∨ o.issuer.map Prod.fst ≠ some x.tile)).map fun x =>
    if x.addr = a / 64 * 64 ∧ o ∉ x.overs then { x with overs := x.overs ++ [o] } else x

/-- A write by an agent of the device other than a task: complete as it is made (R320). -/
def deviceWrite : Over := { issuer := none, num := 0, scope := 2 }
/-- A write by the host or a peer, which are agents at SYSTEM only (R313). -/
def systemWrite : Over := { issuer := none, num := 0, scope := 3 }

/-- Write one byte of physical memory for a publish; a write into a counter window is ignored (R394). -/
def physSetBy (o : Over) (s : State) (a : Nat) (b : Byte) : State :=
  match windowCtr s a with
  | some _ => s
  | none => { s with mem := mset s.mem a b, olds := overtake s.olds a o }

/-- Write one byte of physical memory. -/
def physSet (s : State) (a : Nat) (b : Byte) : State := physSetBy deviceWrite s a b

/-- Zero a range, of which no older value stays. -/
def zeroMem (s : State) (a n : Nat) : State :=
  { s with mem := mzero s.mem a n, olds := s.olds.filter fun x => decide (x.addr + 64 ≤ a ∨ a + n ≤ x.addr) }

/-- The first address of a range that lies in a granule ECC cannot correct (R428). -/
def badIn (s : State) (a n : Nat) : Option Nat :=
  (s.bad.find? fun g => decide (64 * g < a + n ∧ a < 64 * g + 64)).map fun g => max a (64 * g)

def physWrite (s : State) (a : Nat) : List Byte → State
  | [] => s
  | b :: bs => physWrite (physSet s a b) (a + 1) bs

/-- Some running snapshot has fixed its cut and not yet saved a 64 KiB frame that `n` bytes from `a` touch: a write outside
the cut waits for it (R372). -/
def unsaved (s : State) (a n : Nat) : Bool :=
  s.snapshots.any fun x => x.frames.any fun f => decide (a < f.2 + 65536 ∧ f.2 < a + n)

/-- A write of `n` bytes from `a` waits for the frames that it meets unsaved: they are saved first (R372). -/
def wantSaved (s : State) (a n : Nat) : State :=
  { s with snapshots := s.snapshots.map fun x =>
      let fs := (x.frames.filter fun f => decide (a < f.2 + 65536 ∧ f.2 < a + n ∧ f.2 ∉ x.wanted)).map Prod.snd
      { x with wanted := x.wanted ++ fs } }

/-! ### Stage 2 (R340) -/

/-- The answer of a translation: an address, a wait for SEGHOLD, a zeroing or a snapshot, a cause, or a table entry at a
physical address that ECC cannot correct. -/
inductive Xlat where
  | ok (a : Nat)
  | wait
  | fault (cause : Nat)
  | ecc (pa : Nat)
  deriving DecidableEq, Repr

def loanIpa : Nat := 0x200000000000

/-- The owner tag of the frame that holds an HBM address (R341). -/
def ownerTag (s : State) (a : Nat) : BitVec 8 := tget 0 s.owners (a / 2 ^ 21)

/-- Stage 2 of an intermediate address for a VF. -/
def stage2 (s : State) (v : VfId) (ipa : Nat) : Xlat :=
  let f := vfOf s v
  let q := partOf s f.part
  if ipa < f.segSize then
    if f.segHeld then .wait else .ok (f.segBase + ipa)
  else if loanIpa ≤ ipa ∧ ipa < loanIpa + q.loanSize then
    let pa := q.loanBase + (ipa - loanIpa)
    if (ownerTag s pa).toNat = v.val + 1 then
      if s.zeroing.contains (pa / 2 ^ 21) then .wait else .ok pa
    else .fault causeSegment
  else if inHost ipa then
    if Config.hostError s.freeCtr v.val ipa then .fault causeSegment else .ok ipa
  else .fault causeSegment

/-! ### Stage 1 (R343 to R345) -/

/-- The right an access needs (R344). -/
inductive Right where
  | read | write | fetch
  deriving DecidableEq, Repr

/-- The answer of a walk: a leaf, a wait, a cause, or an entry that ECC cannot correct. -/
inductive Walk where
  | leaf (e : TlbEntry)
  | wait
  | fault (cause : Nat)
  | ecc (pa : Nat)
  deriving DecidableEq, Repr

/-- The index of a virtual address at a level (R343). -/
def vaIndex (va lvl : Nat) : Nat :=
  match lvl with
  | 0 => va / 2 ^ 43 % 8192
  | 1 => va / 2 ^ 30 % 8192
  | 2 => va / 2 ^ 21 % 512
  | _ => va / 2 ^ 16 % 32

/-- The page size of a leaf at a level (R343). -/
def pageSize (lvl : Nat) : Nat :=
  match lvl with
  | 1 => 2 ^ 30
  | 2 => 2 ^ 21
  | _ => 2 ^ 16

/-- A malformed entry (R344). -/
def pteMalformed (e : Word) (lvl : Nat) : Bool :=
  let leaf := bbit e 1
  let addr := bfld e 47 8 * 2 ^ 8
  decide (bfld e 55 48 ≠ 0 ∨ bfld e 7 5 ≠ 0) ||
    (leaf && decide (lvl = 0 ∨ addr % pageSize lvl ≠ 0)) ||
    (!leaf && (decide (lvl = 3 ∨ bfld e 4 2 ≠ 0) ||
      decide (lvl = 0 ∧ addr % 2 ^ 16 ≠ 0) || decide (lvl = 1 ∧ addr % 2 ^ 12 ≠ 0)))

/-- A 64-bit word at an intermediate address (R340, R428). -/
def read64s2 (s : State) (v : VfId) (ipa : Nat) : Except Xlat Word :=
  match stage2 s v ipa with
  | .ok pa => match badIn s pa 8 with
    | some b => .error (.ecc b)
    | none => .ok (word (leNat (physRead s pa 8)))
  | x => .error x

/-- The range of addresses that an entry covers, as a number: for the root word all of them (R343). -/
def keptRange (va : Nat) : Nat → Nat
  | 0 => 0
  | l + 1 => va / (if l = 0 then 2 ^ 43 else if l = 1 then 2 ^ 30 else 2 ^ 21)

/-- A table entry of a walk, at a level numbered as in `KeptEntry`: as a walker of the die keeps it, or else as memory has it
(R346). A walk for a thread has no walker. -/
def walkEntry (s : State) (d : Option (Fin 4)) (v : VfId) (asid va level ipa : Nat) : Except Xlat Word :=
  match s.kept.find? fun k => decide (some k.die = d ∧ k.asid = asid ∧ k.level = level ∧ k.range = keptRange va level) with
  | some k => .ok k.entry
  | none => read64s2 s v ipa

/-- What a failed read makes of a walk. -/
def walkStop : Xlat → Walk
  | .ok _ => .wait
  | .wait => .wait
  | .fault c => .fault c
  | .ecc a => .ecc a

/-- The walk from a table at `t` (R345). -/
def walkFrom (s : State) (d : Option (Fin 4)) (v : VfId) (asid va : Nat) : Nat → Nat → Nat → Walk
  | 0, _, _ => .fault causePermission
  | fuel + 1, t, lvl =>
    match walkEntry s d v asid va (lvl + 1) (t + 8 * vaIndex va lvl) with
    | .error x => walkStop x
    | .ok e =>
      if bbit e 0 = false then .fault causeAbsent
      else if pteMalformed e lvl then .fault causePermission
      else if bbit e 1 then
        .leaf { asid := asid, base := va / pageSize lvl * pageSize lvl, size := pageSize lvl,
                r := bbit e 2, w := bbit e 3, x := bbit e 4, ipa := bfld e 47 8 * 2 ^ 8 }
      else walkFrom s d v asid va fuel (bfld e 47 8 * 2 ^ 8) (lvl + 1)

/-- A root word that R345 refuses. -/
def badRoot (root : Word) : Bool := decide (bbit root 0 = false ∨ bfld root 15 1 ≠ 0 ∨ bfld root 63 48 ≠ 0)

/-- Where the root word of an ASID stands (R343). -/
def rootIpa (s : State) (v : VfId) (asid : Nat) : Nat := 8 * (asid - (vfOf s v).asidFirst)

/-- The walk of a virtual address under an ASID, by a walker of a die or for a thread (R345). -/
def walk (s : State) (d : Option (Fin 4)) (v : VfId) (asid va : Nat) : Walk :=
  match walkEntry s d v asid va 0 (rootIpa s v asid) with
  | .error x => walkStop x
  | .ok root =>
    if badRoot root then .fault causePermission
    else walkFrom s d v asid va 4 (bfld root 47 16 * 2 ^ 16) 0

/-- The entry that a walk reads at a level, if it is present, well formed and reached through pointers (R345). -/
def entryAt (s : State) (d : Option (Fin 4)) (v : VfId) (asid va : Nat) : Nat → Option Word
  | 0 => match walkEntry s d v asid va 0 (rootIpa s v asid) with
    | .ok root => if badRoot root then none else some root
    | .error _ => none
  | l + 1 => match entryAt s d v asid va l with
    | none => none
    | some p =>
      if l ≠ 0 ∧ bbit p 1 then none
      else
        let t := if l = 0 then bfld p 47 16 * 2 ^ 16 else bfld p 47 8 * 2 ^ 8
        match walkEntry s d v asid va (l + 1) (t + 8 * vaIndex va l) with
        | .ok e => if bbit e 0 = false ∨ pteMalformed e l then none else some e
        | .error _ => none

/-- A walker of the tile's die keeps what a walk under its task's ASID reads at a level up to 2, or the root word (R346).
Which entries stay, and how long, is open: the turns say (log 11). -/
def walkKeep (s : State) (t : TileId) (va lvl : Nat) : State :=
  match (tileOf s t).task with
  | none => s
  | some k =>
    let d := dieOf t
    if 3 < lvl then s
    else match entryAt s (some d) k.vf k.asid va lvl with
      | some e =>
        let others := s.kept.filter fun x =>
          decide (x.die ≠ d ∨ x.asid ≠ k.asid ∨ x.level ≠ lvl ∨ x.range ≠ keptRange va lvl)
        { s with kept := { die := d, asid := k.asid, level := lvl, range := keptRange va lvl, entry := e } :: others }
      | none => s

/-- The walkers' kept entry `k` goes. -/
def walkDrop (s : State) (k : Nat) : State := { s with kept := s.kept.eraseIdx k }

/-- A leaf grants the right (R344). -/
def grants (e : TlbEntry) : Right → Bool
  | .read => e.r
  | .write => e.w
  | .fetch => e.x

/-- The intermediate address through a leaf. -/
def leafIpa (e : TlbEntry) (va : Nat) : Nat := e.ipa + (va - e.base)

/-- An access to an expert range (R358): through its frames, or PAGE_ABSENT. -/
def expertXlat (e : Lodging) (va : Nat) (r : Right) : Xlat :=
  if e.state = 2 then
    if r = .read then .ok (e.frames.getD ((va - e.vbase) / 2 ^ 21) 0 + (va - e.vbase) % 2 ^ 21)
    else .fault causePermission
  else .fault causeAbsent

/-- A fetch starts for an ABSENT expert; one that is EVICTING starts it when the eviction ends (R357, R358). -/
def wantExpert (s : State) (l : Nat) : State :=
  { s with lodging := tmod s.lodging l fun e => if e.state = 0 then { e with state := 1 } else e }

/-- Add a leaf to a TLB of 1024 entries; the oldest makes room (R346, DESIGN CHOICE, log 11). -/
def tlbAdd (tlb : List TlbEntry) (e : TlbEntry) : List TlbEntry := (tlb ++ [e]).drop (tlb.length + 1 - 1024)

/-- The TLB entry that covers an address under an ASID. -/
def tlbFind (tlb : List TlbEntry) (asid va : Nat) : Option TlbEntry :=
  tlb.find? fun e => decide (e.asid = asid ∧ e.base ≤ va ∧ va < e.base + e.size)

/-- Stage 1 of a tile's access (R345, R346): an intermediate address, with the TLB filled, or the cause. -/
def tileStage1 (s : State) (t : TileId) (k : Task) (va : Nat) (r : Right) : State × Xlat :=
  if 2 ^ 56 ≤ va then (s, .fault causePermission)
  else match expertAt s k.vf va with
    | some (l, e) =>
      let x := expertXlat e va r
      (if x = .fault causeAbsent then wantExpert s l else s, x)
    | none =>
      match tlbFind (tileOf s t).tlb k.asid va with
      | some e => (s, if grants e r then .ok (leafIpa e va) else .fault causePermission)
      | none =>
        match walk s (some (dieOf t)) k.vf k.asid va with
        | .wait => (s, .wait)
        | .fault c => (s, .fault c)
        | .ecc a => (s, .ecc a)
        | .leaf e =>
          (modTile s t fun T => { T with tlb := tlbAdd T.tlb e },
           if grants e r then .ok (leafIpa e va) else .fault causePermission)

/-! ### Accesses held at the segment row (R348 to R350) -/

/-- Two held accesses are the same. -/
def HeldAccess.same (a b : HeldAccess) : Bool := decide (a.who = b.who ∧ a.vf = b.vf ∧ a.va = b.va)

/-- The access of an agent that is held at an address: what stage 1 gave for it. -/
def heldAt (s : State) (who : Holder) (va : Nat) : Option Nat :=
  (s.holds.find? fun h => decide (h.who = who ∧ h.va = va)).bind HeldAccess.ipa

/-- The agent of a held access still makes it: one that has gone keeps no other waiting. -/
def holdLives (s : State) (h : HeldAccess) : Bool :=
  match h.who with
  | .thread n => decide (vfOfThread s n = some h.vf)
  | .fetch t _ => (tileOf s t).task.isSome
  | .command t id => (tileOf s t).cmdsA.any (fun c => decide (c.id = id)) || (tileOf s t).cmdsM.any fun c => decide (c.id = id)
  | .scalar t => (tileOf s t).task.isSome
  | .publish t num => (tileOf s t).publishes.any fun p => decide (p.num = num)
  | .transfer id => (tfind s.drovers id).isSome || (tfind s.outbound id).isSome
  | .landing id => (tfind s.inbound id).isSome
  | .card p slot => (tfind (partOf s p).cards slot).any fun c => !c.ready

/-- No access that came to the segment row before this one, itself held there, is still to go on (R349). -/
def rowTurnOf (s : State) (h : HeldAccess) : Bool :=
  match s.holds.find? fun x => decide (x.vf = h.vf) && holdLives s x with
  | none => true
  | some x => h.same x || !s.holds.any h.same

/-- An access joins those that are held, while the segment is (R348). -/
def joinRow (s : State) (h : HeldAccess) : State :=
  if (vfOf s h.vf).segHeld ∧ s.holds.any h.same = false then { s with holds := s.holds ++ [h] } else s

/-- An access comes to the segment row of its VF, and may go on or not. While the segment is held it joins the VF's held
accesses; after SEGREL they go on in the order in which they came (R348, R349). -/
def atRow (s : State) (h : HeldAccess) : State × Bool :=
  if (vfOf s h.vf).segHeld then (joinRow s h, false)
  else if rowTurnOf s h then (dropHolds s h.same, true)
  else (s, false)

/-- Stage 2 of an access whose stage 1 gave `ipa` (R340, R349). -/
def stage2For (s : State) (h : HeldAccess) (ipa : Nat) : State × Xlat :=
  if ipa < (vfOf s h.vf).segSize then
    match atRow s h with
    | (s, true) => (s, stage2 s h.vf ipa)
    | (s, false) => (s, .wait)
  else (s, stage2 s h.vf ipa)

/-- Both stages of a tile's access for one of its agents: the intermediate and the physical address (R345). An access that
was held keeps what stage 1 gave it (R350); one whose walk is held walks again in its turn (R349). -/
def tileXlatFor (s : State) (who : Holder) (t : TileId) (k : Task) (va : Nat) (r : Right) :
    State × Except Xlat (Nat × Nat) :=
  let h : HeldAccess := { who := who, vf := k.vf, va := va, ipa := none }
  let x := match heldAt s who va with
    | some i => (s, Xlat.ok i)
    | none => if rowTurnOf s h then tileStage1 s t k va r else (s, .wait)
  match x with
  | (s, .ok ipa) =>
    let leaf := if (expertAt s k.vf va).isSome then none else tlbFind (tileOf s t).tlb k.asid va
    match stage2For s { h with ipa := some ipa, leaf := leaf } ipa with
    | (s, .ok pa) => (s, .ok (ipa, pa))
    | (s, x) => (s, .error x)
  | (s, .wait) => (joinRow s h, .error .wait)
  | (s, x) => (s, .error x)

/-- Both stages of an access of a tile that no fetch or command makes: CTRADD.GLOBAL, the arguments of a start, a watched
counter. -/
def tileXlat (s : State) (t : TileId) (k : Task) (va : Nat) (r : Right) : State × Except Xlat (Nat × Nat) :=
  tileXlatFor s (.scalar t) t k va r

/-! ### The publish buffer (R138, R314, R319) -/

/-- The byte of a granule's stores at an offset: which halves they cover, and the value. -/
def storeByteAt (bs : List StoreByte) (off : Nat) : Option StoreByte := bs.find? fun b => decide (b.off = off)

/-- Lay stored halves over a byte (R253). -/
def mergeByte (old : Byte) (b : StoreByte) : Byte :=
  (if b.lo then b.val &&& 0x0F else old &&& 0x0F) ||| (if b.hi then b.val &&& 0xF0 else old &&& 0xF0)

/-- The device, and the VF there, in whose intermediate space a granule's stores go (R259, R314). -/
def storeTarget (s : State) (v : VfId) : StoreDest → Nat × Nat
  | .ipa => (s.purlinId, v.val)
  | .member _ _ dev rvf _ => (dev, rvf)

/-- Lay the stores of a VF's granules over the byte at an address of a VF of a device. -/
def overlayByte (s : State) (v : VfId) (gs : List Granule) (dev rvf a : Nat) (old : Byte) : Byte :=
  gs.foldl (fun o g =>
    if storeTarget s v g.dest = (dev, rvf) ∧ g.addr = a / 64 * 64 then
      match storeByteAt g.bytes (a % 64) with
      | some b => mergeByte o b
      | none => o
    else o) old

/-- The publishes of the task on a tile that have begun; another gang's may still stand there. -/
def ownPublishes (T : Tile) : List Publish :=
  T.publishes.filter fun p => decide (T.task.map Task.gang = some p.gang)

/-- The byte of memory that a tile's task reads: of the oldest value of the granule that it still reads, or the present
one. A counter window is always read as it stands (R319). -/
def seenByte (s : State) (t : TileId) (pa : Nat) : Byte :=
  match s.olds.find? fun x => decide (x.tile = t ∧ x.addr = pa / 64 * 64 ∧ windowCtr s pa = none) with
  | some x => x.bytes.getD (pa % 64) 0
  | none => physByte s pa

/-- The VF of a tile's task. -/
def tileVf (T : Tile) : VfId := T.task.elim 0 Task.vf

/-- A task's own stores that no other agent sees yet, those through address groups among them, over the byte at an address of
a VF of a device (R233, R319). -/
def ownByteAt (s : State) (t : TileId) (dev rvf a : Nat) (b : Byte) : Byte :=
  let T := tileOf s t
  overlayByte s (tileVf T) ((ownPublishes T).flatMap (fun p => p.stores) ++ T.stores) dev rvf a b

/-- The same at an intermediate address of its own VF. -/
def ownByte (s : State) (t : TileId) (ipa : Nat) (b : Byte) : Byte :=
  ownByteAt s t s.purlinId (tileVf (tileOf s t)).val ipa b

/-- The byte a task reads at an address. -/
def taskByte (s : State) (t : TileId) (ipa pa : Nat) : Byte := ownByte s t ipa (seenByte s t pa)

/-! ### Acquires (R313, R317, R319) -/

/-- A tile lies within a scope of the issuer, and the issuer within that scope of the tile (R313): an agent of the device
that is no task from DEVICE on, the host and the peers at SYSTEM. -/
def scopeReaches (s : State) (t : TileId) (o : Over) (sc : Fin 4) : Bool :=
  match o.issuer with
  | none => decide (o.scope ≤ sc)
  | some (w, g) => decide (w = t ∨ 2 ≤ sc.val ∨ (sc = 1 ∧ (tileOf s t).task.map Task.gang = some g))

/-- Every store of the publish is readable, and every earlier publish of its tile has completed (R315, R317). -/
def published (s : State) (o : Over) : Bool :=
  match o.issuer with
  | none => true
  | some (w, _) => match (tileOf s w).publishes with
    | [] => true
    | p :: ps => if p.num = o.num then decide (p.stores = []) else ps.all fun p => decide (p.num ≠ o.num)

/-- A tile, or a thread, as a number among the agents to which a publish may be visible. -/
def knower : Agent → Nat
  | .tile t _ => t.val
  | .thread n => 256 + n.val

/-- An agent that has observed the entries of these publishes sees a publish: that of the entry, or an earlier commit point
of the same task, whatever its scope and whatever tile the task was on (R316, R317). -/
def marksSee (ms : List Mark) (o : Over) : Bool :=
  ms.any fun m => decide (o.issuer.map Prod.snd = some m.gang ∧ o.rank = m.rank ∧ o.num ≤ m.num)

/-- An acquire by a tile's task at a scope makes a publish visible to it: one within both scopes, or one whose entry the
task has observed (R316, R317). -/
def visible (s : State) (t : TileId) (sc : Fin 4) (o : Over) : Bool :=
  published s o && (marksSee (tileOf s t).observed o || (scopeReaches s t o sc && scopeReaches s t o o.scope))

/-- What made some values old becomes visible to a tile's task: it reads those values no more, and what it publishes carries
it (R317, R319). -/
def seeAll (s : State) (t : TileId) (sees : OldValue → Bool) : State :=
  { s with olds := (s.olds.filter fun x => decide (x.tile ≠ t) || !sees x).map fun x =>
      if sees x then { x with known := t.val :: x.known.erase t.val } else x }

/-- An acquire: values that a visible publish made old are read no more (R317, R319). -/
def acquire (s : State) (t : TileId) (sc : Fin 4) : State := seeAll s t fun x => x.overs.any (visible s t sc)

/-- A publish that begins carries every publish that is visible to its issuer (R317). -/
def carryBy (s : State) (who : Nat) (o : Over) : State :=
  { s with olds := s.olds.map fun x => if who ∈ x.known ∧ o ∉ x.overs then { x with overs := x.overs ++ [o] } else x }

/-- The same of a tile's task. -/
def carry (s : State) (t : TileId) (o : Over) : State := carryBy s t.val o

/-- A write or an effect of a thread carries what the thread has seen of publishes at narrower scopes, by their entries
(R317, R320). -/
def carryThread (s : State) (n : ThreadId) : State := carryBy s (knower (.thread n)) deviceWrite

/-- A task observes entries, for its next acquires (R316). -/
def observe (s : State) (t : TileId) (ms : List Mark) : State :=
  if ms = [] then s else modTile s t fun T => { T with observed := T.observed ++ ms.filter fun m => decide (m ∉ T.observed) }

/-- A thread observes entries: its accesses are acquires, so their publishes are visible to it at once (R317, R320). -/
def observeThread (s : State) (n : ThreadId) (ms : List Mark) : State :=
  let w := knower (.thread n)
  { s with olds := s.olds.map fun x =>
      if x.overs.any (marksSee ms) ∧ w ∉ x.known then { x with known := w :: x.known } else x }

/-- The Innkeeper takes a send's entry: what it does then carries the entry's publish (R316, DESIGN CHOICE, log 10). -/
def observeDevice (s : State) (ms : List Mark) : State :=
  { s with olds := s.olds.map fun x =>
      if x.overs.any (marksSee ms) ∧ deviceWrite ∉ x.overs then { x with overs := x.overs ++ [deviceWrite] } else x }

/-- The key of a word in the table of marks: of a counter behind a window, or of memory. -/
def counterKey (c : Nat) : Nat := 2 ^ 60 + c
def markKey (s : State) (pa : Nat) : Nat :=
  match windowCtr s pa with
  | some (c, _) => counterKey c
  | none => pa / 8

/-- The publishes whose increments the word at a physical address has taken (R316). -/
def marksAt (s : State) (pa : Nat) : List Mark := tget [] s.marks (markKey s pa)

/-- The publishes whose increments an arrival counter has taken (R316, R394). -/
def counterMarks (s : State) (c : Nat) : List Mark := tget [] s.marks (counterKey c)

/-- An increment of a publish reaches the word at a physical address. A mark that no older value rests on is not kept. -/
def markAt (s : State) (pa : Nat) (m : Mark) : State :=
  let live (m : Mark) : Bool := s.olds.any fun x => x.overs.any (marksSee [m])
  { s with marks := tset [] s.marks (markKey s pa) ((marksAt s pa ++ [m]).filter live) }

/-- The acquire at the dispatch of a task, to which nothing is visible yet but the publishes that carried its entry's puts
(R281, R318). -/
def dispatchAcquire (s : State) (t : TileId) (ms : List Mark) : State :=
  acquire (modTile { s with olds := s.olds.map fun x => { x with known := x.known.erase t.val } } t
    fun T => { T with observed := ms }) t 2

/-- A tile's task may go on reading the present value of granule `g` (R319). -/
def keepOld (s : State) (t : TileId) (g : Nat) : State :=
  { s with olds := s.olds ++ [{ tile := t, addr := 64 * g, bytes := physRead s (64 * g) 64 }] }

/-- The task reads the next value of the granule. -/
def seeNew (s : State) (t : TileId) (g : Nat) : State :=
  { s with olds := s.olds.eraseP fun x => decide (x.tile = t ∧ x.addr = 64 * g) }

/-- Add one byte to a granule's stores; a later store covers an earlier one (R138, R233). -/
def granulePut (bs : List StoreByte) (b : StoreByte) : List StoreByte :=
  match storeByteAt bs b.off with
  | none => bs ++ [b]
  | some o => bs.map fun e => if e.off = b.off then
      { off := b.off, lo := o.lo || b.lo, hi := o.hi || b.hi, val := mergeByte o.val b } else e

/-- The buffer already holds the granule. -/
def hasGranule (gs : List Granule) (d : StoreDest) (a : Nat) : Bool :=
  gs.any fun g => decide (g.dest = d ∧ g.addr = a / 64 * 64)

/-- The other granules' bytes of the same place lose the halves that a store covers: the later store is published (R233). -/
def dropCovered (s : State) (v : VfId) (gs : List Granule) (d : StoreDest) (a : Nat) (lo hi : Bool) : List Granule :=
  gs.map fun g =>
    if g.dest ≠ d ∧ g.addr = a / 64 * 64 ∧ storeTarget s v g.dest = storeTarget s v d then
      { g with bytes := g.bytes.filterMap fun b =>
          if b.off = a % 64 then
            (if (b.lo && !lo) || (b.hi && !hi) then some { b with lo := b.lo && !lo, hi := b.hi && !hi } else none)
          else some b }
    else g

/-- Buffer one byte of a store. -/
def bufferPut (gs : List Granule) (d : StoreDest) (a : Nat) (lo hi : Bool) (v : Byte) : List Granule :=
  let b : StoreByte := { off := a % 64, lo := lo, hi := hi, val := v }
  if hasGranule gs d a then
    gs.map fun g => if g.dest = d ∧ g.addr = a / 64 * 64 then { g with bytes := granulePut g.bytes b } else g
  else gs ++ [{ dest := d, addr := a / 64 * 64, bytes := [b] }]

/-! ### A thread's addresses (R158) -/

/-- A physical address a Steward of the partition may reach: carve-out, loan pool, tier window (R158, R369). -/
def stewardReaches (q : Partition) (a : Nat) : Bool :=
  decide (q.carveBase ≤ a ∧ a < q.carveBase + q.carveSize) ||
  decide (q.loanBase ≤ a ∧ a < q.loanBase + q.loanSize) ||
  (inCxl a && decide (q.tierBase ≤ a ∧ a < q.tierBase + q.tierSize))

/-- Stage 1 for a Guest thread, without a TLB (R158, R345). -/
def guestStage1 (s : State) (v : VfId) (a : Nat) (r : Right) : State × Xlat :=
  if 2 ^ 56 ≤ a then (s, .fault causePermission)
  else match expertAt s v a with
    | some (l, e) => let x := expertXlat e a r
      (if x = .fault causeAbsent then wantExpert s l else s, x)
    | none => match walk s none v (vfOf s v).asidFirst a with
      | .wait => (s, .wait)
      | .fault c => (s, .fault c)
      | .ecc b => (s, .ecc b)
      | .leaf e => (s, if grants e r then .ok (leafIpa e a) else .fault causePermission)

/-- The leaf that gives a Guest thread's address its translation; none in an expert range. -/
def guestLeaf (s : State) (v : VfId) (a : Nat) : Option TlbEntry :=
  if (expertAt s v a).isSome then none
  else match walk s none v (vfOf s v).asidFirst a with
    | .leaf e => some e
    | _ => none

/-- The translation of a thread's address at its current level (R158, R339, R345). -/
def threadMap (s : State) (n : ThreadId) (a : Nat) (r : Right) : State × Xlat :=
  match levelOf s n with
  | 0 => match vfOfThread s n with
    | none => (s, .fault causeSegment)
    | some v =>
      let h : HeldAccess := { who := .thread n, vf := v, va := a, ipa := none }
      let x := match heldAt s (.thread n) a with
        | some i => (s, Xlat.ok i)
        | none => if rowTurnOf s h then guestStage1 s v a r else (s, .wait)
      match x with
      | (s, .ok ipa) => stage2For s { h with ipa := some ipa, leaf := guestLeaf s v a } ipa
      | (s, .wait) => (joinRow s h, .wait)
      | x => x
  | 1 => match partOfThread s n with
    | none => (s, .fault causeSegment)
    | some p => (s, if stewardReaches (partOf s p) a ∨ inConfig a then .ok a else .fault causeSegment)
  | _ => (s, if inHbm a ∨ inCxl a ∨ inHost a ∨ inConfig a then .ok a else .fault causeSegment)

/-- Where a thread's access of up to 8 bytes goes, or what it waits for or raises: a write to a frame that a snapshot has
still to save waits too (R372). -/
def threadXlat (s : State) (n : ThreadId) (a : Nat) (r : Right) : State × Xlat :=
  match threadMap s n a r with
  | (s1, .ok pa) => if r = .write ∧ unsaved s pa 1 then (wantSaved s pa 1, .wait) else (s1, .ok pa)
  | x => x

/-! ### Instruction fetch -/

/-- The bytes of a word, or the cause that its fetch raises with its value, or a wait (R148, R378). -/
inductive Fetched where
  | bytes (bs : List Byte)
  | wait
  | fault (cause : Nat) (val : Word)
  deriving DecidableEq, Repr

/-- Fetch `n` bytes for a tile's stream through its TLB (R148). -/
def fetchTile (s : State) (t : TileId) (st : Stream) (k : Task) (pc : Word) (n : Nat) : State × Fetched :=
  match tileXlatFor s (.fetch t st) t k pc.toNat .fetch with
  | (s, .ok (ipa, pa)) => match badIn s pa n with
    | some a => (s, .fault causeEcc (word a))
    | none => (s, .bytes ((List.range n).map fun i => taskByte s t (ipa + i) (pa + i)))
  | (s, .error (.fault c)) => (s, .fault c pc)
  | (s, .error (.ecc a)) => (s, .fault causeEcc (word a))
  | (s, .error _) => (s, .wait)

/-- Fetch a word for a thread: Keeper threads from the firmware image, others from the partition's code region (R378). -/
def fetchThread (s : State) (n : ThreadId) (pc : Word) : Fetched :=
  if isKeeper n then
    if pc.toNat + 4 ≤ s.firmwareSize then .bytes (mread s.firmware pc.toNat 4) else .fault causeSegment pc
  else match partOfThread s n with
    | none => .wait
    | some p =>
      let q := partOf s p
      if q.codeSize ≤ pc.toNat then .fault causeSegment pc
      else match badIn s (q.codeBase + pc.toNat) 4 with
        | some a => .fault causeEcc (word a)
        | none => .bytes (physRead s (q.codeBase + pc.toNat) 4)

end Sys2Proof.Machine
end

