-- ==== Sys2Proof/Machine/Operands.lean ====
section
/-! DEFINITION. Operand forms: immediates, scratchpad and core-local offsets, bank interleave, records read by offset,
counter specifiers (03 R61; 05 R128, R155; 08 R244, R245; 13 R377). -/

namespace Sys2Proof.Machine

/-- A field sign-extended to 64 bits (R61). -/
def sx {n : Nat} (v : BitVec n) : Word := v.signExtend 64

/-- A branch target: `unit` bytes for each word of the signed offset (R61, R203, R229). -/
def target {n : Nat} (pc : Word) (unit : Nat) (o : BitVec n) : Word := pc + word unit * sx o

/-- The low `n` bytes of a word, sign-extended (R155, R156). -/
def sextBytes (n : Nat) (w : Nat) : Word :=
  match n with
  | 1 => sx (BitVec.ofNat 8 w)
  | 2 => sx (BitVec.ofNat 16 w)
  | 4 => sx (BitVec.ofNat 32 w)
  | _ => word w

/-- Base and log2 size of the window in force on a tile (R128). -/
def winOf (T : Tile) : Nat × Nat :=
  match T.task with
  | some k => (k.base, k.log2)
  | none => (0, 12)

/-- The scratchpad byte of a window offset in linear mode (R18, R128). -/
def winAddr (T : Tile) (o : Nat) : Nat := (winOf T).1 + o % 2 ^ (winOf T).2

/-- The offset, in linear mode, of the place that mode and mask give a reduced offset (R244). -/
def interleaved (mode mask o : Nat) : Nat :=
  let row := o / 1024
  let c := o / 16 % 64
  let bank := match mode with
    | 1 => c ^^^ (row &&& mask)
    | 2 => (c + row) % 64
    | _ => c
  row * 1024 + bank % 64 * 16 + o % 16

/-- The scratchpad byte of a window offset in an interleave mode (R244). -/
def winAddrIn (T : Tile) (mode mask o : Nat) : Nat :=
  (winOf T).1 + interleaved mode mask (o % 2 ^ (winOf T).2)

/-- Read bytes of a tile's window, each offset reduced (R128). -/
def winRead (T : Tile) (o n : Nat) : List Byte := (List.range n).map fun i => mget T.spad (winAddr T (o + i))

/-- Write bytes of a tile's window, each offset reduced (R128). -/
def winWrite (T : Tile) (o : Nat) : List Byte → Tile
  | [] => T
  | b :: bs => winWrite { T with spad := mset T.spad (winAddr T o) b } (o + 1) bs

/-- A 64-bit word of the window. -/
def winWord (T : Tile) (o : Nat) : Word := word (leNat (winRead T o 8))
def winWordPut (T : Tile) (o : Nat) (w : Word) : Tile := winWrite T o (leBytes 8 w.toNat)

/-- A record of `n` words of the window. -/
def winWords (T : Tile) (o n : Nat) : List Word := (List.range n).map fun i => winWord T (o + 8 * i)

/-- Read bytes of a core-local store, reduced modulo 16 KiB (R377). -/
def storeRead (h : Thread) (o n : Nat) : List Byte := (List.range n).map fun i => mget h.store ((o + i) % 16384)
def storeWrite (h : Thread) (o : Nat) : List Byte → Thread
  | [] => h
  | b :: bs => storeWrite { h with store := mset h.store (o % 16384) b } (o + 1) bs
def storeWord (h : Thread) (o : Nat) : Word := word (leNat (storeRead h o 8))
def storeWords (h : Thread) (o n : Nat) : List Word := (List.range n).map fun i => storeWord h (o + 8 * i)
def storePutWords (h : Thread) (o : Nat) : List Word → Thread
  | [] => h
  | w :: ws => storePutWords (storeWrite h o (leBytes 8 w.toNat)) (o + 8) ws

/-- The local bytes of the agent in turn: the task window on a tile, the core-local store on a thread (R155). -/
def localRead (s : State) (o n : Nat) : List Byte :=
  match s.cur with
  | .tile t _ => winRead (tileOf s t) o n
  | .thread h => storeRead (thrOf s h) o n

def localWrite (s : State) (o : Nat) (bs : List Byte) : State :=
  match s.cur with
  | .tile t _ => modTile s t fun T => winWrite T o bs
  | .thread h => modThr s h fun H => storeWrite H o bs

/-- A record of `n` words at a local offset whose bits [2:0] are ignored. -/
def localWords (s : State) (o n : Nat) : List Word :=
  (List.range n).map fun i => word (leNat (localRead s (o / 8 * 8 + 8 * i) 8))

/-- The local offset xa + sext(imm13) (R155). -/
def localOff (s : State) (a : XReg) (i : BitVec 13) : Nat := (rx s a + sx i).toNat

/-- An S-ISA word that a tile's S stream and a thread may both issue (R62). -/
def scalar (s : State) (i : Instr) (f : Result) : Result :=
  match s.cur with
  | .tile _ .S => f
  | .thread _ => f
  | _ => illegal s i

/-- Write xd and go on. -/
def wr (s : State) (d : XReg) (w : Word) : Result := done4 (wx s d w)

/-- A counter specifier (R245): none, a window offset, a virtual address, or KIND 3. -/
inductive CounterSpec where
  | none
  | scratch (off : Nat)
  | glob (va : Nat)
  | bad
  deriving DecidableEq, Repr

def counterSpec (w : Word) : CounterSpec :=
  match w.toNat % 4 with
  | 0 => .none
  | 1 => .scratch (bfld w 20 3 * 8)
  | 2 => .glob (bfld w 55 3 * 8)
  | _ => .bad

/-- The VF of the agent in turn: VFINFO.VF of a task or a Guest thread; none for a Steward or Keeper (R277). -/
def issuerVf (s : State) : Option VfId :=
  match s.cur with
  | .tile t _ => (tileOf s t).task.map Task.vf
  | .thread n => if (thrOf s n).home = 0 then vfOfThread s n else none

/-- The partition of the agent in turn. -/
def issuerPart (s : State) : Option PartId :=
  match s.cur with
  | .tile t _ => (tileOf s t).task.map Task.part
  | .thread n => partOfThread s n

end Sys2Proof.Machine
end

