-- ==== Sys2Proof/Machine/Flags.lean ====
section
/-! DEFINITION. Floating-point state of a stream: sticky flags, the dynamic mode, and draws from its generator
(02 R37, R40 to R47). -/

namespace Sys2Proof.Machine

/-- Raise flags in an FPSR; flags are sticky (R47). -/
def raised (fpsr : Word) (f : Flags) : Word := fpsr ||| f.setWidth 64

/-- Raise flags in the FPSR of a tile's stream. -/
def addFlagsT (T : Tile) (st : Stream) (f : Flags) : Tile := modStrm T st fun c => { c with fpsr := raised c.fpsr f }

/-- Raise flags in the FPSR of the agent in turn. -/
def addFlags (s : State) (f : Flags) : State :=
  match s.cur with
  | .tile t st => modTile s t fun T => addFlagsT T st f
  | .thread n => modThr s n fun h => { h with fpsr := raised h.fpsr f }

/-- draw16 (R40): the next 16 bits and the generator after it. -/
def draw16 (g : Gen) : Nat × Gen :=
  if g.half then ((g.x >>> 16).toNat, { g with half := false })
  else
    let x := xorshift g.x
    (x.toNat % 65536, { x := x, half := true })

/-- `n` draws, in order. -/
def draws (g : Gen) : Nat → List Nat × Gen
  | 0 => ([], g)
  | n + 1 =>
    let d := draw16 g
    let r := draws d.2 n
    (d.1 :: r.1, r.2)

/-- The salt of a stream (R41). -/
def salt : Stream → BitVec 32
  | .S => 0
  | .V => 0x6A09E667
  | .M => 0xBB67AE85
  | .A => 0x3C6EF372

/-- A generator seeded from FPCR.SEED (R41). -/
def seeded (fpcr : Word) (st : Stream) : Gen := { x := seedWord ((fpcr >>> 32).setWidth 32) (salt st), half := false }

/-- FPCR.RM (R46). -/
def fpcrRm (w : Word) : Nat := w.toNat % 8

/-- FPCR of the agent in turn: the stream's copy, or the thread's. -/
def fpcrOf (s : State) : Word :=
  match s.cur with
  | .tile t st => (strm (tileOf s t) st).fpcr
  | .thread n => (thrOf s n).fpcr

/-- The generator of the agent in turn. -/
def genOf (s : State) : Gen :=
  match s.cur with
  | .tile t st => (strm (tileOf s t) st).gen
  | .thread n => (thrOf s n).gen

def setGen (s : State) (g : Gen) : State :=
  match s.cur with
  | .tile t st => modTile s t fun T => modStrm T st fun c => { c with gen := g }
  | .thread n => modThr s n fun h => { h with gen := g }

/-- One draw, taken exactly where the mode is SR (R42). -/
def drawFor (s : State) (mode : Nat) : Nat × State :=
  if mode = 5 then
    let d := draw16 (genOf s)
    (d.1, setGen s d.2)
  else (0, s)

/-- FPCR after a write: reserved bits stay 0 and an RM of 6 or 7 leaves RM (R37, R46). -/
def fpcrNext (old v : Word) : Word :=
  word (bfld v 63 32 * 2 ^ 32 + (if v.toNat % 8 ≤ 5 then v.toNat % 8 else fpcrRm old))

/-- A write of FPCR by the agent in turn reseeds its S generator (R41). -/
def writeFpcr (s : State) (v : Word) : State :=
  match s.cur with
  | .tile t _ => modTile s t fun T => { T with s :=
      let w := fpcrNext T.s.fpcr v
      { T.s with fpcr := w, gen := seeded w .S } }
  | .thread n => modThr s n fun h =>
      let w := fpcrNext h.fpcr v
      { h with fpcr := w, gen := seeded w .S }

end Sys2Proof.Machine
end

