-- ==== Sys2Proof/Machine/Scalar.lean ====
section
/-! DEFINITION. Scalar integer, bitfield, control and local-store words (05 R149 to R157). -/

namespace Sys2Proof.Machine

/-! ### Integer functions -/

/-- The signed high half of a product (R150). -/
def mulHighS (a b : Word) : Word := BitVec.ofInt 64 (a.toInt * b.toInt / 2 ^ 64)
/-- The unsigned high half of a product (R150). -/
def mulHighU (a b : Word) : Word := word (a.toNat * b.toNat / 2 ^ 64)
/-- Signed division (R151): all ones by 0, and -2^63 by -1 gives -2^63. -/
def divS (a b : Word) : Word := if b = 0 then -1 else a.sdiv b
def divU (a b : Word) : Word := if b = 0 then -1 else a / b
/-- Signed remainder (R151): the dividend by 0. -/
def remS (a b : Word) : Word := if b = 0 then a else a.srem b
def remU (a b : Word) : Word := if b = 0 then a else a % b
def minS (a b : Word) : Word := if a.slt b then a else b
def maxS (a b : Word) : Word := if a.slt b then b else a
def minU (a b : Word) : Word := if a.ult b then a else b
def maxU (a b : Word) : Word := if a.ult b then b else a

/-- Zero bits below the lowest 1 among the low `n` bits; `n` when they are all 0. -/
def lowZeros (w : Word) : Nat → Nat
  | 0 => 0
  | n + 1 => if w.getLsbD 0 then 0 else 1 + lowZeros (w >>> 1) n

/-- The number of 1 bits among the low `n` bits. -/
def ones (w : Word) : Nat → Nat
  | 0 => 0
  | n + 1 => (if w.getLsbD 0 then 1 else 0) + ones (w >>> 1) n

/-! ### Bitfields (R153): position `p`, length `l` + 1 -/

def fieldMask (l : Fin 64) : Word := word (2 ^ (l.val + 1) - 1)
def fieldOf (a : Word) (p l : Fin 64) : Word := (a >>> p.val) &&& fieldMask l
def signField (f : Word) (l : Fin 64) : Word := (f <<< (63 - l.val)).sshiftRight (63 - l.val)
def insField (d a : Word) (p l : Fin 64) : Word :=
  (d &&& ~~~(fieldMask l <<< p.val)) ||| ((a <<< p.val) &&& (fieldMask l <<< p.val))

/-- A word whose fields keep the limits of its form; any other raises ILLEGAL_INSTR (R78). -/
def checked (s : State) (i : Instr) (f : Result) : Result := if wellFormed i then f else illegal s i

/-! ### Control, loads, stores and atomics -/

/-- Continue at the target where the condition holds (R154). -/
def branch (s : State) (c : Bool) (o : BitVec 13) : Result :=
  if c then .next (setPc s (target (pcOf s) 4 o)) else done4 s

/-- A load of `n` bytes, sign- or zero-extended (R155). -/
def loadLocal (s : State) (d a : XReg) (i : BitVec 13) (n : Nat) (signed : Bool) : Result :=
  let v := leNat (localRead s (localOff s a i) n)
  wr s d (if signed then sextBytes n v else word v)

/-- A store of a register's low `n` bytes (R155). -/
def storeLocal (s : State) (r a : XReg) (i : BitVec 13) (n : Nat) : Result :=
  done4 (localWrite s (localOff s a i) (leBytes n (rx s r).toNat))

/-- Bytes of an atomic's size field: 2 .W, 3 .D (R65). -/
def atomicBytes (z : Fin 4) : Nat := 2 ^ z.val

/-- The new value of an atomic of `n` bytes (R65, R156). -/
def atomicOp (n : Nat) (o : Fin 32) (old new : Nat) : Nat :=
  let a : Word := sextBytes n old
  let b : Word := sextBytes n new
  let r : Word := match o.val with
    | 0 => a + b
    | 1 => b
    | 2 => a &&& b
    | 3 => a ||| b
    | 4 => a ^^^ b
    | 5 => minS a b
    | 6 => maxS a b
    | 7 => minU a b
    | _ => maxU a b
  r.toNat % 2 ^ (8 * n)

/-! ### The words -/

/-- ADD: the sum modulo 2^64 (R150). -/
def execAdd (d a b : XReg) (s : State) : Result :=
  scalar s (.add d a b) (wr s d (rx s a + rx s b))

/-- SUB: the difference modulo 2^64 (R150). -/
def execSub (d a b : XReg) (s : State) : Result :=
  scalar s (.sub d a b) (wr s d (rx s a - rx s b))

/-- MUL: the low half of the product (R150). -/
def execMul (d a b : XReg) (s : State) : Result :=
  scalar s (.mul d a b) (wr s d (rx s a * rx s b))

/-- MULHS: the signed high half (R150). -/
def execMulhs (d a b : XReg) (s : State) : Result :=
  scalar s (.mulhs d a b) (wr s d (mulHighS (rx s a) (rx s b)))

/-- MULHU: the unsigned high half (R150). -/
def execMulhu (d a b : XReg) (s : State) : Result :=
  scalar s (.mulhu d a b) (wr s d (mulHighU (rx s a) (rx s b)))

/-- DIV: signed quotient, toward zero (R151). -/
def execDiv (d a b : XReg) (s : State) : Result :=
  scalar s (.div d a b) (wr s d (divS (rx s a) (rx s b)))

/-- DIVU: unsigned quotient (R151). -/
def execDivu (d a b : XReg) (s : State) : Result :=
  scalar s (.divu d a b) (wr s d (divU (rx s a) (rx s b)))

/-- REM: signed remainder, with the dividend's sign (R151). -/
def execRem (d a b : XReg) (s : State) : Result :=
  scalar s (.rem d a b) (wr s d (remS (rx s a) (rx s b)))

/-- REMU: unsigned remainder (R151). -/
def execRemu (d a b : XReg) (s : State) : Result :=
  scalar s (.remu d a b) (wr s d (remU (rx s a) (rx s b)))

/-- AND (R150). -/
def execAnd (d a b : XReg) (s : State) : Result :=
  scalar s (.and d a b) (wr s d (rx s a &&& rx s b))

/-- OR (R150). -/
def execOr (d a b : XReg) (s : State) : Result :=
  scalar s (.or d a b) (wr s d (rx s a ||| rx s b))

/-- XOR (R150). -/
def execXor (d a b : XReg) (s : State) : Result :=
  scalar s (.xor d a b) (wr s d (rx s a ^^^ rx s b))

/-- ANDN: xa and not xb (R150). -/
def execAndn (d a b : XReg) (s : State) : Result :=
  scalar s (.andn d a b) (wr s d (rx s a &&& ~~~(rx s b)))

/-- SHL by xb[5:0] (R150). -/
def execShl (d a b : XReg) (s : State) : Result :=
  scalar s (.shl d a b) (wr s d (rx s a <<< ((rx s b).toNat % 64)))

/-- SHR by xb[5:0] (R150). -/
def execShr (d a b : XReg) (s : State) : Result :=
  scalar s (.shr d a b) (wr s d (rx s a >>> ((rx s b).toNat % 64)))

/-- SAR by xb[5:0] (R150). -/
def execSar (d a b : XReg) (s : State) : Result :=
  scalar s (.sar d a b) (wr s d ((rx s a).sshiftRight ((rx s b).toNat % 64)))

/-- ROL by xb[5:0] (R150). -/
def execRol (d a b : XReg) (s : State) : Result :=
  scalar s (.rol d a b) (wr s d ((rx s a).rotateLeft ((rx s b).toNat % 64)))

/-- MIN, signed (R150). -/
def execMin (d a b : XReg) (s : State) : Result :=
  scalar s (.min d a b) (wr s d (minS (rx s a) (rx s b)))

/-- MINU (R150). -/
def execMinu (d a b : XReg) (s : State) : Result :=
  scalar s (.minu d a b) (wr s d (minU (rx s a) (rx s b)))

/-- MAX, signed (R150). -/
def execMax (d a b : XReg) (s : State) : Result :=
  scalar s (.max d a b) (wr s d (maxS (rx s a) (rx s b)))

/-- MAXU (R150). -/
def execMaxu (d a b : XReg) (s : State) : Result :=
  scalar s (.maxu d a b) (wr s d (maxU (rx s a) (rx s b)))

/-- SLT, signed (R150). -/
def execSlt (d a b : XReg) (s : State) : Result :=
  scalar s (.slt d a b) (wr s d (flagWord ((rx s a).slt (rx s b))))

/-- SLTU (R150). -/
def execSltu (d a b : XReg) (s : State) : Result :=
  scalar s (.sltu d a b) (wr s d (flagWord ((rx s a).ult (rx s b))))

/-- SEQ (R150). -/
def execSeq (d a b : XReg) (s : State) : Result :=
  scalar s (.seq d a b) (wr s d (flagWord (decide (rx s a = rx s b))))

/-- CLZ: zero bits above the highest 1; 64 for 0 (R150). -/
def execClz (d a : XReg) (s : State) : Result :=
  scalar s (.clz d a) (wr s d (word (64 - bitLen (rx s a).toNat)))

/-- CTZ: zero bits below the lowest 1; 64 for 0 (R150). -/
def execCtz (d a : XReg) (s : State) : Result :=
  scalar s (.ctz d a) (wr s d (word (lowZeros (rx s a) 64)))

/-- POPC: the number of 1 bits (R150). -/
def execPopc (d a : XReg) (s : State) : Result :=
  scalar s (.popc d a) (wr s d (word (ones (rx s a) 64)))

/-- SEL: bits of xa where xd holds 1, of xb elsewhere (R150). -/
def execSel (d a b : XReg) (s : State) : Result :=
  scalar s (.sel d a b) (wr s d ((rx s a &&& rx s d) ||| (rx s b &&& ~~~(rx s d))))

/-- ADDI (R152). -/
def execAddi (d a : XReg) (i : BitVec 13) (s : State) : Result :=
  scalar s (.addi d a i) (wr s d (rx s a + sx i))

/-- ANDI (R152). -/
def execAndi (d a : XReg) (i : BitVec 13) (s : State) : Result :=
  scalar s (.andi d a i) (wr s d (rx s a &&& sx i))

/-- ORI (R152). -/
def execOri (d a : XReg) (i : BitVec 13) (s : State) : Result :=
  scalar s (.ori d a i) (wr s d (rx s a ||| sx i))

/-- XORI (R152). -/
def execXori (d a : XReg) (i : BitVec 13) (s : State) : Result :=
  scalar s (.xori d a i) (wr s d (rx s a ^^^ sx i))

/-- SHLI (R152). -/
def execShli (d a : XReg) (n : Fin 64) (s : State) : Result :=
  scalar s (.shli d a n) (wr s d (rx s a <<< n.val))

/-- SHRI (R152). -/
def execShri (d a : XReg) (n : Fin 64) (s : State) : Result :=
  scalar s (.shri d a n) (wr s d (rx s a >>> n.val))

/-- SARI (R152). -/
def execSari (d a : XReg) (n : Fin 64) (s : State) : Result :=
  scalar s (.sari d a n) (wr s d ((rx s a).sshiftRight n.val))

/-- SLTI, signed (R152). -/
def execSlti (d a : XReg) (i : BitVec 13) (s : State) : Result :=
  scalar s (.slti d a i) (wr s d (flagWord ((rx s a).slt (sx i))))

/-- SLTIU, against the sign-extended immediate taken unsigned (R152). -/
def execSltiu (d a : XReg) (i : BitVec 13) (s : State) : Result :=
  scalar s (.sltiu d a i) (wr s d (flagWord ((rx s a).ult (sx i))))

/-- LIH: the immediate x 2^13, sign-extended (R152). -/
def execLih (d : XReg) (i : BitVec 19) (s : State) : Result :=
  scalar s (.lih d i) (wr s d (sx i <<< 13))

/-- EXTU: the field, zero-extended (R153). -/
def execExtu (d a : XReg) (p l : Fin 64) (s : State) : Result :=
  scalar s (.extu d a p l) (checked s (.extu d a p l) (wr s d (fieldOf (rx s a) p l)))

/-- EXTS: the field, sign-extended from its top bit (R153). -/
def execExts (d a : XReg) (p l : Fin 64) (s : State) : Result :=
  scalar s (.exts d a p l) (checked s (.exts d a p l) (wr s d (signField (fieldOf (rx s a) p l) l)))

/-- INS: xa's low bits into the field of xd (R153). -/
def execIns (d a : XReg) (p l : Fin 64) (s : State) : Result :=
  scalar s (.ins d a p l) (checked s (.ins d a p l) (wr s d (insField (rx s d) (rx s a) p l)))

/-- BEQ (R154). -/
def execBeq (a b : XReg) (o : BitVec 13) (s : State) : Result :=
  scalar s (.beq a b o) (branch s (decide (rx s a = rx s b)) o)

/-- BNE (R154). -/
def execBne (a b : XReg) (o : BitVec 13) (s : State) : Result :=
  scalar s (.bne a b o) (branch s (decide (rx s a ≠ rx s b)) o)

/-- BLT, signed (R154). -/
def execBlt (a b : XReg) (o : BitVec 13) (s : State) : Result :=
  scalar s (.blt a b o) (branch s ((rx s a).slt (rx s b)) o)

/-- BGE, signed (R154). -/
def execBge (a b : XReg) (o : BitVec 13) (s : State) : Result :=
  scalar s (.bge a b o) (branch s (!(rx s a).slt (rx s b)) o)

/-- BLTU (R154). -/
def execBltu (a b : XReg) (o : BitVec 13) (s : State) : Result :=
  scalar s (.bltu a b o) (branch s ((rx s a).ult (rx s b)) o)

/-- BGEU (R154). -/
def execBgeu (a b : XReg) (o : BitVec 13) (s : State) : Result :=
  scalar s (.bgeu a b o) (branch s (!(rx s a).ult (rx s b)) o)

/-- J (R154). -/
def execJ (o : BitVec 19) (s : State) : Result :=
  scalar s (.j o) (.next (setPc s (target (pcOf s) 4 o)))

/-- JAL: jumps and writes the address after it (R154). -/
def execJal (d : XReg) (o : BitVec 19) (s : State) : Result :=
  scalar s (.jal d o) (.next (setPc (wx s d (pcOf s + 4)) (target (pcOf s) 4 o)))

/-- JALR: to xa + imm, a multiple of 4 or MISALIGNED (R61, R154). -/
def execJalr (d a : XReg) (i : BitVec 13) (s : State) : Result :=
  scalar s (.jalr d a i)
    (let t := rx s a + sx i
     if t.toNat % 4 ≠ 0 then raise s causeMisaligned t else .next (setPc (wx s d (pcOf s + 4)) t))

/-- LDS.B (R155). -/
def execLdsB (d a : XReg) (i : BitVec 13) (s : State) : Result :=
  scalar s (.ldsB d a i) (loadLocal s d a i 1 true)

/-- LDS.BU (R155). -/
def execLdsBu (d a : XReg) (i : BitVec 13) (s : State) : Result :=
  scalar s (.ldsBu d a i) (loadLocal s d a i 1 false)

/-- LDS.H (R155). -/
def execLdsH (d a : XReg) (i : BitVec 13) (s : State) : Result :=
  scalar s (.ldsH d a i) (loadLocal s d a i 2 true)

/-- LDS.HU (R155). -/
def execLdsHu (d a : XReg) (i : BitVec 13) (s : State) : Result :=
  scalar s (.ldsHu d a i) (loadLocal s d a i 2 false)

/-- LDS.W (R155). -/
def execLdsW (d a : XReg) (i : BitVec 13) (s : State) : Result :=
  scalar s (.ldsW d a i) (loadLocal s d a i 4 true)

/-- LDS.WU (R155). -/
def execLdsWu (d a : XReg) (i : BitVec 13) (s : State) : Result :=
  scalar s (.ldsWu d a i) (loadLocal s d a i 4 false)

/-- LDS.D (R155). -/
def execLdsD (d a : XReg) (i : BitVec 13) (s : State) : Result :=
  scalar s (.ldsD d a i) (loadLocal s d a i 8 false)

/-- STS.B (R155). -/
def execStsB (r a : XReg) (i : BitVec 13) (s : State) : Result :=
  scalar s (.stsB r a i) (storeLocal s r a i 1)

/-- STS.H (R155). -/
def execStsH (r a : XReg) (i : BitVec 13) (s : State) : Result :=
  scalar s (.stsH r a i) (storeLocal s r a i 2)

/-- STS.W (R155). -/
def execStsW (r a : XReg) (i : BitVec 13) (s : State) : Result :=
  scalar s (.stsW r a i) (storeLocal s r a i 4)

/-- STS.D (R155). -/
def execStsD (r a : XReg) (i : BitVec 13) (s : State) : Result :=
  scalar s (.stsD r a i) (storeLocal s r a i 8)

/-- AMOS: atomic read-modify-write of the local store (R156). -/
def execAmos (d a b : XReg) (z : Fin 4) (o : Fin 32) (s : State) : Result :=
  scalar s (.amos d a b z o) (checked s (.amos d a b z o)
    (let n := atomicBytes z
     let at_ := (rx s a).toNat / n * n
     let old := leNat (localRead s at_ n)
     wr (localWrite s at_ (leBytes n (atomicOp n o old (rx s b).toNat))) d (sextBytes n old)))

/-- CASS: atomic compare-and-swap of the local store (R156). -/
def execCass (d a b : XReg) (z : Fin 4) (s : State) : Result :=
  scalar s (.cass d a b z) (checked s (.cass d a b z)
    (let n := atomicBytes z
     let at_ := (rx s a).toNat / n * n
     let old := leNat (localRead s at_ n)
     let s1 := if old = (rx s d).toNat % 2 ^ (8 * n) then localWrite s at_ (leBytes n (rx s b).toNat) else s
     wr s1 d (sextBytes n old)))

end Sys2Proof.Machine
end

