-- ==== Sys2Proof/Machine/Engine.lean ====
section
/-! DEFINITION. Engine streams: the parameter stack, loops and branches, and the command queues (03 R74 to R77;
07 R206 to R208, R229; 08 R231, R232, R234). -/

namespace Sys2Proof.Machine

/-! ### The parameter stack (R74) -/

/-- STACK: TVAL holds the engine word (R108). -/
def stackFault (s : State) (i : Instr) : Result := raise s causeStack (insnWord i)

/-- A stream's parameter stack, top first. -/
def stackOf (s : State) (t : TileId) (st : Stream) : List Word := (strm (tileOf s t) st).stack
def setStack (s : State) (t : TileId) (st : Stream) (ws : List Word) : State :=
  modTile s t fun T => modStrm T st fun c => { c with stack := ws }

/-- Take `n` entries, top first; fewer raise STACK and nothing is popped. -/
def withStack (s : State) (i : Instr) (t : TileId) (st : Stream) (n : Nat) (f : List Word → List Word → Result) : Result :=
  let ws := stackOf s t st
  if ws.length < n then stackFault s i else f (ws.take n) (ws.drop n)

/-- A word that replaces the top `n` entries; a ninth entry raises STACK. -/
def stackWord (s : State) (i : Instr) (n : Nat) (f : List Word → List Word) : Result :=
  onEngine s i fun t st _ => withStack s i t st n fun as ws =>
    let r := f as ++ ws
    if 8 < r.length then stackFault s i else done2 (setStack s t st r)

/-- LIT (R74). -/
def execLit (i : BitVec 15) (s : State) : Result := stackWord s (.lit i) 0 fun _ => [sx i]
/-- LITX (R74). -/
def execLitx (i : BitVec 14) (s : State) : Result :=
  stackWord s (.litx i) 1 fun as => [(recw as 0 <<< 14) ||| i.setWidth 64]
/-- DUP (R229). -/
def execDup (s : State) : Result := stackWord s .dup 1 fun as => as ++ as
/-- DROP (R229). -/
def execDrop (s : State) : Result := stackWord s .drop 1 fun _ => []
/-- SWAP (R229). -/
def execSwap (s : State) : Result := stackWord s .swap 2 List.reverse
/-- OVER (R229). -/
def execOver (s : State) : Result := stackWord s .over 2 fun as => as.drop 1 ++ as
/-- ADD (R229). -/
def execEngineAdd (s : State) : Result := stackWord s .engineAdd 2 fun as => [recw as 1 + recw as 0]
/-- SUB (R229). -/
def execEngineSub (s : State) : Result := stackWord s .engineSub 2 fun as => [recw as 1 - recw as 0]

/-! ### Loops and branches (R229) -/

/-- Loop counter l0 or l1. -/
def loopReg (c : StreamCtx) (l : Bool) : Word := if l then c.l1 else c.l0
def setLoopReg (c : StreamCtx) (l : Bool) (w : Word) : StreamCtx := if l then { c with l1 := w } else { c with l0 := w }
def modLoop (s : State) (t : TileId) (st : Stream) (l : Bool) (w : Word) : State :=
  modTile s t fun T => modStrm T st fun c => setLoopReg c l w

/-- DO. -/
def execEngineDo (l : Bool) (s : State) : Result :=
  onEngine s (.engineDo l) fun t st _ => withStack s (.engineDo l) t st 1 fun as ws =>
    done2 (modLoop (setStack s t st ws) t st l (recw as 0))

/-- LOOP. -/
def execEngineLoop (l : Bool) (d : Fin 128) (s : State) : Result :=
  onEngine s (.engineLoop l d) fun t st _ => checked s (.engineLoop l d)
    (let n := loopReg (strm (tileOf s t) st) l - 1
     let s1 := modLoop s t st l n
     if 0 < n.toInt then .next (setPc s1 (pcOf s1 - word (2 * d.val))) else done2 s1)

/-- BR. -/
def execEngineBr (o : BitVec 8) (s : State) : Result :=
  onEngine s (.engineBr o) fun _ _ _ => .next (setPc s (target (pcOf s) 2 o))

/-- BZ. -/
def execEngineBz (o : BitVec 8) (s : State) : Result :=
  onEngine s (.engineBz o) fun t st _ => withStack s (.engineBz o) t st 1 fun as ws =>
    let s1 := setStack s t st ws
    if recw as 0 = 0 then .next (setPc s1 (target (pcOf s1) 2 o)) else done2 s1

/-! ### Command queues (R207, R232) -/

/-- An engine's commands that have not completed, in issue order. -/
def cmdsOf (T : Tile) (onM : Bool) : List Cmd := if onM then T.cmdsM else T.cmdsA
def setCmds (T : Tile) (onM : Bool) (cs : List Cmd) : Tile := if onM then { T with cmdsM := cs } else { T with cmdsA := cs }
def modCmd (T : Tile) (onM : Bool) (id : Nat) (f : Cmd → Cmd) : Tile :=
  setCmds T onM ((cmdsOf T onM).map fun c => if c.id = id then f c else c)
def dropCmd (T : Tile) (onM : Bool) (id : Nat) : Tile := setCmds T onM ((cmdsOf T onM).filter fun c => decide (c.id ≠ id))
def findCmd (T : Tile) (onM : Bool) (id : Nat) : Option Cmd := (cmdsOf T onM).find? fun c => decide (c.id = id)

/-- The tile as a command reads its window: with the scratchpad of its view (R221, R249). -/
def viewTile (T : Tile) (c : Cmd) : Tile :=
  match c.view with
  | some m => { T with spad := m }
  | none => T

/-- Commands that a queue holds (R207, R232). -/
def queueDepth (onM : Bool) : Nat := if onM then 4 else 16

def isM (st : Stream) : Bool := decide (st = .M)

/-- The class of a command for WAITC (R234). -/
def cmdClass : CmdKind → Nat
  | .copyin _ _ => 0
  | .gath _ _ _ => 0
  | .qstream _ _ _ => 0
  | .mlr _ _ _ _ => 0
  | .pref _ _ => 0
  | .copyout _ _ => 1
  | .scat _ _ _ => 1
  | .qdrain _ _ => 1
  | .mst _ _ _ => 1
  | .nest _ _ _ => 2
  | .pegp _ => 3
  | .ctradd _ _ _ => 3
  | .mma _ _ _ _ => 3
  | .accz _ => 3
  | .accdrain _ => 3
  | .scaleset _ _ => 3

/-- Outstanding commands of a class. -/
def outstanding (cs : List Cmd) (k : Nat) : Nat := (cs.filter fun c => decide (cmdClass c.kind = k)).length

/-- A checked command: what it does, its counter specifier, and whether issuing it sets CLAMPED (R215, R241). -/
structure Launch where
  kind : CmdKind
  cspec : Word := 0
  clamped : Bool := false
  deriving DecidableEq, Repr

/-- The command enters its engine's queue. -/
def enqueue (s : State) (t : TileId) (st : Stream) (q r : Bool) (sc : Fin 4) (l : Launch) : State :=
  let c : Cmd := { id := s.seq, kind := l.kind, acq := q, rel := r, scope := sc, cspec := l.cspec,
                   pc := (strm (tileOf s t) st).pc, order := s.seq, issued := acOf s t }
  let T := tileOf s t
  let T := setCmds T (isM st) (cmdsOf T (isM st) ++ [c])
  { setTile s t (if l.clamped then addFlagsT T st fClamped else T) with seq := s.seq + 1 }

/-- The command for whose completion a stream stalls: the oldest, if the queue is full as the word comes to issue, and from
then on that one (R207, R232). -/
def stallOn (T : Tile) (st : Stream) : Option Nat :=
  let cs := cmdsOf T (isM st)
  match (strm T st).stall with
  | some id => if cs.any (fun c => decide (c.id = id)) then some id else none
  | none => if queueDepth (isM st) ≤ cs.length then cs.head?.map Cmd.id else none

/-- Note for which command a stream stalls. -/
def setStall (s : State) (t : TileId) (st : Stream) (o : Option Nat) : State :=
  modTile s t fun T => modStrm T st fun c => { c with stall := o }

/-- A stream that stalls for no command any more. -/
def unstall (s : State) (t : TileId) (st : Stream) : State :=
  if (strm (tileOf s t) st).stall = none then s else setStall s t st none

/-- A command word (R207, R208, R232): a full queue stalls it until the oldest completes; a failed check raises its cause and
pops nothing. -/
def command (s : State) (i : Instr) (t : TileId) (st : Stream) (n : Nat) (q r : Bool) (sc : Fin 4)
    (f : List Word → Except (Nat × Word) Launch) : Result :=
  checked s i
    (match stallOn (tileOf s t) st with
     | some id => .next (setStall s t st (some id))
     | none =>
       let s := unstall s t st
       withStack s i t st n fun as ws =>
         match f as with
         | .error (c, v) => raise s c v
         | .ok l => done2 (enqueue (setStack s t st ws) t st q r sc l))

/-- The check of a counter specifier at issue (R245). -/
def specChecked (w : Word) (l : Launch) : Except (Nat × Word) Launch :=
  match counterSpec w with
  | .bad => .error (causeInvalid, w)
  | .glob _ => if bfld w 63 56 ≠ 0 then .error (causePermission, w &&& ~~~(7 : Word)) else .ok { l with cspec := w }
  | _ => .ok { l with cspec := w }

end Sys2Proof.Machine
end

