-- ==== Sys2Proof/Machine/Matrix.lean ====
section
/-! DEFINITION. The matrix stream (07 R206 to R230; 02 R33 to R36, R54, R55). -/

namespace Sys2Proof.Machine

/-! ### Shape records (R211 to R215) -/

/-- The fields of a shape record; the dynamic count is laid over `live` afterwards. -/
def shapeOf (w : List Word) : Shape :=
  { off := bfld (recw w 0) 20 0, fmt := bfld (recw w 0) 24 21, interleave := bfld (recw w 0) 27 25,
    xormask := bfld (recw w 0) 33 28, transpose := bbit (recw w 0) 34, rows := bfld (recw w 1) 15 0,
    cols := bfld (recw w 1) 31 16, stride := bfld (recw w 1) 52 32, live := bfld (recw w 1) 15 0,
    scaled := bbit (recw w 3) 29, scaleFmt := bfld (recw w 3) 24 21, blockLog2 := bfld (recw w 3) 28 25,
    scaleOff := bfld (recw w 3) 20 0 }

/-- A reserved bit is set. -/
def shapeReserved (w : List Word) : Bool :=
  decide (bfld (recw w 0) 63 35 ≠ 0 ∨ bfld (recw w 1) 63 53 ≠ 0 ∨ bfld (recw w 2) 63 48 ≠ 0 ∨
    bfld (recw w 2) 31 23 ≠ 0 ∨ bfld (recw w 3) 63 30 ≠ 0)

/-- The combinations of R217. -/
def scaleAllowed (s : Shape) : Bool :=
  match s.fmt, s.scaleFmt with
  | 3, 10 => decide (s.blockLog2 = 5 ∨ s.blockLog2 = 6)
  | 4, 10 => decide (s.blockLog2 = 5 ∨ s.blockLog2 = 6)
  | 3, 1 => decide (s.blockLog2 = 5 ∨ s.blockLog2 = 6)
  | 4, 1 => decide (s.blockLog2 = 5 ∨ s.blockLog2 = 6)
  | 1, 0 => decide (s.blockLog2 = 0)
  | 2, 0 => decide (s.blockLog2 = 0)
  | 3, 0 => decide (s.blockLog2 = 0)
  | 4, 0 => decide (s.blockLog2 = 0)
  | 5, 0 => decide (s.blockLog2 = 6)
  | _, _ => false

def shapeDyn (w : List Word) : Bool := bbit (recw w 2) 21
def shapeBound (w : List Word) : Nat := bfld (recw w 2) 47 32

/-- A field is invalid (R212). -/
def shapeInvalid (isA : Bool) (w : List Word) : Bool :=
  let s := shapeOf w
  decide (10 ≤ s.fmt ∨ (isA = true ∧ s.fmt = 5) ∨ 3 ≤ s.interleave ∨
    (s.transpose = true ∧ (s.fmt = 5 ∨ fmtBits s.fmt = 32)) ∨
    (shapeDyn w = true ∧ s.rows < shapeBound w) ∨
    (s.scaled = true ∧ scaleAllowed s = false) ∨ (s.scaled = false ∧ s.fmt = 5))

/-- Read and check a shape record; the flag says that the count was clamped (R212, R215). -/
def readShape (T : Tile) (isA : Bool) (o : Word) : Except (Nat × Word) (Shape × Bool) :=
  let off := o.toNat / 32 * 32
  let w := winWords T off 4
  let s := shapeOf w
  if shapeReserved w then .error (causeReserved, word off)
  else if shapeInvalid isA w then .error (causeInvalid, word off)
  else if shapeDyn w = false then .ok (s, false)
  else
    let n := leNat (winRead T (bfld (recw w 2) 20 0 / 4 * 4) 4)
    if n ≤ shapeBound w then .ok ({ s with live := n }, false)
    else if bbit (recw w 2) 22 then .error (causeInvalid, word off)
    else .ok ({ s with live := shapeBound w }, true)

/-- Logical rows and columns (R214). -/
def Shape.lrows (s : Shape) : Nat := if s.transpose then s.cols else s.rows
def Shape.lcols (s : Shape) : Nat := if s.transpose then s.rows else s.cols

/-- The K-group width of a format pair; none for a pair that MMA does not take (R54, R219). -/
def groupWidth (a b : Nat) : Option Nat :=
  match a, b with
  | 1, 1 => some 16
  | 2, 2 => some 16
  | 3, 3 => some 32
  | 3, 4 => some 32
  | 4, 3 => some 32
  | 4, 4 => some 32
  | 1, 5 => some 64
  | 3, 5 => some 64
  | 4, 5 => some 64
  | 6, 6 => some 32
  | _, _ => none

/-- The shapes fit the array and each other (R218, R219). -/
def shapesFit (a b : Shape) : Bool :=
  decide (a.lrows ≤ 64 ∧ b.lcols ≤ 128 ∧ a.lcols = b.lrows ∧ (groupWidth a.fmt b.fmt).isSome ∧
    (b.fmt = 5 → a.lcols ≤ 16384))

/-! ### Operand elements (R213 to R217) -/

/-- Read bytes of the window in an interleave mode, each offset reduced (R128, R244). -/
def winReadIn (T : Tile) (mode mask o n : Nat) : List Byte :=
  (List.range n).map fun i => mget T.spad (winAddrIn T mode mask (o + i))

/-- The encoding of a stored element; NQ4 gives its 4-bit code (R213). -/
def storedBits (T : Tile) (s : Shape) (r c : Nat) : Nat :=
  let o := s.off + r * s.stride
  if s.fmt = 5 then leNat (winReadIn T s.interleave s.xormask (o + c / 2) 1) / (if c % 2 = 0 then 1 else 16) % 16
  else leNat (winReadIn T s.interleave s.xormask (o + c * (fmtBits s.fmt / 8)) (fmtBits s.fmt / 8))

/-- The stored place of a logical element. -/
def storedAt (s : Shape) (r c : Nat) : Nat × Nat := if s.transpose then (c, r) else (r, c)

/-- The encoding of a logical element; none in a row beyond the dynamic count (R215). -/
def logicalBits (T : Tile) (s : Shape) (r c : Nat) : Option Nat :=
  let p := storedAt s r c
  if p.1 < s.live then some (storedBits T s p.1 p.2) else none

/-- The scale entry of index `n` (R216). -/
def scaleEntry (T : Tile) (s : Shape) (n : Nat) : Nat :=
  let size := if s.scaleFmt = 1 then 2 else 1
  leNat (winRead T (s.scaleOff + n * size) size)

/-- An operand's value and whether forming it is R55's rule 1: a signalling NaN or 0 x infinity. -/
abbrev Operand := Num × Bool

/-- An element with the scale it is multiplied by. -/
def scaledBy (x s : Num) : Operand :=
  let r := num2 mulNum x s
  (r.1, decide (r.2 ≠ 0))

/-- The value of an element from its encoding, its scale index and the superscale register (R35, R36, R217). -/
def operandValue (T : Tile) (s : Shape) (ss : Lane) (bits scaleIdx : Nat) : Operand :=
  if s.scaled = false then (widen s.fmt bits, (widen s.fmt bits).isSnan)
  else if s.fmt = 5 then
    let r := nq4 bits (scaleEntry T s scaleIdx) ss.toNat
    (r.1, decide (r.2 ≠ 0))
  else if s.scaleFmt = 0 then scaledBy (widen s.fmt bits) (widen 0 ss.toNat)
  else scaledBy (widen s.fmt bits) (widen s.scaleFmt (scaleEntry T s scaleIdx))

/-- Blocks along K (R216). -/
def scaleBlocks (s : Shape) (k : Nat) : Nat := (k + 2 ^ s.blockLog2 - 1) / 2 ^ s.blockLog2

/-- va(i, k) and vb(k, j); a filled element is +0 (R215, R220). -/
def valueA (T : Tile) (s : Shape) (i k : Nat) : Operand :=
  match logicalBits T s i k with
  | none => (.exact false 0 0, false)
  | some b => operandValue T s T.ssa b (i * scaleBlocks s s.lcols + k / 2 ^ s.blockLog2)
def valueB (T : Tile) (s : Shape) (k j : Nat) : Operand :=
  match logicalBits T s k j with
  | none => (.exact false 0 0, false)
  | some b => operandValue T s T.ssb b (k / 2 ^ s.blockLog2 * s.lcols + j)

/-! ### One group step (R54, R55) -/

/-- A product of two operands, and whether rule 1 of R55 applies to it. -/
def product (a b : Operand) : Operand :=
  match firstNan [a.1, b.1] with
  | some n => (n, a.2 || b.2)
  | none =>
    let r := mulNum a.1 b.1
    (r.1, decide (r.2 ≠ 0) || a.2 || b.2)

/-- The finite values of a list, as an integer multiple of 2^e. -/
def sumAt (e : Int) : List Num → Int
  | [] => 0
  | .fin n m e1 _ :: xs => sgnd n (m * 2 ^ (e1 - e).toNat) + sumAt e xs
  | _ :: xs => sumAt e xs

/-- The least exponent of the finite values. -/
def leastExp : List Num → Int
  | [] => 0
  | .fin _ _ e _ :: xs => min e (leastExp xs)
  | _ :: xs => leastExp xs

/-- An accumulator element after the products of one group, in FP32 (R55, rules 1 to 4). -/
def stepFloat (acc : Nat) (ps : List Operand) : Nat × Flags :=
  let a := widen 0 acc
  let xs := a :: ps.map Prod.fst
  let pos := xs.any fun x => decide (x = .inf false)
  let neg := xs.any fun x => decide (x = .inf true)
  if a.isSnan || ps.any Prod.snd || (pos && neg) then (0x7FC00000, fInvalid)
  else if xs.any Num.isNan then (0x7FC00000, 0)
  else if pos then (0x7F800000, 0)
  else if neg then (0xFF800000, 0)
  else
    let e := leastExp xs
    let v := sumAt e xs
    if v = 0 then (if xs.all Num.sign then 0x80000000 else 0, 0)
    else encodeF (floatFmt 0) 0 false 0 (.exact (decide (v < 0)) v.natAbs e)

/-- The same for INT8 operands (R54). -/
def stepInt (acc : Nat) (ps : List Int) : Nat := intBits 32 (intOf 9 acc + ps.foldl (· + ·) 0)

/-- Group step `g` of an MMA at element (i, j). -/
def stepAt (T : Tile) (a b : Shape) (g i j acc : Nat) : Nat × Flags :=
  let w := (groupWidth a.fmt b.fmt).getD 16
  let ks := (List.range (min w (a.lcols - g * w))).map (g * w + ·)
  if a.fmt = 6 then
    (stepInt acc (ks.map fun k => intOf 6 ((logicalBits T a i k).getD 0) * intOf 6 ((logicalBits T b k j).getD 0)), 0)
  else stepFloat acc (ks.map fun k => product (valueA T a i k) (valueB T b k j))

/-- Element `n` of the block takes part in an MMA of these shapes (R220). -/
def inProduct (a b : Shape) (n : Nat) : Bool := decide (n / 128 < a.lrows ∧ n % 128 < b.lcols)

/-- The block's elements after a step, with the flags raised; `n` is the element's number. One that is ahead has taken the
step (R199). -/
def stepElems (T : Tile) (a b : Shape) (ahead : Table Nat) (g : Nat) : Nat → List Lane → List (Nat × Flags)
  | _, [] => []
  | n, x :: xs =>
    (if inProduct a b n ∧ tget 0 ahead n = 0 then stepAt T a b g (n / 128) (n % 128) x.toNat else (x.toNat, 0)) ::
      stepElems T a b ahead g (n + 1) xs

theorem stepElems_length (T : Tile) (a b : Shape) (ahead : Table Nat) (g n : Nat) (xs : List Lane) :
    (stepElems T a b ahead g n xs).length = xs.length := by
  induction xs generalizing n with
  | nil => rfl
  | cons x xs ih => simp [stepElems, ih]

/-- The OR of flags. -/
def allFlags : List (Nat × Flags) → Flags
  | [] => 0
  | r :: rs => r.2 ||| allFlags rs

/-- Apply group step `g` to the elements of a block that have not taken it, the operands read from `R` (R220, R222). -/
def groupStep (T R : Tile) (a b : Shape) (ahead : Table Nat) (c : Fin 16) (g : Nat) : Tile :=
  let old := vget T.acc c
  let rs := stepElems R a b ahead g 0 old.toList
  let new : AccBlock := ⟨(rs.map fun r => BitVec.ofNat 32 r.1).toArray, by simp [rs, stepElems_length]⟩
  addFlagsT { T with acc := vset T.acc c new } .M (allFlags rs)

/-- Group steps of an MMA. -/
def groupCount (a b : Shape) : Nat :=
  let w := (groupWidth a.fmt b.fmt).getD 16
  (a.lcols + w - 1) / w

/-- Every element that is ahead is so by one step less. -/
def fallBack (ahead : Table Nat) : Table Nat := (ahead.map fun e => (e.1, e.2 - 1)).filter fun e => decide (e.2 ≠ 0)

/-- Element `n` of a block takes group step `g`, ahead of the others (R199, R222). -/
def elementStep (T R : Tile) (a b : Shape) (c : Fin 16) (g n : Nat) : Tile :=
  let i : Fin 8192 := Fin.ofNat 8192 n
  let r := stepAt R a b g (n / 128) (n % 128) (vget (vget T.acc c) i).toNat
  addFlagsT { T with acc := vset T.acc c (vset (vget T.acc c) i (BitVec.ofNat 32 r.1)) } .M r.2

/-! ### What a group step reads (R221) -/

/-- Scratchpad bytes of a stored element, and of a scale entry. -/
def elemPlaces (T : Tile) (s : Shape) (r c : Nat) : List Nat :=
  let o := s.off + r * s.stride
  if s.fmt = 5 then [winAddrIn T s.interleave s.xormask (o + c / 2)]
  else (List.range (fmtBits s.fmt / 8)).map fun i => winAddrIn T s.interleave s.xormask (o + c * (fmtBits s.fmt / 8) + i)
def scalePlaces (T : Tile) (s : Shape) (n : Nat) : List Nat :=
  let size := if s.scaleFmt = 1 then 2 else 1
  if s.scaled && decide (s.fmt = 5 ∨ s.scaleFmt ≠ 0) then (List.range size).map fun i => winAddr T (s.scaleOff + n * size + i)
  else []

/-- Scratchpad bytes that a logical element needs, with the entry of its scale. -/
def operandPlaces (T : Tile) (s : Shape) (r c scaleIdx : Nat) : List Nat :=
  let p := storedAt s r c
  if p.1 < s.live then elemPlaces T s p.1 p.2 ++ scalePlaces T s scaleIdx else []

/-- Scratchpad bytes that group step `g` reads. -/
def stepPlaces (T : Tile) (a b : Shape) (g : Nat) : List Nat :=
  let w := (groupWidth a.fmt b.fmt).getD 16
  let ks := (List.range (min w (a.lcols - g * w))).map (g * w + ·)
  ks.flatMap fun k =>
    ((List.range a.lrows).flatMap fun i => operandPlaces T a i k (i * scaleBlocks a a.lcols + k / 2 ^ a.blockLog2)) ++
    (List.range b.lcols).flatMap fun j => operandPlaces T b k j (k / 2 ^ b.blockLog2 * b.lcols + j)

/-- A block of which ACCZ sets to +0 the elements that it has not yet set; those of `done` keep what they hold (R226). -/
def zeroBlock (done : Table Nat) (c : Fin 16) (old : AccBlock) : AccBlock :=
  if done = [] then Vector.replicate 8192 0
  else Vector.ofFn fun i => if tget 0 done (8192 * c.val + i.val) = 0 then 0 else vget old i

/-- ACCZ's effect on the elements that are left (R226). -/
def zeroBlocks (T : Tile) (mask : Word) (done : Table Nat) : Tile :=
  let zero (v : Vector AccBlock 16) (c : Fin 16) := if mask.getLsbD c.val then vset v c (zeroBlock done c (vget v c)) else v
  { T with acc := (allFin 16).foldl zero T.acc }

/-- ACCZ sets element `n` of the accumulator store, counted through the blocks (R226). -/
def zeroElement (T : Tile) (n : Nat) : Tile :=
  let c : Fin 16 := Fin.ofNat 16 (n / 8192)
  { T with acc := vset T.acc c (vset (vget T.acc c) (Fin.ofNat 8192 n) 0) }

/-! ### Issue (R219, R226 to R228) -/

/-- The task owns every block of a mask. -/
def ownsMask (k : Task) (mask : Word) : Bool := (allFin 16).all fun c => !mask.getLsbD c.val || k.acc.getLsbD c.val

/-- MMA: the checks of R219 in their order. -/
def execMma (q r : Bool) (sc : Fin 4) (x : Bool) (s : State) : Result :=
  onStream s (.mma q r sc x) .M fun t k =>
    command s (.mma q r sc x) t .M 3 q r sc fun as =>
      let T := tileOf s t
      let c : Fin 16 := Fin.ofNat 16 (recw as 0).toNat
      if k.acc.getLsbD c.val = false then .error (causePrivilege, insnWord (.mma q r sc x))
      else match readShape T true (recw as 2) with
        | .error e => .error e
        | .ok (a, ca) => match readShape T false (recw as 1) with
          | .error e => .error e
          | .ok (b, cb) =>
            if shapesFit a b then .ok { kind := .mma a b c x, clamped := ca || cb }
            else .error (causeShape, word ((recw as 2).toNat / 32 * 32))

/-- ACCZ. -/
def execAccz (q r : Bool) (sc : Fin 4) (s : State) : Result :=
  onStream s (.accz q r sc) .M fun t k =>
    command s (.accz q r sc) t .M 1 q r sc fun as =>
      if ownsMask k (recw as 0) then .ok { kind := .accz (recw as 0) } else .error (causePrivilege, insnWord (.accz q r sc))

/-- ACCDRAIN. -/
def execAccdrain (q r : Bool) (sc : Fin 4) (s : State) : Result :=
  onStream s (.accdrain q r sc) .M fun t k =>
    command s (.accdrain q r sc) t .M 1 q r sc fun as =>
      if ownsMask k (recw as 0) then .ok { kind := .accdrain (recw as 0) }
      else .error (causePrivilege, insnWord (.accdrain q r sc))

/-- SCALESET. -/
def execScaleset (b : Bool) (s : State) : Result :=
  onStream s (.scaleset b) .M fun t _ =>
    command s (.scaleset b) t .M 1 false false 0 fun as => .ok { kind := .scaleset b ((recw as 0).setWidth 32) }

end Sys2Proof.Machine
end

