-- ==== Sys2Proof/Machine/Drover.lean ====
section
/-! DEFINITION. The Drover engines and NVMe queue pairs: who waits for them, who is served next, what a transfer lands, and
the frames of a snapshot that a write meets unsaved (12 R339, R353, R361, R371 to R374; 13 R412). -/

namespace Sys2Proof.Machine

def frameSize : Nat := 2 ^ 21
def snapFrame : Nat := 65536

/-! ### CXL ports (R339, R412) -/

/-- A port is down. -/
def portDown (s : State) (k : PortKind) (n : Nat) : Bool := decide ((k, n) ∈ s.linksDown)

/-- The Purlin ports that are up on the route to a device (R405). -/
def routePorts (s : State) (dev : Nat) : List Nat :=
  (List.range 8).filter fun i => (tget 0 s.routes dev).getLsbD i && !portDown s .purlin i

/-- The root port of a CXL address: of the decoder that holds it, at its 4 KiB interleave, else of its own range. -/
def cxlPort (s : State) (a : Nat) : Nat :=
  match s.decoders.find? fun d => decide (d.base ≤ a ∧ a < d.base + d.size ∧ d.ports ≠ []) with
  | some d => (d.ports.getD ((a - d.base) / 4096 % d.ports.length) 0).val
  | none => (a - cxlBase) / 2 ^ 42

/-- A range uses a CXL port of which `f` holds. -/
def cxlUses (s : State) (a n : Nat) (f : Nat → Bool) : Bool :=
  inCxl a && decide (0 < n) && (List.range ((a + n - 1) / 4096 - a / 4096 + 1)).any fun i => f (cxlPort s (a + 4096 * i))

/-! ### Requests (R353) -/

/-- Byte address of a namespace's byte in the NVMe table (R413). -/
def nvmeAddr (port nsid byte : Nat) : Nat := port * 2 ^ 108 + nsid * 2 ^ 76 + byte

/-- Requests that a pool serves at once: 16 Drovers, or 8 queue pairs of 1024 entries (R353, R413). -/
def poolUnits (pool : Nat) : Nat := if pool = 0 then 16 else 8192

/-- The classes of R353, first served first: a snapshot, a fetch, other copies. -/
def Drover.rank (x : Drover) : Nat :=
  match x.kind with
  | .save _ => 0
  | .fetch _ _ => 1
  | _ => 2

/-- The partitions in their turns; the Keeper's requests stand after partition 39 (DESIGN CHOICE, log 68). -/
def Drover.turn (x : Drover) : Nat := x.part.elim 40 Fin.val

/-- How far a request's partition is from its turn. -/
def turnDistance (s : State) (x : Drover) : Nat :=
  (x.turn + 40 - tget 40 s.lastServed (3 * x.pool + x.rank)) % 41

/-- One waiting request is served before another (R353): by class, then the partition whose turn comes first, then the older. -/
def servedBefore (s : State) (a b : Nat × Drover) : Bool :=
  decide (a.2.rank < b.2.rank ∨ (a.2.rank = b.2.rank ∧ (turnDistance s a.2 < turnDistance s b.2 ∨
    (turnDistance s a.2 = turnDistance s b.2 ∧ a.1 < b.1))))

/-- The request of a list that is served next. -/
def nextServed (s : State) : List (Nat × Drover) → Option (Nat × Drover)
  | [] => none
  | x :: xs => match nextServed s xs with
    | none => some x
    | some y => if servedBefore s y x then some y else some x

/-- The lowest number from `lo` on that is not in use. -/
def freeUnitFrom (used : List Nat) (lo : Nat) : Nat → Option Nat
  | 0 => none
  | n + 1 => if used.contains lo then freeUnitFrom used (lo + 1) n else some lo

/-- The lowest free unit of a pool. -/
def freeUnitOf (s : State) (pool : Nat) : Option Nat :=
  let used := s.drovers.filterMap fun x => if x.2.pool = pool then x.2.unit else none
  (freeUnitFrom used 0 (used.length + 1)).filter fun u => decide (u < poolUnits pool)

/-- Free units of a pool take waiting requests, at most `n`. -/
def grant (s : State) (pool : Nat) : Nat → State
  | 0 => s
  | n + 1 =>
    match freeUnitOf s pool, nextServed s (s.drovers.filter fun x => decide (x.2.pool = pool ∧ x.2.unit = none)) with
    | some u, some (id, x) =>
      grant { s with drovers := tput s.drovers id { x with unit := some u }
                     lastServed := tput s.lastServed (3 * x.pool + x.rank) x.turn } pool n
    | _, _ => s

/-- Every free unit of a pool takes a request. -/
def grantAll (s : State) (pool : Nat) : State := grant s pool s.drovers.length

/-- Add a request. -/
def addDrover (s : State) (x : Drover) : State :=
  grantAll { s with drovers := tput s.drovers s.seq x, seq := s.seq + 1 } x.pool

/-- A request ends, and its unit serves the next. -/
def dropDrover (s : State) (id : Nat) : State :=
  match tfind s.drovers id with
  | none => s
  | some x => grantAll { s with drovers := tdel s.drovers id } x.pool

/-- The requests of which `p` holds are cancelled. -/
def dropDrovers (s : State) (p : Drover → Bool) : State :=
  let pools := (s.drovers.filterMap fun x => if p x.2 then some x.2.pool else none).dedup
  pools.foldl grantAll { s with drovers := s.drovers.filter fun x => !p x.2 }

/-! ### Saved frames (R372, R373) -/

/-- The ports of a mask, ascending. -/
def portsOf (m : BitVec 8) : List Nat := (List.range 8).filter fun i => m.getLsbD i

/-- Save image frame `i` at the target (R373). -/
def saveFrame (s : State) (x : Snapshot) (i : Nat) (bs : List Byte) : State :=
  if x.nvme then
    let ps := portsOf x.ports
    let port := ps.getD (i % ps.length) 0
    let lba := x.loc.toNat + 16 * (i / ps.length)
    { s with nvme := mwrite s.nvme (nvmeAddr port x.nsid (lba * 4096)) bs }
  else
    let a := x.loc.toNat + snapFrame * i
    { zeroMem s a snapFrame with mem := mwrite s.mem a bs }

/-- The place in the image of a physical address: its frame's number among those of some ranges, from `i` on. -/
def framePlace (i a : Nat) : List (Nat × Nat) → Option Nat
  | [] => none
  | r :: rs =>
    if r.1 ≤ a ∧ a < r.1 + r.2 then some (i + (a - r.1) / snapFrame)
    else framePlace (i + (r.2 + snapFrame - 1) / snapFrame) a rs

/-- A byte of a snapshot's image changes: where its frame has been saved, the saved frame with it (R371). -/
def imageByte (s : State) (x : Snapshot) (a : Nat) (b : Byte) : State :=
  let x' := { x with image := mset x.image a b }
  let s1 := { s with snapshots := s.snapshots.map fun y => if y.scope = x.scope then x' else y }
  match framePlace 0 a x.ranges with
  | none => s1
  | some i =>
    if x.frames.any fun f => decide (f.1 = i) then s1
    else saveFrame s1 x' (i + 1) (mread x'.image (a / snapFrame * snapFrame) snapFrame)

/-- A write of the cut to a byte reaches the image of each snapshot whose cut holds it (R371): `f` gives the new byte. A counter
window shows its counters, not what lies behind it (R394). -/
def imageSet (s : State) (mine : Snapshot → Bool) (a : Nat) (f : Byte → Byte) : State :=
  if (windowCtr s a).isSome then s
  else (s.snapshots.filter fun x => x.cut && mine x).foldl (fun s x => imageByte s x a (f (mget x.image a))) s

/-- Save those of a snapshot's frames of which `p` holds, ahead of their turn. -/
def saveThese (s : State) (x : Snapshot) (p : Nat × Nat → Bool) : State :=
  let s1 := (x.frames.filter p).foldl (fun s f => saveFrame s x (f.1 + 1) (mread x.image f.2 snapFrame)) s
  { s1 with snapshots := s1.snapshots.map fun y =>
      if y.scope = x.scope then { y with frames := y.frames.filter fun f => !p f } else y }

/-- A write of the Innkeeper itself to `n` bytes from `a`: the frames that it meets unsaved are saved first (R372, log 69). -/
def saveFirst (s : State) (a n : Nat) : State :=
  if unsaved s a n then
    s.snapshots.foldl (fun s x => saveThese s x fun f => decide (a < f.2 + snapFrame ∧ f.2 < a + n)) s
  else s

/-- Zero a range, once its unsaved frames are saved. -/
def zeroRange (s : State) (a n : Nat) : State := zeroMem (saveFirst s a n) a n

/-! ### What a transfer reads and lands -/

/-- Some byte of a range of intermediate addresses waits, for a segment move or a zeroing (R341, R348). -/
def rangeWaits (s : State) (v : VfId) (a n : Nat) : Bool :=
  decide (0 < n) && (List.range (n / frameSize + 2)).any fun i =>
    decide (stage2 s v (min (a + frameSize * i) (a + n - 1)) = .wait)

/-- The next access of an agent to a range of a VF's intermediate space comes to the segment row, and may go on or not; one
outside the segment always may (R348, R349). -/
def rowRange (s : State) (who : Holder) (v : VfId) (va ipa n : Nat) : State × Bool :=
  if 0 < n ∧ ipa < (vfOf s v).segSize then atRow s { who := who, vf := v, va := va, ipa := some ipa } else (s, true)

/-- A write to a range must wait: for a segment move, a zeroing, or a frame that a snapshot has still to save (R372). -/
def writeWaits (s : State) (v : Option VfId) (a n : Nat) : Bool :=
  match v with
  | none => unsaved s a n
  | some v => rangeWaits s v a n || decide (0 < n) && ((List.range (n / 65536 + 2)).any fun i =>
      match stage2 s v (min (a + 65536 * i) (a + n - 1)) with
      | .ok pa => unsaved s pa 1
      | _ => false)

/-- A write to a range waits: the frames that it meets unsaved are saved first (R372). -/
def wantWrites (s : State) (v : Option VfId) (a n : Nat) : State :=
  match v with
  | none => wantSaved s a n
  | some v =>
    if n = 0 then s
    else (List.range (n / 65536 + 2)).foldl (fun s i => match stage2 s v (min (a + 65536 * i) (a + n - 1)) with
      | .ok pa => wantSaved s pa 1
      | _ => s) s

/-- Bytes from an intermediate address of a VF; an address that stage 2 refuses reads 0. -/
def ipaRead (s : State) (v : VfId) (ipa n : Nat) : List Byte :=
  (List.range n).map fun i => match stage2 s v (ipa + i) with
    | .ok pa => physByte s pa
    | _ => 0

/-- Write bytes from an intermediate address of a VF; an address that stage 2 refuses takes nothing. -/
def ipaWrite (s : State) (v : VfId) (ipa : Nat) : List Byte → State
  | [] => s
  | b :: bs => ipaWrite (match stage2 s v ipa with
      | .ok pa => physSet s pa b
      | _ => s) v (ipa + 1) bs

/-- The bytes that a transfer moves, from its place `o` on: of a drive for a fetch from one, else of memory. -/
def transferBytes (s : State) (x : Drover) (o n : Nat) : List Byte :=
  match x.kind with
  | .fetch _ _ => if x.pool = 0 then mread s.mem (x.src + o) n else mread s.nvme (x.src + o) n
  | _ => match x.vf with
    | some v => ipaRead s v (x.src + o) n
    | none => physRead s (x.src + o) n

/-- The transfer reads memory that waits. -/
def sourceWaits (s : State) (x : Drover) (n : Nat) : Bool :=
  match x.kind, x.vf with
  | .copy, some v => rangeWaits s v (x.src + x.pos) n
  | _, _ => false

/-- The next `n` bytes of a transfer wait. -/
def transferWaits (s : State) (x : Drover) (n : Nat) : Bool :=
  sourceWaits s x n || writeWaits s x.vf (x.dst + x.pos) n

/-- The next `n` bytes of a transfer come to the segment row of its VF (R348, R349). -/
def transferRow (s : State) (id : Nat) (x : Drover) (n : Nat) : State × Bool :=
  match x.vf with
  | none => (s, true)
  | some v => match rowRange s (.transfer id) v 0 (x.dst + x.pos) n with
    | (s, true) => match x.kind with
      | .copy => rowRange s (.transfer id) v 1 (x.src + x.pos) n
      | _ => (s, true)
    | r => r

/-- Count in word `w` of a partition's statistics block (R368). -/
def addStat (s : State) (p : PartId) (w : Fin 8) (n : Nat) : State :=
  modPart s p fun q => { q with stats := vset q.stats w (vget q.stats w + word n) }

/-- Bytes of a fetch that have landed are counted (R368). -/
def countLanded (s : State) (x : Drover) (n : Nat) : State :=
  match x.kind, x.part with
  | .fetch _ _, some p => addStat s p 4 n
  | _, _ => s

/-- Land the next `n` bytes of a transfer. -/
def landTransfer (s : State) (id : Nat) (x : Drover) (n : Nat) : State :=
  let bs := transferBytes s x x.pos n
  let s1 := match x.vf with
    | some v => ipaWrite s v (x.dst + x.pos) bs
    | none => physWrite s (x.dst + x.pos) bs
  countLanded { s1 with drovers := tmod s1.drovers id fun x => { x with pos := x.pos + n } } x n

/-- Where `k` writes of 64 bytes take a transfer, each up to the end of its granule. -/
def afterWrites (x : Drover) (k : Nat) : Nat := min x.length (((x.dst + x.pos) / 64 + k) * 64 - x.dst)

/-- A transfer is a copy of bytes. Those of a FROZEN VF run on (R367, R414). -/
def copies (x : Drover) : Bool :=
  match x.kind with
  | .copy => true
  | .fetch _ _ => true
  | _ => false

/-- A copy or a fetch on a Drover or a queue pair lands up to `k` more 64-byte writes (R353, R371). -/
def transferStep (s : State) (id k : Nat) : State :=
  match tfind s.drovers id with
  | none => s
  | some x =>
    let n := afterWrites x k - x.pos
    if x.unit = none ∨ copies x = false then s
    else match transferRow s id x n with
      | (s, true) => if transferWaits s x n then wantWrites s x.vf (x.dst + x.pos) n else landTransfer s id x n
      | (s, false) => s

end Sys2Proof.Machine
end

