-- ==== Sys2Proof/Machine/Jq.lean ====
section
/-! DEFINITION. The Joinery queue: handles, quotas, folds, the match phase, JQPUT and JQCTL (09 R264 to R294). -/

namespace Sys2Proof.Machine

/-! ### Issuers and handles (R276, R277) -/

/-- The issuer's partition and VF; a Steward thread of a partition has no VF. A Keeper thread, and a Guest thread that no
VF has claimed, stand in no partition. -/
def putterOf (s : State) : Option (PartId × Option VfId) :=
  match s.cur with
  | .tile t _ => (tileOf s t).task.map fun k => (k.part, some k.vf)
  | .thread n => match partOfThread s n with
    | none => none
    | some p =>
      if isStewardOf s p n then some (p, none)
      else (vfOfThread s n).map fun v => (p, some v)

/-- Rights bits: PUT, TAKE, STEAL (R276, R289). -/
def rightPut : Nat := 1
def rightTake : Nat := 2
def rightSteal : Nat := 4

/-- A slot of the handle table; a slot never used has generation 1 (DESIGN CHOICE, log 17). -/
def slotAt (q : Partition) (n : Nat) : HandleSlot :=
  (tfind q.handles n).getD { gen := 1, used := false, cls := 0, clsGen := 0, rights := 0, vf := 0 }

/-- A class generation (R266). -/
def clsGenOf (q : Partition) (c : Nat) : Nat := tget 0 q.clsGens c

/-- The handle value of a slot (R276). -/
def handleWord (n : Nat) (h : HandleSlot) : Word := word (h.gen % 2 ^ 32 * 2 ^ 32 + h.rights * 2 ^ 12 + n)

/-- The slot that a handle names, if it passes every check of R277 with one of the rights `need`. -/
def checkHandle (s : State) (p : PartId) (issuer : Option VfId) (h : Word) (need : Nat) : Option HandleSlot :=
  let q := partOf s p
  let l := slotAt q (bfld h 11 0)
  if bfld h 31 15 = 0 ∧ l.used ∧ bfld h 63 32 = l.gen % 2 ^ 32 ∧ bfld h 14 12 = l.rights ∧
     l.clsGen = clsGenOf q l.cls ∧ (tfind q.classes l.cls).isSome ∧
     (issuer = none ∨ issuer = some l.vf) ∧ l.rights &&& need ≠ 0 then some l else none

/-- Free a slot: its generation advances (R276). -/
def freeSlot (h : HandleSlot) : HandleSlot := { h with used := false, gen := h.gen + 1, rights := 0 }

/-- The lowest free slot. -/
def freeSlotOf (q : Partition) : Option Nat := (List.range 4096).find? fun n => !(slotAt q n).used

/-! ### Quotas (R286) -/

/-- usage(v): entries that are not FREE and outstanding reservations. -/
def usage (s : State) (v : VfId) : Nat :=
  (s.entries.filter fun e => decide (e.2.unitVf = v)).length + s.reserved.count v

/-- The live VFs of a partition. -/
def vfsOf (s : State) (p : PartId) : List VfId :=
  (allFin 128).filter fun v => decide ((vfOf s v).state ≠ 0 ∧ (vfOf s v).part = p)

/-- JQGUAR of a VF number: an ABSENT VF has none. -/
def guarOf (s : State) (v : VfId) : Nat := if (vfOf s v).state = 0 then 0 else (vfOf s v).jqGuar

/-- The VF numbers of a partition's range (R95). -/
def vfRange (s : State) (p : PartId) : List VfId :=
  let q := partOf s p
  (allFin 128).filter fun v => decide (q.vfFirst ≤ v.val ∧ v.val < q.vfFirst + q.vfCount)

/-- The free units of a partition's shared pool. A unit that an ABSENT VF still holds through an entry of another VF's class
is out of the pool until the entry is FREE. -/
def poolFree (s : State) (p : PartId) : Nat :=
  let vs := vfRange s p
  let guar := (vs.map (guarOf s)).sum
  let used := (vs.map fun v => usage s v - guarOf s v).sum
  (partOf s p).jqShare - guar - used

/-- reserve(v). -/
def reserve (s : State) (v : VfId) : Option State :=
  let f := vfOf s v
  let u := usage s v
  if u < f.jqGuar ∨ (u < f.jqGuar + f.jqBurst ∧ 0 < poolFree s f.part) then
    some { s with reserved := v :: s.reserved }
  else none

/-! ### Payloads and operators (R270 to R272) -/

abbrev Payload := BitVec 512

/-- Eight words as a payload, word 0 lowest. -/
def payloadOf (ws : List Word) : Payload :=
  ws.take 8 |>.foldr (fun w acc => acc <<< 64 ||| w.setWidth 512) 0
/-- Word `i` of a payload. -/
def payWord (p : Payload) (i : Nat) : Word := (p >>> (64 * i)).setWidth 64
def payWords (p : Payload) : List Word := (List.range 8).map (payWord p)
/-- Lane `i` of 32 bits. -/
def payLane (p : Payload) (i : Nat) : BitVec 32 := (p >>> (32 * i)).setWidth 32

/-- Combine lane by lane in 32-bit lanes; a lane answers its value and whether it sets the overflow flag. -/
def lanes32 (f : BitVec 32 → BitVec 32 → BitVec 32 × Bool) (a b : Payload) : Payload × Bool :=
  (List.range 16).foldr (fun i acc =>
    let r := f (payLane a i) (payLane b i)
    (acc.1 <<< 32 ||| r.1.setWidth 512, acc.2 || r.2)) (0, false)

/-- ADD.I32x16.SAT on a lane. -/
def addSat32 (a b : BitVec 32) : BitVec 32 × Bool :=
  let v := a.toInt + b.toInt
  let c := clampInt v (-2147483648) 2147483647
  (BitVec.ofInt 32 c, decide (c ≠ v))

/-- ADD.F32x16 on a lane: RNE32 of the exact sum; overflow from finite operands. -/
def addF32 (a b : BitVec 32) : BitVec 32 × Bool :=
  let r := fAdd 0 0 false 0 a.toNat b.toNat
  (BitVec.ofNat 32 r.1, decide (r.2 &&& fOverflow ≠ 0))

/-- ADD.U64x8. -/
def addU64 (a b : Payload) : Payload :=
  (List.range 8).foldr (fun i acc => acc <<< 64 ||| (payWord a i + payWord b i).setWidth 512) 0

/-- COUNT: the count in bytes 0 to 3, clamped; bytes 4 to 63 of `a`. -/
def countFold (a b : Payload) : Payload × Bool :=
  let n := (payLane a 0).toNat + (payLane b 0).toNat
  let c := min n (2 ^ 32 - 1)
  ((a >>> 32) <<< 32 ||| BitVec.ofNat 512 c, decide (c ≠ n))

/-- a (+) b of an operator, but for DEC (R271). -/
def combine (op : Nat) (a b : Payload) : Payload × Bool :=
  match op with
  | 2 => lanes32 (fun x y => (x + y, false)) a b
  | 3 => lanes32 addSat32 a b
  | 4 => (addU64 a b, false)
  | 5 => lanes32 addF32 a b
  | 6 => lanes32 (fun x y => (if x.slt y then x else y, false)) a b
  | 7 => lanes32 (fun x y => (if x.slt y then y else x, false)) a b
  | 8 => lanes32 (fun x y => (BitVec.ofNat 32 (minMax 0 false false x.toNat y.toNat).1, false)) a b
  | 9 => lanes32 (fun x y => (BitVec.ofNat 32 (minMax 0 true false x.toNat y.toNat).1, false)) a b
  | 10 => (a ||| b, false)
  | 11 => (a &&& b, false)
  | 12 => (a ^^^ b, false)
  | 13 => (a, false)
  | 15 => countFold a b
  | _ => (b, false)

/-- The operators SET and DEC. -/
def opSet : Nat := 0
def opDec : Nat := 1

/-- A DEC payload: count in bytes 0 to 7, data above (R272). -/
def decPayload (c : Int) (data : Payload) : Payload :=
  (data >>> 64) <<< 64 ||| (BitVec.ofInt 64 c).setWidth 512

/-- The count of a DEC entry. -/
def decCount (p : Payload) : Int := (payWord p 0).toInt

/-! ### Entries (R267 to R269) -/

/-- Matchable: WAITING, or READY unless a booking created it (R268). -/
def matchable (e : JqEntry) : Bool := (e.state = .waiting || e.state = .ready) && !e.launched

/-- The matchable entry of a class and key, but for the entry `but`. -/
def findMatch (s : State) (p : PartId) (c : Nat) (key : Word) (but : Option Nat) : Option (Nat × JqEntry) :=
  s.entries.find? fun e =>
    decide (e.2.part = p ∧ e.2.cls = c ∧ e.2.key = key ∧ some e.1 ≠ but) && matchable e.2

def setEntry (s : State) (id : Nat) (e : JqEntry) : State := { s with entries := tput s.entries id e }

/-- The entry becomes READY: a new ready time, and its aging count starts (R267, R282). -/
def readied (s : State) (e : JqEntry) : JqEntry := { e with state := .ready, readyTick := tickOf s, aged := 0 }

/-- The record of a fault at the port (R112, R114). -/
def portRecord (s : State) (p : PartId) (c : Nat) (asid : Nat) (v : Nat) (frozen cause : Nat) (key val : Word) :
    List Word :=
  faultRecord s 0 0 0 frozen 5 0 cause 0 val p.val asid v c key 0

/-- A cause at the port for an entry's class: the class freezes and its VF's FAULTTHR has the record (R114, R284). -/
def portFault (s : State) (p : PartId) (c : Nat) (cause : Nat) (key val : Word) : State :=
  match tfind (partOf s p).classes c with
  | none => s
  | some r => sendVfFault (freezeClass s p c) r.vf (portRecord s p c r.asid r.vf.val 1 cause key val)

/-- A JQ_RIGHTS refusal at the port (R114, R277): to the putter's VF, or to the first Steward thread. R114 does not name
ASID: it is the VF's ASIDFIRST (DESIGN CHOICE, log 67). -/
def portRefusal (s : State) (p : Put) : State :=
  match p.putter with
  | some v => sendVfFault s v
      (portRecord s p.part p.cls (vfOf s v).asidFirst v.val 0 causeRights (recw p.desc 0) p.handle)
  | none => sendEvent s (firstSteward s p.part)
      (faultEvent (portRecord s p.part p.cls 0 0 0 causeRights (recw p.desc 0) p.handle) 0)

/-- Priority after a put's PRIOEN and PRIO (R280). -/
def foldPrio (old : Nat) (w1 : Word) : Nat := if bbit w1 3 then max old (bfld w1 2 0) else old

/-- A new entry's number: the lowest free (R267). -/
def newEntry (s : State) : Option Nat := tfree s.entries 0 131072

/-- An entry as a creation makes it, in WAITING. -/
def freshEntry (s : State) (p : PartId) (c : Nat) (key : Word) (pay : Payload) (prio : Nat) (unit : VfId) : JqEntry :=
  { part := p, cls := c, key := key, payload := pay, state := .waiting, prio := prio, folds := 1, ovf := false,
    age := s.portCycle, place := s.seq, readyTick := 0, aged := 0, unitVf := unit, launched := false,
    placeTile := none, pin := none, backoff := 0, backoffLeft := 0, card := none, unplaced := 0, made := s.seq }

/-- Add an entry whose reservation becomes its unit (R286). -/
def addEntry (s : State) (e : JqEntry) : State :=
  match newEntry s with
  | none => releaseUnit s e.unitVf
  | some id => { releaseUnit s e.unitVf with entries := tput s.entries id e, seq := s.seq + 1 }

/-- A creating put (R269, R272, R280). -/
def createByPut (s : State) (p : Put) (r : JqClass) : State :=
  let w1 := recw p.desc 1
  let pay := payloadOf (p.desc.drop 2)
  let prio := if bbit w1 3 then bfld w1 2 0 else r.prio
  let e := { freshEntry s p.part p.cls (recw p.desc 0) pay prio p.unitVf with marks := p.marks }
  if r.op = opDec then
    let c : Int := (bfld w1 63 32 : Int) - ((payWord pay 0).toNat : Int)
    let e := { e with payload := decPayload c pay }
    if c < 0 then portFault (addEntry s { e with state := .faulted }) p.part p.cls causeUnderflow e.key e.key
    else addEntry s (if c = 0 then readied s e else e)
  else addEntry s (if r.op = opSet ∨ bbit w1 7 then readied s e else e)

/-- A put that folds into a matchable entry (R269, R271, R272, R280). -/
def foldPut (s : State) (p : Put) (r : JqClass) (id : Nat) (e : JqEntry) : State :=
  let s := releaseUnit s p.unitVf
  let w1 := recw p.desc 1
  let pay := payloadOf (p.desc.drop 2)
  let e := { e with prio := foldPrio e.prio w1, folds := min (e.folds + 1) (2 ^ 32 - 1), marks := e.marks ++ p.marks }
  if r.op = opDec then
    let c : Int := decCount e.payload - ((payWord pay 0).toNat : Int)
    let e := { e with payload := decPayload c (e.payload ||| pay) }
    if c < 0 then portFault (setEntry s id { e with state := .faulted }) p.part p.cls causeUnderflow e.key e.key
    else setEntry s id (if c = 0 ∧ e.state = .waiting then readied s e else e)
  else
    let x := combine r.op e.payload pay
    let e := { e with payload := x.1, ovf := e.ovf || x.2 }
    setEntry s id (if (r.op = opSet ∨ bbit w1 7) ∧ e.state = .waiting then readied s e else e)

/-- The VF still stands: it is not ABSENT and not TEARING. -/
def vfStands (s : State) (v : VfId) : Bool := decide (1 ≤ (vfOf s v).state ∧ (vfOf s v).state ≤ 3)

/-- A put as the match phase applies it (R269, R277). -/
def applyPut (s : State) (p : Put) : State :=
  if vfStands s p.unitVf = false then releaseUnit s p.unitVf
  else match checkHandle s p.part p.putter p.handle rightPut with
    | none => portRefusal (releaseUnit s p.unitVf) p
    | some l => match tfind (partOf s p.part).classes l.cls with
      | none => portRefusal (releaseUnit s p.unitVf) p
      | some r => match findMatch s p.part l.cls (recw p.desc 0) none with
        | some (id, e) => foldPut s p r id e
        | none => createByPut s p r

/-- A booking's LAUNCH creates its entry, READY and never matchable (R268, R269, R401); the entry is observed with the
counter's increments `ms` (R316). -/
def applyLaunch (s : State) (p : PartId) (v : VfId) (c : Nat) (key : Word) (pay : Payload)
    (place : Option (TileId × Nat × Nat)) (ms : List Mark) : State :=
  match vfStands s v, tfind (partOf s p).classes c with
  | true, some r =>
    addEntry s (readied s { freshEntry s p c key pay r.prio v with launched := true, placeTile := place, marks := ms })
  | _, _ => releaseUnit s v

/-- Re-entry into a matchable entry (R285). A FAULTED card entry that THAW requeues and that folds here is freed with its
slot: its faulted chunk and its undealt records are dropped, which the manual does not state (DESIGN CHOICE, log 70). -/
def foldReentry (s : State) (r : JqClass) (id : Nat) (e : JqEntry) (mid : Nat) (m : JqEntry) : State :=
  let m := { m with age := e.age, place := e.place, prio := max e.prio m.prio,
                    folds := min (e.folds + m.folds) (2 ^ 32 - 1), ovf := e.ovf || m.ovf, marks := e.marks ++ m.marks }
  if r.op = opDec then
    let c := decCount e.payload + decCount m.payload
    let m := { m with payload := decPayload c (e.payload ||| m.payload) }
    let s := freeEntry s id
    if c < 0 then portFault (setEntry s mid { m with state := .faulted }) m.part m.cls causeUnderflow m.key m.key
    else setEntry s mid (readied s m)
  else
    let x := combine r.op e.payload m.payload
    setEntry (freeEntry s id) mid (readied s { m with payload := x.1, ovf := m.ovf || x.2 })

/-- A re-entry as the match phase applies it (R269, R285). -/
def applyReentry (s : State) (id : Nat) : State :=
  match tfind s.entries id with
  | none => s
  | some e =>
    if e.state ≠ .parked ∧ e.state ≠ .held ∧ e.state ≠ .faulted then s
    else match tfind (partOf s e.part).classes e.cls with
      | none => s
      | some r =>
        if e.launched then setEntry s id (readied s e)
        else match findMatch s e.part e.cls e.key (some id) with
          | some (mid, m) => foldReentry s r id e mid m
          | none => setEntry s id (readied s e)

/-! ### Order at the port (R274) -/

/-- Fold order. -/
def arrivesBefore (a b : Arrival) : Bool :=
  decide (a.cycle < b.cycle ∨ (a.cycle = b.cycle ∧ (a.rank < b.rank ∨ (a.rank = b.rank ∧
    (a.source < b.source ∨ (a.source = b.source ∧ a.order ≤ b.order))))))

/-- Keep the arrivals in fold order. -/
def insertArrival (a : Arrival) : List Arrival → List Arrival
  | [] => [a]
  | b :: bs => if arrivesBefore b a then b :: insertArrival a bs else a :: b :: bs

/-- Something arrives at the port in the present port cycle; `ms` are the publishes that made a booking fire (R316). -/
def arrive (s : State) (rank source : Nat) (w : PortWork) (ms : List Mark := []) : State :=
  { s with
    arrivals := insertArrival { cycle := s.portCycle, rank := rank, source := source, order := s.seq, work := w, marks := ms }
      s.arrivals
    seq := s.seq + 1 }

/-- The source number of a re-entry that uses no Lodging entry: after every Lodging entry (R274). -/
def noLodging : Nat := 32768

def applyWork (s : State) (ms : List Mark) : PortWork → State
  | .put p => applyPut s p
  | .launch p v c key pay place => applyLaunch s p v c key pay place ms
  | .reentry id => applyReentry s id

/-- A class belongs to a FROZEN VF: its entries are held unchanged (R415). -/
def classHeld (s : State) (p : PartId) (c : Nat) : Bool :=
  (tfind (partOf s p).classes c).any fun r => decide ((vfOf s r.vf).state = 3)

/-- Work that would change an entry of a FROZEN VF waits at the port until UNFREEZE (R415, DEDUCED, log 71). -/
def portHeld (s : State) : PortWork → Bool
  | .put p => classHeld s p.part p.cls
  | .launch p v c _ _ _ => decide ((vfOf s v).state = 3) || classHeld s p c
  | .reentry id => (tfind s.entries id).any fun e => classHeld s e.part e.cls

/-- A request of a thread at the port is dealt with in a port cycle (R293). -/
def setDealt (s : State) (n : ThreadId) (c : Nat) : State := modThr s n fun h => { h with dealt := some c }

def applyAll (s : State) : List Arrival → State
  | [] => s
  | a :: as =>
    let s1 := applyWork s a.marks a.work
    applyAll (if a.rank = 2 then setDealt s1 (Fin.ofNat 1024 a.source) s.portCycle else s1) as

/-- What the match phase takes: at most 32, in fold order, of what is not held (R274, R415). -/
def dueArrivals (s : State) : List Arrival := (s.arrivals.filter fun a => !portHeld s a.work).take 32

/-- The match phase (R274). -/
def matchPhase (s : State) : State :=
  applyAll { s with arrivals := s.arrivals.filter fun a => decide (a ∉ dueArrivals s) } (dueArrivals s)

/-! ### JQPUT (R280) -/

/-- Bytes buffered in the phase, for PUBLISH_FULL (R138). -/
def bufferedBytes (T : Tile) : Word := word (T.stores.length * 64)

/-- The put that a descriptor and a handle make. -/
def putOf (p : PartId) (issuer : Option VfId) (h : Word) (l : HandleSlot) (d : List Word) : Put :=
  { part := p, handle := h, cls := l.cls, desc := d, unitVf := l.vf, putter := issuer }

/-- A reserved bit of a put descriptor is set (R279). -/
def descReserved (d : List Word) : Bool := decide (bfld (recw d 1) 31 8 ≠ 0 ∨ bfld (recw d 1) 6 4 ≠ 0)

/-- Hand a reserved put on: to the effect list of a tile, or to the port at once (R280). -/
def handPut (s : State) (p : Put) : State :=
  match s.cur with
  | .tile t _ => modTile s t fun T => { T with effects := T.effects ++ [.put p] }
  | .thread n => arrive (carryThread s n) 2 n.val (.put p)

/-- The effect list of the issuing tile is full (R138). -/
def effectsFull (s : State) : Bool :=
  match s.cur with
  | .tile t _ => decide (256 ≤ (tileOf s t).effects.length)
  | .thread _ => false

/-- PUBLISH_FULL on the issuing tile (R138). -/
def publishFull (s : State) : Result :=
  match s.cur with
  | .tile t _ => raise s causePublishFull (bufferedBytes (tileOf s t))
  | .thread _ => .next s

/-- JQPUT (R280). -/
def execJqput (d a b : XReg) (s : State) : Result :=
  scalar s (.jqput d a b)
    (let h := rx s a
     match putterOf s with
     | none => raise s causeRights h
     | some (p, v) => match checkHandle s p v h rightPut with
       | none => raise s causeRights h
       | some l =>
         let desc := localWords s (rx s b).toNat 10
         if descReserved desc then raise s causeRights h
         else if effectsFull s then publishFull s
         else match reserve s l.vf with
           | none => wr s d 6
           | some s1 => wr (handPut s1 (putOf p v h l desc)) d 0)

/-! ### JQCTL (R288 to R293) -/

/-- The thread's earlier puts have all been dealt with (R293). -/
def threadPutsDone (s : State) (n : ThreadId) : Bool :=
  s.arrivals.all fun a => decide (¬ (a.rank = 2 ∧ a.source = n.val))

/-- Where in its arrival cycle a request acts (R293): after the match phase, in the select phase after the dispatchers, or
on the states of the match phase before. -/
inductive PortPhase where
  | afterMatch | inSelect | beforeSelect
  deriving DecidableEq, Repr

/-- The request acts now: its arrival cycle is later than that of the thread's last one, and its phase is reached (R293).
Port cycle `portCycle` is under way, and those before it have had their match phase. -/
def portReady (s : State) (n : ThreadId) : PortPhase → Bool
  | .afterMatch => !s.selected && (thrOf s n).dealt.all fun c => decide (c + 2 ≤ s.portCycle)
  | .inSelect => s.selected && (thrOf s n).dealt.all fun c => decide (c + 1 ≤ s.portCycle)
  | .beforeSelect => !s.selected && (thrOf s n).dealt.all fun c => decide (c + 1 ≤ s.portCycle)

/-- The cycle in which a request that acts now is dealt with. -/
def arrivalCycle (s : State) : PortPhase → Nat
  | .afterMatch => s.portCycle - 1
  | _ => s.portCycle

/-- A JQCTL of a thread: PRIVILEGE on a tile, and it waits for the thread's earlier requests and for its phase (R288,
R293). -/
def jqctl (s : State) (i : Instr) (ph : PortPhase) (f : State → ThreadId → Result) : Result :=
  scalar s i (match s.cur with
    | .tile _ _ => privilege s i
    | .thread n => if threadPutsDone s n && portReady s n ph then f (setDealt s n (arrivalCycle s ph)) n else .next s)

/-- A JQCTL of a thread through a handle with a right (R288). -/
def jqctlWith (s : State) (i : Instr) (ph : PortPhase) (a : XReg) (need : Nat)
    (f : State → ThreadId → PartId → HandleSlot → Result) : Result :=
  jqctl s i ph fun s1 n => match putterOf s with
    | none => raise s causeRights (rx s a)
    | some (p, v) => match checkHandle s p v (rx s a) need with
      | none => raise s causeRights (rx s a)
      | some l => f s1 n p l

/-- A class record as installed (R265). -/
def classOfRecord (w : List Word) : JqClass :=
  let w0 := recw w 0
  let n := bfld w0 19 16
  { vf := Fin.ofNat 128 (bfld w0 54 48), asid := bfld w0 63 56, target := bfld w0 13 12, gang := bfld w0 47 42 + 1,
    thread := bfld w0 41 32, nbuck := n, buckPayload := bbit w0 15, expert := bbit w0 14, prio := bfld w0 10 8,
    op := bfld w0 4 0, entry := word (bfld (recw w 1) 55 0), acc := BitVec.ofNat 16 (bfld (recw w 2) 23 8),
    wlog2 := bfld (recw w 2) 4 0, seed := BitVec.ofNat 32 (bfld (recw w 3) 63 32),
    qfmt := (List.range 4).map fun i => recw w (4 + i),
    buckets := (List.range (min n 8)).map fun i =>
      (bfld (recw w (8 + i)) 15 0, (BitVec.ofNat 32 (bfld (recw w (8 + i)) 47 16)).toInt) }

/-- A reserved bit of a class record is set (R265). -/
def classReserved (w : List Word) : Bool :=
  decide (bbit (recw w 0) 55 = true ∨ bfld (recw w 0) 31 20 ≠ 0 ∨ bbit (recw w 0) 11 = true ∨ bfld (recw w 0) 7 5 ≠ 0 ∨
    bfld (recw w 1) 63 56 ≠ 0 ∨ bfld (recw w 2) 63 24 ≠ 0 ∨ bfld (recw w 2) 7 5 ≠ 0 ∨ bfld (recw w 3) 31 0 ≠ 0) ||
  (List.range 8).any fun i => decide (bfld (recw w (8 + i)) 63 48 ≠ 0)

/-- Strictly ascending. -/
def ascending : List Nat → Bool
  | [] => true
  | [_] => true
  | a :: b :: t => decide (a < b) && ascending (b :: t)

/-- ENTRY, and ENTRY + DELTA of each bucket, have the target's alignment (R266). -/
def classAligned (r : JqClass) : Bool :=
  let m : Int := if r.target = 0 then 4 else if r.target = 1 then 32 else 1
  decide ((r.entry.toNat : Int) % m = 0) && r.buckets.all fun b => decide (((r.entry.toNat : Int) + b.2) % m = 0)

/-- The VF owns the ASID (R97). -/
def ownsAsid (f : Vf) (a : Nat) : Bool := decide (f.asidFirst ≤ a ∧ a ≤ f.asidFirst + f.asidCount)
/-- The thread is a Guest thread of the VF (R96). -/
def ownsThread (f : Vf) (n : Nat) : Bool := decide (f.gtFirst ≤ n ∧ n < f.gtFirst + f.gtCount)

/-- CLASSSET refuses the record (R266). -/
def classRefused (s : State) (p : PartId) (issuer : Option VfId) (c : Nat) (w : List Word) : Bool :=
  let r := classOfRecord w
  let f := vfOf s r.vf
  classReserved w || decide (r.target = 3) || decide (r.wlog2 < 12 ∨ 21 < r.wlog2) || decide (8 < r.nbuck) ||
  !ascending (r.buckets.map Prod.fst) || !classAligned r ||
  decide (vfStands s r.vf = false ∨ f.part ≠ p) || decide (issuer ≠ none ∧ issuer ≠ some r.vf) ||
  !ownsAsid f r.asid || (decide (r.target = 2) && !ownsThread f r.thread) ||
  s.entries.any (fun e => decide (e.2.part = p ∧ e.2.cls = c)) || (freeSlotOf (partOf s p)).isNone

/-- An accepted record (R266): its handle and the partition after it. -/
def installClass (q : Partition) (c : Nat) (r : JqClass) : Word × Partition :=
  let n := (freeSlotOf q).getD 0
  let g := clsGenOf q c + 1
  let freed := q.handles.map fun e => if e.2.used ∧ e.2.cls = c then (e.1, freeSlot e.2) else e
  let h : HandleSlot := { slotAt q n with used := true, cls := c, clsGen := g, rights := 7, vf := r.vf }
  (handleWord n h,
   { q with classes := tput q.classes c r, clsGens := tput q.clsGens c g, handles := tput freed n h })

/-- JQCTL.CLASSSET (R265, R266, R288). -/
def execJqctlClassset (d a b : XReg) (s : State) : Result :=
  jqctl s (.jqctlClassset d a b) .afterMatch fun s1 n =>
    match putterOf s with
    | none => privilege s (.jqctlClassset d a b)
    | some (p, v) =>
      let c := (rx s a).toNat % 256
      let owner := (tfind (partOf s p).classes c).map JqClass.vf
      if v ≠ none ∧ owner ≠ v then privilege s (.jqctlClassset d a b)
      else
        let w := storeWords (thrOf s n) ((rx s b).toNat / 8 * 8) 16
        if 16 ≤ (classOfRecord w).op then raise s causeRights (rx s a)
        else if classRefused s p v c w then wr s1 d 0
        else
          let i := installClass (partOf s p) c (classOfRecord w)
          wr (setPart s1 p i.2) d i.1

/-- JQCTL.CLASSGET (R289). -/
def execJqctlClassget (d a b : XReg) (s : State) : Result :=
  jqctlWith s (.jqctlClassget d a b) .afterMatch a rightTake fun s _ p l =>
    let q := partOf s p
    let x := rx s b
    let rights := l.rights &&& bfld x 2 0
    let v : VfId := Fin.ofNat 128 (bfld x 22 16)
    if rights = 0 then
      wr (setPart s p { q with handles := tmod q.handles (bfld (rx s a) 11 0) freeSlot }) d 0
    else if bfld x 63 23 ≠ 0 ∨ bfld x 15 3 ≠ 0 ∨ vfStands s v = false ∨ (vfOf s v).part ≠ p then wr s d 0
    else match freeSlotOf q with
      | none => wr s d 0
      | some n =>
        let h := { slotAt q n with used := true, cls := l.cls, clsGen := l.clsGen, rights := rights, vf := v }
        wr (setPart s p { q with handles := tput q.handles n h }) d (handleWord n h)

/-- The class is frozen (R287). -/
def classFrozen (s : State) (p : PartId) (c : Nat) : Bool :=
  match tfind (partOf s p).classes c with
  | some r => r.frozen
  | none => false

/-- JQCTL.FREEZE (R287, R288). -/
def execJqctlFreeze (d a b : XReg) (s : State) : Result :=
  jqctlWith s (.jqctlFreeze d a b) .afterMatch a rightTake fun s _ p l =>
    wr (freezeClass s p l.cls) d (flagWord (classFrozen s p l.cls))

/-- The FAULTED entries of a class that do not already wait at the port, in ascending age. -/
def faultedOf (s : State) (p : PartId) (c : Nat) : List (Nat × JqEntry) :=
  sortBy (fun x y => decide (x.2.age < y.2.age ∨ (x.2.age = y.2.age ∧ x.2.place < y.2.place)))
    (s.entries.filter fun e => decide (e.2.part = p ∧ e.2.cls = c ∧ e.2.state = .faulted) &&
      s.arrivals.all fun a => decide (a.work ≠ .reentry e.1))

/-- Send entries back to the port, or free them (R290). -/
def thawEntries (s : State) (requeue : Bool) : List (Nat × JqEntry) → State
  | [] => s
  | e :: es => thawEntries (if requeue then arrive s 4 noLodging (.reentry e.1) else freeEntry s e.1) requeue es

/-- A JQCTL of a thread that may change entries: while the class's VF is FROZEN the word waits, its entries held (R415,
DEDUCED, log 71). -/
def jqctlEntries (s : State) (i : Instr) (ph : PortPhase) (a : XReg) (need : Nat)
    (f : State → ThreadId → PartId → HandleSlot → Result) : Result :=
  jqctlWith s i ph a need fun s1 n p l => if classHeld s p l.cls then .next s else f s1 n p l

/-- JQCTL.THAW (R290). -/
def execJqctlThaw (d a b : XReg) (s : State) : Result :=
  jqctlEntries s (.jqctlThaw d a b) .afterMatch a rightTake fun s _ p l =>
    let es := faultedOf s p l.cls
    let s1 := modPart s p fun q => { q with classes := tmod q.classes l.cls fun r => { r with frozen := false } }
    wr (thawEntries s1 (bbit (rx s b) 0) es) d (word es.length)

/-- The state code of an entry (R268). -/
def stateCode : EntryState → Nat
  | .free => 0
  | .waiting => 1
  | .ready => 2
  | .selected => 3
  | .dispatched => 4
  | .parked => 5
  | .held => 6
  | .faulted => 7

/-- The record of a taken entry (R291). -/
def takenRecord (e : JqEntry) : List Word :=
  [e.key, word (e.folds * 2 ^ 32 + (if e.ovf then 2 ^ 31 else 0) + e.prio * 2 ^ 8 + stateCode e.state)] ++
    payWords e.payload

/-- The entry is selected before another of its class: priority, then age, then fold order (R282). -/
def entryBefore (a b : Nat × JqEntry) : Bool :=
  decide (b.2.prio < a.2.prio ∨ (a.2.prio = b.2.prio ∧
    (a.2.age < b.2.age ∨ (a.2.age = b.2.age ∧ a.2.place < b.2.place))))

/-- The best entry of a list. -/
def bestEntry : List (Nat × JqEntry) → Option (Nat × JqEntry)
  | [] => none
  | e :: es => match bestEntry es with
    | none => some e
    | some f => if entryBefore f e then some f else some e

/-- TAKE and STEAL hand over an entry: its record to the core-local store, and it becomes FREE (R291). -/
def takeEntry (s : State) (n : ThreadId) (d b : XReg) : Option (Nat × JqEntry) → Result
  | none => wr s d 1
  | some (id, e) =>
    wr (modThr (freeEntry s id) n fun h => storePutWords h ((rx s b).toNat / 8 * 8) (takenRecord e)) d 0

/-- JQCTL.TAKE (R291). -/
def execJqctlTake (d a b : XReg) (s : State) : Result :=
  jqctlEntries s (.jqctlTake d a b) .inSelect a rightTake fun s n p l =>
    takeEntry s n d b (bestEntry (s.entries.filter fun e =>
      decide (e.2.part = p ∧ e.2.cls = l.cls ∧ e.2.state = .ready)))

/-- JQCTL.STEAL (R291). -/
def execJqctlSteal (d a b : XReg) (s : State) : Result :=
  jqctlEntries s (.jqctlSteal d a b) .inSelect a rightSteal fun s n p l =>
    takeEntry s n d b (findMatch s p l.cls (storeWord (thrOf s n) ((rx s b).toNat / 8 * 8)) none)

/-- The entry created last of a list (R292). -/
def newestEntry : List (Nat × JqEntry) → Option (Nat × JqEntry)
  | [] => none
  | e :: es => match newestEntry es with
    | none => some e
    | some f => if e.2.made < f.2.made then some f else some e

/-- The entry that QUERY reports (R292). -/
def queryEntry (s : State) (p : PartId) (c : Nat) (key : Word) : Option JqEntry :=
  match findMatch s p c key none with
  | some (_, e) => some e
  | none => (newestEntry (s.entries.filter fun e =>
      decide (e.2.part = p ∧ e.2.cls = c ∧ e.2.key = key))).map Prod.snd

/-- QUERY's answer (R292). -/
def queryWord (frozen : Bool) : Option JqEntry → Word
  | none => word (if frozen then 2 ^ 11 else 0)
  | some e => word (e.folds * 2 ^ 32 + (if e.ovf then 2 ^ 31 else 0) + (if frozen then 2 ^ 11 else 0) +
      e.prio * 2 ^ 8 + stateCode e.state)

/-- QUERY may act: the states are those that the last match phase left, and the thread's earlier requests, where the issuer
is a thread, have been dealt with (R292, R293). -/
def issuerPutsDone (s : State) : Bool :=
  match s.cur with
  | .tile _ _ => !s.selected
  | .thread n => threadPutsDone s n && portReady s n .beforeSelect

/-- QUERY of a thread is dealt with in the present port cycle (R293). -/
def queryDealt (s : State) : State :=
  match s.cur with
  | .tile _ _ => s
  | .thread n => setDealt s n s.portCycle

/-- JQCTL.QUERY (R292), on tiles and threads. -/
def execJqctlQuery (d a b : XReg) (s : State) : Result :=
  scalar s (.jqctlQuery d a b)
    (if issuerPutsDone s then
      match putterOf s with
      | none => raise s causeRights (rx s a)
      | some (p, v) => match checkHandle s p v (rx s a) 7 with
        | none => raise s causeRights (rx s a)
        | some l => wr (queryDealt s) d (queryWord (classFrozen s p l.cls) (queryEntry s p l.cls (rx s b)))
     else .next s)

end Sys2Proof.Machine
end

