-- ==== Sys2Proof/Machine/Page.lean ====
section
/-! DEFINITION. Page waits, invalidation, segment moves, the Lodging table, the Parlour and expert fetches
(12 R347 to R369). -/

namespace Sys2Proof.Machine

/-! ### Page waits (R352) -/

/-- The wait of an item of partition `p` after those that satisfy `f` end. -/
def waitAfter (f : PartId → Nat × Nat → Bool) (p : PartId) : Option (Nat × Nat) → Option (Nat × Nat)
  | some x => if f p x then none else some x
  | none => none

/-- End the page waits of the cards of some partitions. -/
def releaseCards (s : State) (f : PartId → Nat × Nat → Bool) : List PartId → State
  | [] => s
  | p :: ps => releaseCards (modPart s p fun q =>
      { q with cards := q.cards.map fun c => (c.1, { c.2 with pageWait := waitAfter f p c.2.pageWait }) }) f ps

/-- End the page waits of gangs and cards whose pair satisfies `f`. -/
def releaseWaits (s : State) (f : PartId → Nat × Nat → Bool) : State :=
  releaseCards { s with gangs := s.gangs.map fun g =>
    (g.1, { g.2 with pageWait := waitAfter f g.2.part g.2.pageWait }) } f (allFin 40)

/-! ### TLBI (R347) -/

/-- The entry is one that the TLBI removes. -/
def tlbiCovers (s : State) (p : PartId) (kind : Nat) (va : Word) (asid : Nat) (e : TlbEntry) : Bool :=
  match kind with
  | 0 => decide (e.asid = asid ∧ e.base ≤ va.toNat ∧ va.toNat < e.base + e.size)
  | 1 => decide (e.asid = asid)
  | _ => decide ((vfOfAsid s e.asid).map (fun v => (vfOf s v).part) = some p)

/-- A waiting pair is in the TLBI's scope. -/
def tlbiReleases (p : PartId) (kind : Nat) (va : Word) (asid : Nat) (gp : PartId) (w : Nat × Nat) : Bool :=
  match kind with
  | 0 => decide (w = (asid, va.toNat / 2 ^ 16))
  | 1 => decide (w.1 = asid)
  | _ => decide (gp = p)

/-- A walker's kept entry is one that the TLBI removes: of its ASID, and with .VA covering the address at its level; a root
word goes with any TLBI of its ASID (R346). -/
def tlbiCoversKept (s : State) (p : PartId) (kind : Nat) (va : Word) (asid : Nat) (e : KeptEntry) : Bool :=
  match kind with
  | 0 => decide (e.asid = asid ∧ va.toNat < 2 ^ 56 ∧ e.range = keptRange va.toNat e.level)
  | 1 => decide (e.asid = asid)
  | _ => decide ((vfOfAsid s e.asid).map (fun v => (vfOf s v).part) = some p)

/-- Drop entries from the TLBs of a partition's tiles. -/
def dropTlb (s : State) (p : PartId) (f : TlbEntry → Bool) : List TileId → State
  | [] => s
  | t :: ts =>
    dropTlb (if tileInPart (partOf s p) t then modTile s t fun T => { T with tlb := T.tlb.filter fun e => !f e } else s)
      p f ts

/-- The ASID is one that the thread may name: its VF's at Guest level, its partition's above (R98, R347). -/
def mayNameAsid (s : State) (n : ThreadId) (a : Nat) : Bool :=
  match vfOfAsid s a with
  | none => false
  | some v => if levelOf s n = 0 then decide (vfOfThread s n = some v)
      else decide (partOfThread s n = some (vfOf s v).part)

/-- The thread begins a TLBI and waits for it. -/
def beginTlbi (s : State) (n : ThreadId) (kind : Nat) (va : Word) (asid : Nat) : Result :=
  .next (modThr (advance s 4) n fun h => { h with wait := .tlbi kind va asid })

/-- TLBI.VA (R347). -/
def execTlbiVa (a b : XReg) (s : State) : Result :=
  onThread s (.tlbiVa a b) fun n =>
    let asid := (rx s b).toNat % 256
    if mayNameAsid s n asid then beginTlbi s n 0 (rx s a) asid else privilege s (.tlbiVa a b)

/-- TLBI.ASID (R347). -/
def execTlbiAsid (b : XReg) (s : State) : Result :=
  onThread s (.tlbiAsid b) fun n =>
    let asid := (rx s b).toNat % 256
    if mayNameAsid s n asid then beginTlbi s n 1 0 asid else privilege s (.tlbiAsid b)

/-- TLBI.ALL (R347): a Guest may not. -/
def execTlbiAll (s : State) : Result :=
  onThread s .tlbiAll fun n =>
    if levelOf s n = 0 ∨ (partOfThread s n).isNone then privilege s .tlbiAll else beginTlbi s n 2 0 0

/-- An access that was translated with an entry that the TLBI removes is held at the segment row: it has not reached the
memory side (R347, R350). -/
def tlbiHeld (s : State) (p : PartId) (kind : Nat) (va : Word) (asid : Nat) : Bool :=
  s.holds.any fun h => holdLives s h && h.leaf.any (tlbiCovers s p kind va asid)

/-- A TLBI completes: the entries are gone, its page waits end, and the thread goes on (R347, R352). -/
def execTlbiComplete (th : ThreadId) (s : State) : Result :=
  match (thrOf s th).wait, partOfThread s th with
  | .tlbi kind va asid, some p =>
    if tlbiHeld s p kind va asid then .next s
    else
    let s0 := { s with kept := s.kept.filter fun e => !tlbiCoversKept s p kind va asid e }
    let s1 := dropTlb s0 p (tlbiCovers s p kind va asid) (allFin 256)
    let s2 := releaseWaits s1 (tlbiReleases p kind va asid)
    .next (modThr s2 th fun h => { h with wait := .none })
  | _, _ => .next s

/-! ### Segment moves (R348, R349) -/

/-- The VF that SEGHOLD and SEGREL name, if the thread may name it. -/
def segVf (s : State) (n : ThreadId) (a : XReg) : Option VfId :=
  let v : VfId := Fin.ofNat 128 ((rx s a).toNat % 128)
  match partOfThread s n with
  | none => none
  | some p => if levelOf s n ≠ 0 ∧ partOfVf s v = some p then some v else none

/-- SEGHOLD (R348). -/
def execSeghold (a : XReg) (s : State) : Result :=
  onThread s (.seghold a) fun n => match segVf s n a with
    | none => privilege s (.seghold a)
    | some v =>
      if vfStands s v = false ∨ (vfOf s v).segHeld then done4 s
      else .next (modThr (modVf (advance s 4) v fun f => { f with segHeld := true }) n
        fun h => { h with wait := .seghold v })

/-- SEGHOLD completes (R348). -/
def execSegholdComplete (th : ThreadId) (s : State) : Result :=
  match (thrOf s th).wait with
  | .seghold _ => .next (modThr s th fun h => { h with wait := .none })
  | _ => .next s

/-- SEGREL (R349). -/
def execSegrel (a : XReg) (s : State) : Result :=
  onThread s (.segrel a) fun n => match segVf s n a with
    | none => privilege s (.segrel a)
    | some v =>
      let f := vfOf s v
      let q := partOf s f.part
      let base := bfld (rx s a) 47 21 * 2 ^ 21
      if f.segHeld = false then done4 s
      else if base < q.carveBase ∨ q.carveBase + q.carveSize < base + f.segSize then raise s causeSegment (word base)
      else done4 (setVf s v { f with segBase := base, segHeld := false })

/-! ### The Lodging table (R354, R357, R363) -/

/-- Frames that a length needs (R360). -/
def framesFor (len : Nat) : Nat := (len + frameSize - 1) / frameSize

/-- The Lodging entry of a VF's expert (R354). -/
def lodgingOf (s : State) (v : VfId) (expert : Nat) : Option (Nat × Lodging) :=
  s.lodging.find? fun e => decide (e.2.vf = v ∧ e.2.expert = expert)

def modLodging (s : State) (l : Nat) (f : Lodging → Lodging) : State := { s with lodging := tmod s.lodging l f }

/-- LODGING_DONE to the NOTIFY thread (R363, R381). -/
def lodgingDone (s : State) (e : Lodging) (state : Nat) (failed : Bool) : State :=
  match e.notify with
  | none => s
  | some n => sendEvent s n
      { summary := summaryWord 5 0 e.vf.val e.expert
        record := pad16 [word (e.expert * 2 ^ 44 + e.vf.val * 2 ^ 16 + state * 2 ^ 8 + (if failed then 1 else 0)),
                         word e.vbase] }

/-! ### The Parlour and the spill ring (R364 to R367) -/

/-- Parlour links of a partition. -/
def parlourUsed (s : State) (p : PartId) : Nat :=
  (s.lodging.map fun e => if e.2.part = p then e.2.parlour.length else 0).sum

/-- Physical address of place `i` of a partition's spill ring. -/
def ringAt (q : Partition) (i : Nat) : Nat := q.spillBase + 16 * (i % q.spillSize)

/-- Add a ring entry: JQ entry number, Lodging entry number and zeros (R365). -/
def ringPush (s : State) (p : PartId) (l id : Nat) : State :=
  let q := partOf s p
  let a := ringAt q (q.spillHead + q.spillCount)
  modPart (physWrite (saveFirst s a 16) a (leBytes 4 id ++ leBytes 4 l ++ leBytes 8 0)) p
    fun q => { q with spillCount := q.spillCount + 1 }

/-- The next back-off of an entry (R366). -/
def nextBackoff (b : Nat) : Nat := if b = 0 then 1000 else min (2 * b) 100000

/-- A VF's entry may re-enter: its VF is not FROZEN (R367). -/
def notFrozen (s : State) (v : VfId) : Bool := decide ((vfOf s v).state ≠ 3)

/-- A fetch starts for an ABSENT expert; one that is EVICTING starts it later (R357). -/
def parkFetch (s : State) (l : Nat) : State :=
  modLodging s l fun e => if e.state = 0 then { e with state := 1 }
    else if e.state = 3 then { e with wanted := true } else e

/-- An entry whose expert is not RESIDENT parks, or is HELD (R284, R364, R366). -/
def parkEntry (s : State) (l : Nat) (id : Nat) (e : JqEntry) : State :=
  let q := partOf s e.part
  if parlourUsed s e.part < q.parlShare then
    let s := addStat (setEntry s id { e with state := .parked }) e.part 0 1
    parkFetch (modLodging s l fun x => { x with parlour := x.parlour ++ [id] }) l
  else if q.spillCount < q.spillSize then
    parkFetch (addStat (ringPush (setEntry s id { e with state := .parked }) e.part l id) e.part 1 1) l
  else
    let b := nextBackoff e.backoff
    addStat (setEntry s id { e with state := .held, backoff := b, backoffLeft := b }) e.part 2 1

/-- The VF of an entry's class. -/
def entryVf (s : State) (e : JqEntry) : Option VfId := (tfind (partOf s e.part).classes e.cls).map JqClass.vf

/-- The entry is PARKED on the expert (R365). -/
def parkedOn (s : State) (id : Nat) (x : Lodging) : Bool :=
  match tfind s.entries id with
  | none => false
  | some e => decide (e.state = .parked ∧ e.part = x.part ∧ entryVf s e = some x.vf ∧ bfld e.key 63 44 = x.expert)

/-- Re-enter each link of a list, in order (R366). -/
def reenterAll (s : State) (l : Nat) : List Nat → State
  | [] => s
  | id :: ids => reenterAll (arrive s 4 l (.reentry id)) l ids

/-- The links of a RESIDENT expert re-enter, unless its VF is FROZEN (R366, R367). -/
def reenterParlour (s : State) (l : Nat) : State :=
  match tfind s.lodging l with
  | none => s
  | some x =>
    if x.state = 2 ∧ notFrozen s x.vf then
      modLodging (reenterAll s l x.parlour) l fun x => { x with parlour := [] }
    else s

/-- Take the oldest ring entry into the Parlour (R365). -/
def ringPop (s : State) (p : PartId) : State :=
  let q := partOf s p
  let a := ringAt q q.spillHead
  let id := leNat (physRead s a 4)
  let l := leNat (physRead s (a + 4) 4)
  let s := modPart s p fun q => { q with spillHead := (q.spillHead + 1) % q.spillSize, spillCount := q.spillCount - 1 }
  match tfind s.lodging l with
  | none => s
  | some x =>
    if parkedOn s id x then reenterParlour (modLodging s l fun x => { x with parlour := x.parlour ++ [id] }) l else s

/-- While a link is free, the ring's oldest entries move into the Parlour (R365). -/
def refillParlour (s : State) (p : PartId) : Nat → State
  | 0 => s
  | n + 1 =>
    if 0 < (partOf s p).spillCount ∧ parlourUsed s p < (partOf s p).parlShare then refillParlour (ringPop s p) p n
    else s

/-- Links were freed: re-enter or refill (R365, R366). -/
def freedLinks (s : State) (p : PartId) : State := refillParlour s p (partOf s p).spillCount

/-! ### Frames (R342, R360) -/

/-- IPAs in use by a VF's experts. -/
def framesOf (s : State) (v : VfId) : List Nat := s.lodging.flatMap fun e => if e.2.vf = v then e.2.frames else []

/-- The free pool frames of a VF, by ascending IPA. -/
def freePool (s : State) (v : VfId) : List Nat :=
  match (vfOf s v).pool with
  | none => []
  | some b =>
    let used := framesOf s v
    ((List.range (vfOf s v).frGuar).map fun i => b + frameSize * i).filter fun a => !used.contains a

/-- The frame number of a loan IPA of a partition. -/
def loanFrame (q : Partition) (ipa : Nat) : Nat := (q.loanBase + (ipa - loanIpa)) / frameSize

/-- The free loan frames of a partition, as IPAs. -/
def freeLoan (s : State) (p : PartId) : List Nat :=
  let q := partOf s p
  ((List.range (q.loanSize / frameSize)).map fun i => loanIpa + frameSize * i).filter fun a =>
    decide (tget 0 s.owners (loanFrame q a) = 0)

/-- Loan frames that a VF holds: those with its tag. -/
def loanHeld (s : State) (v : VfId) : Nat :=
  (s.owners.filter fun e => decide (e.2.toNat = v.val + 1)).length

/-- usage of a VF in frames (R342). -/
def frameUsage (s : State) (v : VfId) : Nat :=
  ((framesOf s v).filter fun a => decide (a < loanIpa)).length + loanHeld s v

/-- An unpinned RESIDENT expert. -/
def evictable (e : Lodging) : Bool := decide (e.state = 2 ∧ e.pin = 0)

/-- The expert with the least LAST, the lowest number first. -/
def leastLast : List (Nat × Lodging) → Option (Nat × Lodging)
  | [] => none
  | e :: es => match leastLast es with
    | none => some e
    | some f => if f.2.last < e.2.last then some f else some e

/-- The experts of other VFs that may lose their loan frames (R360). -/
def loanVictims (s : State) (p : PartId) (v : VfId) : List (Nat × Lodging) :=
  s.lodging.filter fun e => decide (e.2.part = p ∧ e.2.vf ≠ v ∧ (vfOf s e.2.vf).frGuar < frameUsage s e.2.vf) &&
    evictable e.2 && e.2.frames.any fun a => decide (loanIpa ≤ a)

/-- Begin an eviction (R357). -/
def evictExpert (s : State) (l : Nat) : State := modLodging s l fun e => { e with state := 3 }

/-- Tag and zero loan frames for a VF (R360). -/
def takeLoan (s : State) (q : Partition) (v : VfId) : List Nat → State
  | [] => s
  | a :: as =>
    let f := loanFrame q a
    takeLoan { zeroRange s (f * frameSize) frameSize with owners := tset 0 s.owners f (BitVec.ofNat 8 (v.val + 1)) } q v as

/-! ### The transfers of a fetch (R361) -/

/-- Bytes of one transfer: a frame from CXL, 64 LBAs from a drive. -/
def pieceBytes (e : Lodging) : Nat := if e.nvme then 2 ^ 18 else frameSize
/-- Transfers of one entry in flight at most. -/
def pieceLimit (e : Lodging) : Nat := if e.nvme then 32 else 4
/-- Transfers of a fetch. -/
def pieceCount (e : Lodging) : Nat := (e.length + pieceBytes e - 1) / pieceBytes e
/-- Where transfer `i` begins at the tier: a physical address, or an LBA. -/
def pieceTier (e : Lodging) (i : Nat) : Nat := e.loc.toNat + (if e.nvme then 64 else frameSize) * i

/-- The request of transfer `i` of entry `l`. -/
def pieceRequest (l : Nat) (e : Lodging) (i : Nat) : Drover :=
  let off := pieceBytes e * i
  { kind := .fetch l i, part := some e.part, pool := if e.nvme then 1 + e.port else 0, unit := none, pos := 0,
    vf := some e.vf, src := if e.nvme then nvmeAddr e.port e.nsid (pieceTier e i * 4096) else pieceTier e i,
    dst := e.frames.getD (off / frameSize) 0 + off % frameSize, length := min (pieceBytes e) (e.length - off),
    done := none, notify := none }

/-- The request is a transfer of a Lodging entry. -/
def pieceOf (l : Nat) (x : Drover) : Bool :=
  match x.kind with
  | .fetch m _ => decide (m = l)
  | _ => false

/-- Transfers of an entry in flight. -/
def inFlight (s : State) (l : Nat) : Nat := (s.drovers.filter fun x => pieceOf l x.2).length

/-- Ask for the next transfers of a fetch, up to its limit. -/
def askPieces (s : State) (l : Nat) : Nat → State
  | 0 => s
  | n + 1 => match tfind s.lodging l with
    | none => s
    | some e =>
      if e.state = 1 ∧ e.fetching ∧ e.issued < pieceCount e ∧ inFlight s l < pieceLimit e then
        askPieces (modLodging (addDrover s (pieceRequest l e e.issued)) l fun e => { e with issued := e.issued + 1 }) l n
      else s

/-- One ARRIVING entry without frames takes them, or chooses a victim, or waits (R360). -/
def takeFrames (s : State) (l : Nat) : State :=
  match tfind s.lodging l with
  | none => s
  | some e =>
    if e.state ≠ 1 ∨ e.fetching then s
    else
      let n := framesFor e.length
      let pool := freePool s e.vf
      let loan := freeLoan s e.part
      let room := (vfOf s e.vf).frBurst - loanHeld s e.vf
      if n ≤ pool.length + min loan.length room then
        let takePool := pool.take n
        let fromLoan := loan.take (n - takePool.length)
        askPieces (addStat (modLodging (takeLoan s (partOf s e.part) e.vf fromLoan) l fun e =>
          { e with frames := takePool ++ fromLoan, fetching := true, issued := 0 }) e.part 3 1) l 32
      else if s.lodging.any (fun x => decide (x.2.part = e.part ∧ x.2.state = 3)) then s
      else
        let others := if loan.length < room then leastLast (loanVictims s e.part e.vf) else none
        match others with
        | some x => evictExpert s x.1
        | none => match leastLast (s.lodging.filter fun x => decide (x.2.vf = e.vf) && evictable x.2) with
          | some x => evictExpert s x.1
          | none => s

def takeAllFrames (s : State) : List (Nat × Lodging) → State
  | [] => s
  | e :: es => takeAllFrames (takeFrames s e.1) es

/-- The victim step of a port cycle, after its consultations (R359). -/
def victimStep (s : State) : State := takeAllFrames s s.lodging

/-- The frames of an entry are freed; a loan frame's tag becomes 0 (R357). -/
def freeFrames (s : State) (q : Partition) : List Nat → State
  | [] => s
  | a :: as =>
    freeFrames (if loanIpa ≤ a then { s with owners := tset 0 s.owners (loanFrame q a) 0 } else s) q as

/-! ### Fetches (R357, R361, R362) -/

/-- Bytes of the last frame beyond LENGTH. -/
def tailBytes (e : Lodging) : Nat := framesFor e.length * frameSize - e.length

/-- Where they begin. -/
def tailIpa (e : Lodging) : Nat := e.frames.getLastD 0 + (frameSize - tailBytes e)

/-- They are set to zero (R360). -/
def zeroTail (s : State) (e : Lodging) : State := ipaWrite s e.vf (tailIpa e) (List.replicate (tailBytes e) 0)

/-- Every transfer has landed: the expert is RESIDENT, its page waits end and its parked entries re-enter (R357, R361,
R366). -/
def execFetchComplete (entry : Nat) (s : State) : Result :=
  match tfind s.lodging entry with
  | none => .next s
  | some e =>
    if e.state ≠ 1 ∨ e.fetching = false ∨ e.issued ≠ pieceCount e ∨ inFlight s entry ≠ 0 ∨
       writeWaits s (some e.vf) (tailIpa e) (tailBytes e) then
      .next (if e.state = 1 ∧ e.fetching then wantWrites s (some e.vf) (tailIpa e) (tailBytes e) else s)
    else
      let s1 := modLodging (zeroTail s e) entry fun e => { e with state := 2, fetching := false }
      let s2 := releaseWaits s1 fun _ w => decide (vfOfAsid s w.1 = some e.vf ∧ e.vbase ≤ w.2 * 2 ^ 16 + 65535 ∧
        w.2 * 2 ^ 16 < e.vbase + e.length)
      .next (freedLinks (reenterParlour (lodgingDone s2 e 2 false) entry) e.part)

/-- Entries parked on an expert: its Parlour list, then the ring's (R362). -/
def parkedEntries (s : State) (l : Nat) (e : Lodging) : List Nat :=
  let q := partOf s e.part
  let ring := (List.range q.spillCount).filterMap fun i =>
    let a := ringAt q (q.spillHead + i)
    let id := leNat (physRead s a 4)
    if leNat (physRead s (a + 4) 4) = l ∧ parkedOn s id e then some id else none
  e.parlour ++ ring

/-- Fault each parked entry and freeze its class (R362). -/
def faultParked (s : State) : List Nat → State
  | [] => s
  | id :: ids => match tfind s.entries id with
    | none => faultParked s ids
    | some e => faultParked (freezeClass (faultEntry s id) e.part e.cls) ids

/-- A fetch fails at a tier address: its other transfers are abandoned (R362). -/
def failFetch (s : State) (entry : Nat) (e : Lodging) (tierAddr : Word) : State :=
  let s := dropDrovers s (pieceOf entry)
  let parked := parkedEntries s entry e
  let first := (parked.head?.bind fun id => tfind s.entries id)
  let cls := first.elim 0 JqEntry.cls
  let key := first.elim 0 JqEntry.key
  let asid := (tfind (partOf s e.part).classes cls).elim 0 JqClass.asid
  let s1 := modLodging (freeFrames s (partOf s e.part) e.frames) entry fun e =>
    { e with state := 0, frames := [], fetching := false, issued := 0, parlour := [] }
  let s2 := addStat (faultParked s1 parked) e.part 6 1
  let s3 := sendVfFault s2 e.vf (faultRecord s 0 0 0 (if parked = [] then 0 else 1) 6 0 causeEcc 0 tierAddr
    e.part.val (if first.isSome then asid else 0) e.vf.val cls key 0)
  freedLinks (lodgingDone s3 e 0 true) e.part

/-- The tier address of a transfer of an entry. -/
def tierOf (e : Lodging) (x : Drover) : Nat :=
  match x.kind with
  | .fetch _ i => pieceTier e i
  | _ => 0

/-- A transfer of the entry that begins at the tier address is in flight. -/
def flying (s : State) (entry : Nat) (e : Lodging) (a : Nat) : Bool :=
  s.drovers.any fun x => pieceOf entry x.2 && decide (x.2.unit ≠ none ∧ tierOf e x.2 = a)

/-- A fetch fails: one of its transfers in flight, by its tier address (R362). -/
def execFetchFailure (entry : Nat) (tierAddr : BitVec 64) (s : State) : Result :=
  match tfind s.lodging entry with
  | none => .next s
  | some e =>
    if e.state ≠ 1 ∨ e.fetching = false ∨ flying s entry e tierAddr.toNat = false then .next s
    else .next (failFetch s entry e tierAddr)

/-- The drive of a transfer shows no namespace of 4096-byte LBAs that holds it (R361). -/
def badNamespace (s : State) (e : Lodging) (i : Nat) : Bool :=
  e.nvme && match tfind s.namespaces (2 ^ 32 * e.port + e.nsid) with
  | none => true
  | some (lba, blocks) => decide (lba ≠ 4096 ∨ blocks * 4096 < (pieceTier e i * 4096) + min (pieceBytes e) (e.length - pieceBytes e * i))

/-- A transfer of a fetch ends: the bytes that have not landed land, and the next is asked for. A tier error, a port that is
down or a namespace of another LBA size fails the fetch (R361, R362, R412). -/
def endPiece (s : State) (id : Nat) (x : Drover) (entry i : Nat) (tierError : Bool) : State :=
  match tfind s.lodging entry with
  | none => dropDrover s id
  | some e =>
    if tierError ∨ badNamespace s e i ∨ (e.nvme = false ∧ cxlUses s x.src x.length (portDown s .cxl)) then
      failFetch s entry e (word (pieceTier e i))
    else
      let s1 := landTransfer s id x (x.length - x.pos)
      askPieces (dropDrover s1 id) entry 32

/-- An access to the range of an expert is held at the segment row: it has not reached the memory side (R357). -/
def expertHeld (s : State) (e : Lodging) : Bool :=
  s.holds.any fun h => holdLives s h && decide (h.vf = e.vf ∧ e.vbase ≤ h.va ∧ h.va < e.vbase + e.length ∧ h.ipa ≠ none) &&
    (match h.who with
     | .publish _ _ => false
     | .transfer _ => false
     | .landing _ => false
     | _ => true)

/-- An eviction completes (R357): frames are freed, and the expert is fetched again where parks arrived. A REMOVE frees
the entry, and any park that came meanwhile re-enters the port. -/
def execEvictionComplete (entry : Nat) (s : State) : Result :=
  match tfind s.lodging entry with
  | none => .next s
  | some e =>
    if e.state ≠ 3 ∨ expertHeld s e then .next s
    else
      let s1 := addStat (freeFrames s (partOf s e.part) e.frames) e.part 5 1
      let s2 := lodgingDone s1 e 0 false
      if e.removing then
        let s3 := reenterAll s2 noLodging e.parlour
        .next (freedLinks { s3 with lodging := tdel s3.lodging entry } e.part)
      else .next (modLodging s2 entry fun e =>
        { e with state := if e.wanted then 1 else 0, frames := [], issued := 0, wanted := false })

/-! ### The lodging endpoint (R355, R356) -/

def msgWords (m : Msg) : List Word := [m.w0, m.w1, m.w2, m.w3, m.w4, m.w5, m.w6, m.w7]

def lodgeCmd (m : Msg) : Nat := bfld m.w0 2 0
def lodgeVf (m : Msg) : VfId := Fin.ofNat 128 (bfld m.w0 22 16)
def lodgeExpert (m : Msg) : Nat := bfld m.w0 63 44

/-- A reserved bit of a lodging message is set. -/
def lodgeReserved (m : Msg) : Bool :=
  decide (bfld m.w0 43 42 ≠ 0 ∨ bfld m.w0 30 23 ≠ 0 ∨ bfld m.w0 15 3 ≠ 0 ∨ bfld m.w1 63 56 ≠ 0 ∨
    bfld m.w2 63 48 ≠ 0 ∨ bfld m.w3 31 11 ≠ 0 ∨ bfld m.w3 7 1 ≠ 0 ∨ m.w5 ≠ 0 ∨ m.w6 ≠ 0 ∨ m.w7 ≠ 0)

/-- The sender may send the command: a Steward thread of the partition, or a Guest thread of VF but for POOL and SPILL. -/
def lodgeSender (s : State) (n : ThreadId) (p : PartId) (m : Msg) : Bool :=
  isStewardOf s p n ||
    (decide (vfOfThread s n = some (lodgeVf m) ∧ (vfOf s (lodgeVf m)).part = p ∧ lodgeCmd m ≠ 5 ∧ lodgeCmd m ≠ 6))

/-- The tier location of an INSTALL is allowed (R356, R369). -/
def tierOk (q : Partition) (nvme : Bool) (port loc len : Nat) : Bool :=
  if nvme then q.tierPorts.getLsbD port
  else inCxl loc && decide (loc + len ≤ cxlEnd ∧ loc % 4096 = 0 ∧ q.tierBase ≤ loc ∧ loc + len ≤ q.tierBase + q.tierSize)

/-- INSTALL (R356). A CXL LOC that is not 4 KiB aligned and a LENGTH of 0, which break R355's table and are in no list of
refusals, are refused; a NOTIFY THREAD that is no thread of VF is accepted, and has the events (DESIGN CHOICE, log 70). -/
def lodgeInstall (s : State) (p : PartId) (m : Msg) : Option State :=
  let v := lodgeVf m
  let base := bfld m.w1 55 0
  let len := bfld m.w2 47 0
  let f := vfOf s v
  let q := partOf s p
  let nvme := bbit m.w3 0
  let port := bfld m.w3 10 8
  if (lodgingOf s v (lodgeExpert m)).isSome ∨ q.lodgeShare ≤ (s.lodging.filter fun e => decide (e.2.part = p)).length ∨
     (s.lodging.any fun e => decide (e.2.vf = v ∧ e.2.vbase < base + len ∧ base < e.2.vbase + e.2.length)) = true ∨
     base % frameSize ≠ 0 ∨ len = 0 ∨ f.frGuar + f.frBurst < framesFor len ∨
     tierOk q nvme port m.w4.toNat len = false then none
  else match tfree s.lodging 0 32768 with
    | none => none
    | some l => some { s with lodging := tput s.lodging l (
        { part := p, vf := v, expert := lodgeExpert m, vbase := base, length := len, state := 0, frames := [],
          nvme := nvme, port := port, nsid := bfld m.w3 63 32, loc := m.w4, pin := 0, last := 0,
          notify := if bbit m.w0 31 then some (Fin.ofNat 1024 (bfld m.w0 41 32)) else none,
          fetching := false, issued := 0, wanted := false, removing := false, parlour := [] } : Lodging) }

/-- REMOVE, PREFETCH and EVICT of an entry (R356). -/
def lodgeRemove (s : State) (l : Nat) (e : Lodging) : Option State :=
  if e.state = 1 ∨ e.state = 3 ∨ e.pin ≠ 0 ∨ parkedEntries s l e ≠ [] then none
  else if e.state = 2 then some (modLodging s l fun e => { e with state := 3, removing := true })
  else some (lodgingDone { s with lodging := tdel s.lodging l } e 0 false)

/-- POOL (R356). -/
def lodgePool (s : State) (m : Msg) : Option State :=
  let v := lodgeVf m
  let f := vfOf s v
  let base := bfld m.w1 55 0
  if (framesOf s v).any (fun a => decide (a < loanIpa)) = true ∨ base % frameSize ≠ 0 ∨
     f.segSize < base + f.frGuar * frameSize then none
  else some (setVf s v { f with pool := some base })

/-- A power of two from 2^8 to 2^20. -/
def ringSize (n : Nat) : Bool := (List.range 13).any fun i => decide (n = 2 ^ (8 + i))

/-- SPILL (R356). -/
def lodgeSpill (s : State) (p : PartId) (m : Msg) : Option State :=
  let q := partOf s p
  let base := bfld m.w1 55 0
  let n := bfld m.w2 47 0
  if q.spillCount ≠ 0 ∨ base % 4096 ≠ 0 ∨ base < q.carveBase ∨ q.carveBase + q.carveSize < base + 16 * n ∨
     ringSize n = false then none
  else some (setPart s p { q with spillBase := base, spillSize := n, spillHead := 0 })

/-- A lodging message: what it does, or none where the endpoint refuses it (R356). -/
def lodgingMsg (s : State) (n : ThreadId) (p : PartId) (m : Msg) : Option State :=
  if lodgeSender s n p m = false ∨ lodgeReserved m = true then none
  else match lodgeCmd m with
    | 1 => if vfStands s (lodgeVf m) = true ∧ (vfOf s (lodgeVf m)).part = p then lodgeInstall s p m else none
    | 5 => if vfStands s (lodgeVf m) = true ∧ (vfOf s (lodgeVf m)).part = p then lodgePool s m else none
    | 6 => lodgeSpill s p m
    | c => match lodgingOf s (lodgeVf m) (lodgeExpert m) with
      | none => none
      | some (l, e) =>
        if e.part ≠ p then none
        else match c with
          | 2 => lodgeRemove s l e
          | 3 => some (modLodging s l fun e => if e.state = 0 then { e with state := 1 } else e)
          | 4 => some (if evictable e then evictExpert s l else s)
          | _ => none

/-- A lodging message of one command, as a step of its own. -/
def lodgingStep (th : ThreadId) (m : Msg) (cmd : Nat) (s : State) : Result :=
  match partOfThread s th with
  | none => .next s
  | some p => if lodgeCmd m = cmd then .next ((lodgingMsg s th p m).getD s) else .next s

/-- INSTALL (R356). -/
def execInstall (th : ThreadId) (msg : Msg) (s : State) : Result := lodgingStep th msg 1 s
/-- REMOVE (R356). -/
def execRemove (th : ThreadId) (msg : Msg) (s : State) : Result := lodgingStep th msg 2 s
/-- PREFETCH (R356). -/
def execPrefetch (th : ThreadId) (msg : Msg) (s : State) : Result := lodgingStep th msg 3 s
/-- EVICT (R356). -/
def execEvict (th : ThreadId) (msg : Msg) (s : State) : Result := lodgingStep th msg 4 s
/-- POOL (R356). -/
def execPool (th : ThreadId) (msg : Msg) (s : State) : Result := lodgingStep th msg 5 s
/-- SPILL (R356). -/
def execSpill (th : ThreadId) (msg : Msg) (s : State) : Result := lodgingStep th msg 6 s

/-- A HELD entry's back-off has passed: it re-enters, unless its VF is FROZEN (R366, R367). -/
def execBackoffExpiry (entry : Nat) (s : State) : Result :=
  match tfind s.entries entry with
  | none => .next s
  | some e =>
    match entryVf s e with
    | none => .next s
    | some v =>
      if e.state = .held ∧ e.backoffLeft = 0 ∧ notFrozen s v ∧ s.arrivals.all (fun a => decide (a.work ≠ .reentry entry)) then
        .next (arrive s 4 ((lodgingOf s v (bfld e.key 63 44)).elim noLodging Prod.fst) (.reentry entry))
      else .next s

/-- A page wait ends after 100,000 ticks (R352). -/
def execPageWaitTimeout (item : ItemId) (s : State) : Result :=
  match item with
  | .gang g => match gangOf s g with
    | some x => if x.pageWait ≠ none ∧ 100000 ≤ x.pageTicks then
        .next (modGang s g fun g => { g with pageWait := none }) else .next s
    | none => .next s
  | .card p slot => match tfind (partOf s p).cards slot with
    | some c => if c.pageWait ≠ none ∧ 100000 ≤ c.pageTicks then
        .next (modPart s p fun q => { q with cards := tmod q.cards slot fun c => { c with pageWait := none } }) else .next s
    | none => .next s
  | .entry _ => .next s

end Sys2Proof.Machine
end

