-- ==== Sys2Proof/Machine/Group.lean ====
section
/-! DEFINITION. Gangs, cards and dispatch: the select phase, placement, starts and completions, holds, aging and
pre-emption (10 R295 to R311; 05 R126 to R131, R143 to R146; 09 R282 to R284). -/

namespace Sys2Proof.Machine

/-! ### Free tiles (R295, R308) -/

/-- A gang holds the tile. -/
def tileReserved (s : State) (t : TileId) : Bool := s.gangs.any fun g => g.2.tiles.contains t

/-- The tiles of a die, in ascending order. -/
def dieTiles (d : Nat) : List TileId := (List.range 64).map fun i => Fin.ofNat 256 (64 * (d % 4) + i)

/-- The partition's tiles on a die. -/
def partTiles (s : State) (p : PartId) (d : Nat) : List TileId := (dieTiles d).filter (tileInPart (partOf s p))

/-- The partition's tiles on a die that no gang holds. -/
def freeTiles (s : State) (p : PartId) (d : Nat) : List TileId := (partTiles s p d).filter fun t => !tileReserved s t

/-- The die's tiles are held for another item. -/
def heldFor (s : State) (p : PartId) (d : Nat) (i : ItemId) : Bool :=
  match (partOf s p).hold with
  | some (h, hd) => decide (hd = d ∧ h ≠ i)
  | none => false

/-- Tiles on which an item may be placed on a die. -/
def placeable (s : State) (p : PartId) (d : Nat) (i : ItemId) : List TileId :=
  if heldFor s p d i then [] else freeTiles s p d

/-! ### Cards (R301 to R305) -/

/-- The fields of a card record (R301). -/
def cardGang (w : List Word) : Nat := bfld (recw w 3) 5 0 + 1
def cardArgSize (w : List Word) : Nat := 16 * (bfld (recw w 3) 11 8 + 1)
def cardWin (w : List Word) : Nat := bfld (recw w 3) 15 12
def cardCap (w : List Word) : Nat := bfld (recw w 3) 40 32
def cardCount (w : List Word) : Nat := bfld (recw w 2) 31 0
def cardMin (w : List Word) : Nat := max (bfld (recw w 2) 63 48) 1
def cardEntry (w : List Word) : Nat := bfld (recw w 0) 55 0
def cardArgs (w : List Word) : Nat := bfld (recw w 1) 55 0

/-- The number of a partition's tiles. -/
def tileCount (s : State) (p : PartId) : Nat := ((allFin 256).filter (tileInPart (partOf s p))).length

/-- W: the tiles that a card may use (R303). -/
def cardTiles (s : State) (p : PartId) (w : List Word) : Nat :=
  let g := cardGang w
  let t := tileCount s p
  let c := if cardCap w = 0 then t else cardCap w
  let n := g * (min c t / g)
  if n = 0 then g else n

/-- The next chunk's size (R303). -/
def chunkSize (s : State) (p : PartId) (w : List Word) (remaining : Nat) : Nat :=
  let n := cardTiles s p w
  let lim := 2 ^ (cardWin w + 12) / cardArgSize w
  min remaining (min lim (max (cardMin w) ((remaining + 2 * n - 1) / (2 * n))))

/-- Tiles on which chunks of a card run. -/
def cardRunning (s : State) (p : PartId) (slot : Nat) : Nat :=
  (s.gangs.map fun g => if g.2.part = p ∧ g.2.chunk.map (·.1) = some slot ∧ g.2.tiles ≠ [] then g.2.size else 0).sum

/-- The card has records to deal (R303, R305). -/
def cardUndealt (c : Card) : Bool := decide (c.redeal ≠ []) || decide (c.next < cardCount c.words)

/-- One more gang of the card may run (R303). -/
def cardRoom (s : State) (p : PartId) (slot : Nat) (w : List Word) : Bool :=
  decide (cardRunning s p slot + cardGang w ≤ cardTiles s p w)

/-- A card slot is free (R302). -/
def freeCard (q : Partition) : Option Nat := tfree q.cards 0 32

/-! ### Items (R306) -/

/-- An eligible item: its VF, priority, age and cost; the tile it must run on; whether it needs tiles. -/
structure Item where
  id : ItemId
  vf : VfId
  prio : Nat
  age : Nat
  place : Nat
  sub : Nat
  cost : Nat
  tiles : Bool
  onTile : Option TileId
  unplaced : Nat
  deriving DecidableEq, Repr

/-- The VF is READY, and no FREEZE has begun (R99, R414). -/
def vfReady (s : State) (v : VfId) : Bool := decide ((vfOf s v).state = 2 ∧ (vfOf s v).freezeCtr = none)

/-- A READY entry as an item, if it is eligible. -/
def entryItem (s : State) (p : PartId) (id : Nat) (e : JqEntry) : Option Item :=
  match tfind (partOf s p).classes e.cls with
  | none => none
  | some r =>
    if e.part = p ∧ e.state = .ready ∧ r.frozen = false ∧ vfReady s r.vf ∧
       (r.target ≠ 1 ∨ e.card.isSome ∨ (freeCard (partOf s p)).isSome) then
      some { id := .entry id, vf := r.vf, prio := e.prio, age := e.age, place := e.place, sub := 0,
             cost := if r.target = 0 then r.gang else 1, tiles := decide (r.target = 0),
             onTile := e.placeTile.map (·.1), unplaced := e.unplaced }
    else none

/-- A requeued gang as an item. -/
def gangItem (s : State) (p : PartId) (id : Nat) (g : Gang) : Option Item :=
  let room : Bool := match g.chunk with
    | some (slot, _, _) => match tfind (partOf s p).cards slot with
      | some c => cardRoom s p slot c.words
      | none => true
    | none => true
  if g.part = p ∧ g.state = .queued ∧ g.pageWait = none ∧ vfReady s g.vf ∧ room then
    some { id := .gang id, vf := g.vf, prio := g.prio, age := g.age, place := g.place,
           sub := (g.chunk.map (·.2.1)).getD 0, cost := g.size, tiles := true,
           onTile := g.onTile.map (·.1), unplaced := g.unplaced }
  else none

/-- The next chunk of a card as an item. -/
def cardItem (s : State) (p : PartId) (slot : Nat) (c : Card) : Option Item :=
  match tfind s.entries c.entry with
  | none => none
  | some e => match tfind (partOf s p).classes e.cls with
    | none => none
    | some r =>
      if c.ready ∧ c.stopped = false ∧ cardUndealt c ∧ r.frozen = false ∧ vfReady s r.vf ∧ cardRoom s p slot c.words then
        some { id := .card p slot, vf := r.vf, prio := e.prio, age := e.age, place := e.place,
               sub := (c.redeal.head?.map (·.1)).getD c.next, cost := cardGang c.words, tiles := true,
               onTile := none, unplaced := c.unplaced }
      else none

/-- Every eligible item of a partition. -/
def itemsOf (s : State) (p : PartId) : List Item :=
  s.entries.filterMap (fun e => entryItem s p e.1 e.2) ++ s.gangs.filterMap (fun g => gangItem s p g.1 g.2) ++
    (partOf s p).cards.filterMap (fun c => cardItem s p c.1 c.2)

/-- The item fits on a die; no task of a VF with 256 undelivered fault records starts (R113, R295, R306). -/
def fitsOn (s : State) (p : PartId) (d : Nat) (i : Item) : Bool :=
  let f := placeable s p d i.id
  i.tiles && decide ((vfOf s i.vf).faults < 256) && match i.onTile with
    | some t => f.contains t
    | none => decide (i.cost ≤ f.length)

/-! ### The choice (R307) -/

/-- Smallest age, then fold order, then ascending record. -/
def olderItem (a b : Item) : Bool :=
  decide (a.age < b.age ∨ (a.age = b.age ∧ (a.place < b.place ∨ (a.place = b.place ∧ a.sub < b.sub))))

def oldest : List Item → Option Item
  | [] => none
  | i :: is => match oldest is with
    | none => some i
    | some j => if olderItem j i then some j else some i

/-- The next VF number of a partition, wrapping. -/
def nextVf (q : Partition) (v : Nat) : Nat := if v + 1 < q.vfFirst + q.vfCount then v + 1 else q.vfFirst

/-- Index of a deficit: priority and VF. -/
def deficitAt (prio v : Nat) : Nat := 128 * prio + v

/-- The loop of R307, turn by turn: the item, the deficits and the pointer. -/
def chooseLoop (s : State) (q : Partition) (elig cands : List Item) (prio : Nat) :
    Nat → Table Nat → Nat → Option (Item × Table Nat × Nat)
  | 0, _, _ => none
  | n + 1, ds, v =>
    let d := tget 0 ds (deficitAt prio v)
    match oldest (cands.filter fun i => decide (i.vf.val = v ∧ i.prio = prio)) with
    | some i =>
      if i.cost ≤ d then some (i, tset 0 ds (deficitAt prio v) (d - i.cost), v)
      else chooseLoop s q elig cands prio n
        (tset 0 ds (deficitAt prio v) (d + (vfOf s (Fin.ofNat 128 v)).weight)) (nextVf q v)
    | none =>
      let ds := if elig.any fun i => decide (i.vf.val = v ∧ i.prio = prio) then ds else tset 0 ds (deficitAt prio v) 0
      chooseLoop s q elig cands prio n ds (nextVf q v)

/-- The highest priority of any candidate. -/
def topPrio (cands : List Item) : Nat := cands.foldl (fun m i => max m i.prio) 0

/-- A choice among candidates, with the partition's deficits and pointer after it. -/
def choose (s : State) (p : PartId) (elig cands : List Item) : Option (Item × State) :=
  let q := partOf s p
  if cands = [] then none
  else
    let l := topPrio cands
    match chooseLoop s q elig cands l (66 * (q.vfCount + 1)) q.deficits (tget q.vfFirst q.pointers l) with
    | none => none
    | some (i, ds, v) => some (i, setPart s p { q with deficits := ds, pointers := tset q.vfFirst q.pointers l v })

/-! ### Launching (R283, R284) -/

/-- Number of 1 bits of a payload. -/
def payOnes (p : Payload) : Nat := ((payWords p).map fun w => ones w 64).sum

/-- The bucket index of an entry (R283). -/
def bucketOf (r : JqClass) (p : Payload) : Nat :=
  let v := if r.buckPayload then (payLane p 0).toNat else payOnes p
  match r.buckets.findIdx? fun b => decide (v ≤ b.1) with
  | some i => i
  | none => r.nbuck - 1

/-- The entry address and the bucket (R283). -/
def launchAddr (r : JqClass) (p : Payload) : Word × Nat :=
  if r.nbuck = 0 then (r.entry, 0)
  else
    let b := bucketOf r p
    (r.entry + BitVec.ofInt 64 ((r.buckets[b]?.map Prod.snd).getD 0), b)

/-- x6 of an entry's work (R283). -/
def foldWord (e : JqEntry) : Word := word (e.folds + (if e.ovf then 2 ^ 63 else 0))

/-- Bytes of a payload. -/
def payBytes (p : Payload) : List Byte := leBytes 64 p.toNat

/-- A gang of an entry with TARGET 0. A booking that placed its argument area on a tile gives one task on that tile even
where its class has since been set again with a larger GANG; its size, x8 and cost are the class's (DESIGN CHOICE, log 70). -/
def entryGang (id : Nat) (e : JqEntry) (r : JqClass) (tiles : List TileId) : Gang :=
  let a := launchAddr r e.payload
  let placed := e.placeTile
  { state := .placed, part := e.part, vf := r.vf, cls := e.cls, asid := r.asid, key := e.key, entryAddr := a.1,
    log2 := r.wlog2, acc := r.acc, seed := r.seed, qfmt := r.qfmt, size := r.gang, tiles := tiles, entry := id,
    chunk := none, argAddr := none, args := if placed.isSome then [] else payBytes e.payload,
    x2 := (placed.map fun x => word x.2.2).getD 64, x3 := 1, x4 := 0, x6 := foldWord e, x10 := word a.2,
    onTile := placed.map fun x => (x.1, x.2.1), runs := 0, ckpts := [], prio := e.prio, age := e.age, place := e.place,
    aged := 0, unplaced := 0, pageWait := none, pageTicks := 0, preq := false, preqTicks := 0 }

/-- Place a new gang, in this port cycle. -/
def addGang (s : State) (g : Gang) : State :=
  { s with gangs := tput s.gangs s.seq { g with placedAt := some s.portCycle }, seq := s.seq + 1 }

/-- The entry becomes DISPATCHED; its back-off resets (R366). -/
def dispatched (e : JqEntry) : JqEntry := { e with state := .dispatched, backoff := 0 }

/-- A JQ_NOTIFY event (R283, R381). -/
def notifyEvent (id : Nat) (e : JqEntry) (r : JqClass) : Event :=
  { summary := summaryWord 7 0 r.vf.val e.cls
    record := pad16 (takenRecord { e with state := .dispatched })
    entry := some id, marks := e.marks }

/-- A card takes a slot, or goes on in the slot it kept (R302, R305). -/
def activateCard (s : State) (id : Nat) (e : JqEntry) (r : JqClass) : State :=
  match e.card with
  | some slot =>
    modPart (setEntry s id (dispatched e)) e.part fun q =>
      { q with cards := tmod q.cards slot fun c => { c with stopped := false, aged := 0, activeAt := some s.portCycle } }
  | none =>
    let slot := (freeCard (partOf s e.part)).getD 0
    let a := launchAddr r e.payload
    let c : Card := { entry := id, addr := a.1, ready := false, words := [], next := 0,
                      redeal := [], live := [], stopped := false, pageWait := none, pageTicks := 0,
                      aged := 0, unplaced := 0, bucket := a.2, activeAt := some s.portCycle }
    modPart (setEntry s id { dispatched e with card := some slot }) e.part fun q =>
      { q with cards := tput q.cards slot c }

/-- A selected entry that its Lodging consultation lets through is launched (R283). -/
def launchEntry (s : State) (id : Nat) (e : JqEntry) (r : JqClass) (tiles : List TileId) : State :=
  match r.target with
  | 0 => addGang (setEntry s id (dispatched e)) (entryGang id e r tiles)
  | 1 => activateCard s id e r
  | _ => sendEvent (setEntry s id (dispatched e)) (Fin.ofNat 1024 r.thread) (notifyEvent id e r)

/-- A selected entry (R283, R284): the Lodging table is consulted first where the class names experts. -/
def selectEntry (s : State) (id : Nat) (tiles : List TileId) : State :=
  match tfind s.entries id with
  | none => s
  | some e => match tfind (partOf s e.part).classes e.cls with
    | none => s
    | some r =>
      if r.expert = false then launchEntry s id e r tiles
      else match lodgingOf s r.vf (bfld e.key 63 44) with
        | none => portFault (setEntry s id { e with state := .faulted }) e.part e.cls causeInvalid e.key e.key
        | some (l, x) =>
          if x.state = 2 then
            let s := modLodging s l fun x => { x with pin := x.pin + 1, last := tickOf s }
            launchEntry s id { e with pin := some l } r tiles
          else parkEntry s l id e

/-- A chunk's gang (R304). -/
def chunkGang (slot f n : Nat) (c : Card) (e : JqEntry) (r : JqClass) (tiles : List TileId) : Gang :=
  let w := c.words
  let size := n * cardArgSize w
  { state := .placed, part := e.part, vf := r.vf, cls := e.cls, asid := r.asid, key := e.key,
    entryAddr := word (cardEntry w), log2 := cardWin w + 12, acc := BitVec.ofNat 16 (bfld (recw w 3) 31 16),
    seed := r.seed, qfmt := r.qfmt, size := cardGang w, tiles := tiles, entry := c.entry, chunk := some (slot, f, n),
    argAddr := some (word (cardArgs w + f * cardArgSize w), size), args := [], x2 := word size, x3 := word n, x4 := word f,
    x6 := foldWord e, x10 := word c.bucket, onTile := none, runs := 0, ckpts := [], prio := e.prio, age := e.age, place := e.place,
    aged := 0, unplaced := 0, pageWait := none, pageTicks := 0, preq := false, preqTicks := 0 }

/-- Deal the next chunk: the faulted ones first, then the undealt records (R303, R305). -/
def dealChunk (s : State) (p : PartId) (slot : Nat) (tiles : List TileId) : State :=
  match tfind (partOf s p).cards slot with
  | none => s
  | some c => match tfind s.entries c.entry with
    | none => s
    | some e => match tfind (partOf s p).classes e.cls with
      | none => s
      | some r =>
        let again := c.redeal.head?
        let n := chunkSize s p c.words (cardCount c.words - c.next)
        let fn := again.getD (c.next, n)
        let c' := { c with redeal := c.redeal.tail, next := if again.isSome then c.next else c.next + n,
                           live := c.live ++ [s.seq], aged := 0, unplaced := 0 }
        addGang (modPart s p fun q => { q with cards := tput q.cards slot c' }) (chunkGang slot fn.1 fn.2 c e r tiles)

/-- A requeued gang takes tiles again (R127, R310). -/
def replaceGang (s : State) (id : Nat) (tiles : List TileId) : State :=
  modGang s id fun g =>
    { g with state := .placed, tiles := tiles, preq := false, preqTicks := 0, unplaced := 0, placedAt := some s.portCycle }

/-- Place a chosen item on tiles of a die (R295). -/
def placeItem (s : State) (p : PartId) (d : Nat) (i : Item) : State :=
  let f := placeable s p d i.id
  let tiles := match i.onTile with
    | some t => [t]
    | none => f.take i.cost
  let s := modPart s p fun q => if q.hold.map Prod.fst = some i.id then { q with hold := none } else q
  match i.id with
  | .entry id => selectEntry s id tiles
  | .gang id => replaceGang s id tiles
  | .card p slot => dealChunk s p slot tiles

/-! ### The select phase (R306) -/

/-- The Innkeeper step: up to `n` items that need no tile. -/
def innkeeperStep (s : State) (p : PartId) : Nat → State
  | 0 => s
  | n + 1 =>
    let elig := itemsOf s p
    match choose s p elig (elig.filter fun i => !i.tiles) with
    | none => s
    | some (i, s) => match i.id with
      | .entry id => innkeeperStep (selectEntry s id []) p n
      | _ => s

/-- The dispatcher of a die places at most one candidate. -/
def dieStep (s : State) (p : PartId) (d : Nat) : State :=
  let elig := itemsOf s p
  match choose s p elig (elig.filter (fitsOn s p d)) with
  | none => s
  | some (i, s) => placeItem s p d i

/-- The dispatchers of dies c mod 4, then (c + 1) mod 4, and so on. -/
def diesFrom (s : State) (p : PartId) (c : Nat) : Nat → State
  | 0 => s
  | n + 1 => diesFrom (dieStep s p (c % 4)) p (c + 1) n

/-- A hold ends when its holder stops being eligible (R308). -/
def checkHold (s : State) (p : PartId) : State :=
  match (partOf s p).hold with
  | none => s
  | some (h, _) =>
    if (itemsOf s p).any fun i => decide (i.id = h) then s else modPart s p fun q => { q with hold := none }

def selectParts (s : State) : List PartId → State
  | [] => s
  | p :: ps =>
    selectParts (if (partOf s p).state = 1 then
      diesFrom (innkeeperStep (checkHold s p) p 4) p s.portCycle 4 else s) ps

/-- The dispatchers' selections of a port cycle, and its victims (R274, R306, R359). -/
def selectPhase (s : State) : State := victimStep (selectParts s (allFin 40))

/-- The dispatchers of the present port cycle select, unless they have (R274). -/
def selectNow (s : State) : State := if s.selected then s else { selectPhase s with selected := true }

/-- A port cycle: select phase, then match phase (R274). A port cycle lasts two Innkeeper cycles, so none is ahead of its
time (R432). -/
def execPortCycle (s : State) : Result :=
  if s.ik / 2 < s.portCycle then .next s
  else .next { matchPhase (selectNow s) with portCycle := s.portCycle + 1, selected := false }

/-- Gangs of a VF placed in the present port cycle, and cards of its activated in it. -/
def launchCount (s : State) (v : VfId) : Nat :=
  (s.gangs.filter fun g => decide (g.2.vf = v ∧ g.2.state = .placed ∧ g.2.placedAt = some s.portCycle)).length +
    ((partOf s (vfOf s v).part).cards.filter fun c =>
      decide (c.2.activeAt = some s.portCycle ∧ (tfind s.entries c.2.entry).bind (entryVf s) = some v)).length

/-- Placements, activations and deals of a VF that reach the dispatchers in the present port cycle: a tear-down in it
discards and counts them (R123, R311). -/
def launchesNow (s : State) (v : VfId) : Nat := launchCount (selectNow s) v

/-! ### Starting a gang (R129 to R131, R143, R296) -/

/-- Zero a tile's 4 KiB blocks from `b` that another VF wrote, and retag them (R129). -/
def retagBlocks (T : Tile) (v : VfId) (b : Nat) : Nat → Tile
  | 0 => T
  | n + 1 =>
    let T := if tfind T.tags b = some v then T
      else { T with spad := mzero T.spad (4096 * b) 4096, tags := tput T.tags b v }
    retagBlocks T v (b + 1) n

/-- Write bytes at scratchpad offsets of the window. -/
def putBytes (T : Tile) : List (Nat × Byte) → Tile
  | [] => T
  | (o, b) :: bs => putBytes { T with spad := mset T.spad (winAddr T o) b } bs

/-- Set accumulator blocks. -/
def putAcc (a : Vector AccBlock 16) : List (Fin 16 × AccBlock) → Vector AccBlock 16
  | [] => a
  | (i, b) :: bs => putAcc (vset a i b) bs

/-- Blocks named in a mask hold +0.0. -/
def zeroAcc (a : Vector AccBlock 16) (mask : BitVec 16) : Vector AccBlock 16 :=
  (allFin 16).foldl (fun a i => if mask.getLsbD i.val then vset a i (Vector.replicate 8192 0) else a) a

/-- The x registers at entry (R130). -/
def entryRegs (g : Gang) (rank runs : Nat) : Vector Word 64 :=
  let put (v : Vector Word 64) (i : Fin 64) (w : Word) := vset v i w
  put (put (put (put (put (put (put (put (put (Vector.replicate 64 0) 2 g.x2) 3 g.x3) 4 g.x4) 5 g.key) 6 g.x6)
    7 (word rank)) 8 (word g.size)) 9 (word runs)) 10 g.x10

/-- FPCR at entry: the launch's seed, RM 0 (R130). -/
def entryFpcr (g : Gang) : Word := (g.seed.setWidth 64) <<< 32

/-- The task-start checkpoint (R131). -/
def startCheckpoint (g : Gang) (rank : Nat) (bytes : List Byte) : Checkpoint :=
  { x := entryRegs g rank (runCount g rank), pc := g.entryAddr, fpcr := entryFpcr g, fpsr := [0, 0, 0, 0],
    gens := [seeded (entryFpcr g) .S, {}, {}, {}], pegs := Vector.replicate 16 0, qfmt := g.qfmt, barGen := 0,
    bytes := (List.range bytes.length).zip bytes, acc := [], v := none, k := none, start := true }

/-- The fields of a live-range table's header (R141). -/
def ckptAcc (w : Word) : Nat := bfld w 39 24
def ckptSaveV (w : Word) : Bool := bbit w 16
def ckptRanges (w : Word) : Nat := bfld w 5 0

/-- The bytes that the ranges of a table name, by reduced window offset. -/
def ckptBytes (T : Tile) (ws : List Word) : List (Nat × Byte) :=
  ws.tail.flatMap fun r => (List.range (bfld r 42 21)).map fun j =>
    let o := (bfld r 20 0 + j) % 2 ^ (winOf T).2
    (o, mget T.spad (winAddr T o))

/-- What step 2 saves (R142). -/
def savedCheckpoint (T : Tile) (k : Task) (ws : List Word) : Checkpoint :=
  let h := recw ws 0
  { x := T.x, pc := T.s.pc, fpcr := T.s.fpcr, fpsr := [T.s.fpsr, T.vs.fpsr, T.m.fpsr, T.a.fpsr],
    gens := [T.s.gen, T.vs.gen, T.m.gen, T.a.gen], pegs := T.pegs,
    qfmt := T.queues.toList.map Queue.fmt, barGen := k.barGen, bytes := ckptBytes T ws
    acc := ((allFin 16).filter fun c => (ckptAcc h).testBit c.val).map fun c => (c, vget T.acc c)
    v := if ckptSaveV h then some T.v else none
    k := if ckptSaveV h then some T.k else none
    start := false }

/-- A member whose CKPT has published does step 2, not while it is halted (R118, R142). -/
def saveMember (T : Tile) : Tile :=
  match T.task, T.sWait, T.debug with
  | some k, .ckpt ws, .none => { T with sWait := .saved (savedCheckpoint T k ws) }
  | _, _, _ => T

/-- A stream's context as a checkpoint holds it. -/
def restoreStream (c : Checkpoint) (i : Nat) (old : StreamCtx) : StreamCtx :=
  { (idleStream old) with fpsr := recw c.fpsr i, gen := c.gens.getD i {} }

/-- A tile as a task resumes on it from a checkpoint, its window already zeroed or retagged (R130, R143). -/
def loadCheckpoint (T : Tile) (c : Checkpoint) (k : Task) : Tile :=
  let T := putBytes { T with task := some k } c.bytes
  { T with
    acc := putAcc (zeroAcc T.acc k.acc) c.acc
    x := c.x
    v := c.v.getD (Vector.replicate 16 (Vector.replicate 1024 0))
    k := c.k.getD (Vector.replicate 8 0)
    bypass := [], vloops := [], pegs := c.pegs
    s := { (restoreStream c 0 T.s) with pc := c.pc, run := .running, fpcr := c.fpcr }
    vs := restoreStream c 1 T.vs, m := restoreStream c 2 T.m, a := restoreStream c 3 T.a
    ssa := 0x3F800000, ssb := 0x3F800000
    queues := Vector.mk #[{ fmt := recw c.qfmt 0 }, { fmt := recw c.qfmt 1 }, { fmt := recw c.qfmt 2 },
      { fmt := recw c.qfmt 3 }] rfl
    cmdsM := [], cmdsA := [], stores := [], effects := [], sWait := .none, debug := .none, heldTrap := none,
    observed := [] }

/-- The task of a member (R100, R126). A booking's launch has its window at the booking's BASE, as it stood when the booking
was armed, even where its class has since taken a larger window (DESIGN CHOICE, log 67). -/
def memberTask (s : State) (id : Nat) (g : Gang) (rank : Nat) (t : TileId) : Task :=
  { gang := id, rank := rank, vf := g.vf, part := g.part, asid := g.asid, cls := g.cls, key := g.key,
    entry := g.entryAddr, log2 := g.log2, base := (g.onTile.map Prod.snd).getD 0, acc := g.acc, preq := g.preq,
    startCycle := acOf s t, irrevocable := false, barGen := 0, hasEnded := false }

/-- Blocks of a member's window: first block and count. -/
def windowBlocks (k : Task) : Nat × Nat := (k.base / 4096, 2 ^ (k.log2 - 12))

/-- Read `n` pieces of 16 bytes at a virtual address for a member, each piece translated; a piece that fails gives its own
address (R304, R345, R428). -/
def readArgs (s : State) (t : TileId) (k : Task) (va : Nat) : Nat → State × Except (Xlat × Nat) (List Byte)
  | 0 => (s, .ok [])
  | n + 1 => match tileXlat s t k va .read with
    | (s, .error x) => (s, .error (x, va))
    | (s, .ok (_, pa)) => match badIn s pa 16 with
      | some b => (s, .error (.ecc b, va))
      | none => match readArgs s t k (va + 16) n with
        | (s, .error x) => (s, .error x)
        | (s, .ok bs) => (s, .ok (physRead s pa 16 ++ bs))

/-- The argument bytes of a first start. -/
def argBytes (s : State) (t : TileId) (k : Task) (g : Gang) : State × Except (Xlat × Nat) (List Byte) :=
  match g.argAddr with
  | none => (s, .ok g.args)
  | some (a, n) => readArgs s t k a.toNat (n / 16)

/-- The publishes that carried an entry's puts (R281). -/
def entryMarks (s : State) (id : Nat) : List Mark := (tfind s.entries id).elim [] JqEntry.marks

/-- The argument area that a booking placed: window offsets 0 to min(LEN, window) - 1 (R131). -/
def placedArgs (T : Tile) (k : Task) (len : Nat) : List Byte :=
  winRead { T with task := some k } 0 (min len (2 ^ k.log2))

/-- Earlier commit points of the member itself: a run of the gang that starts again sees what an earlier run published,
whatever tile that was on (R281). -/
def ownMarks (s : State) (t : TileId) (id : Nat) (g : Gang) (rank : Nat) : List Mark :=
  if g.runs ≤ 1 then [] else [{ tile := t, gang := id, rank := rank, num := (tileOf s t).pubs }]

/-- The tile numbers a member's publishes above those of every tile, so that they go on rising where it moves. -/
def aboveAll (s : State) (T : Tile) : Tile := { T with pubs := (allFin 256).foldl (fun n t => max n (tileOf s t).pubs) 0 }

/-- A member is on its tile as a checkpoint has it, with the acquire of its dispatch (R143, R281, R318). -/
def placeMember (s : State) (t : TileId) (id : Nat) (g : Gang) (rank : Nat) (T : Tile) (c : Checkpoint) (k : Task) : State :=
  let s1 := setTile s t (aboveAll s (loadCheckpoint T c k))
  dispatchAcquire s1 t (entryMarks s g.entry ++ ownMarks s1 t id g rank)

/-- The window of a member that starts again from its entry is zero (R131, R299). -/
def restartWindow (T : Tile) (g : Gang) (k : Task) : Tile :=
  if g.runs ≤ 1 then T else { T with spad := mzero T.spad k.base (2 ^ k.log2) }

/-- Start one member with no checkpoint: for the first time, or again after its argument read was aborted (R129, R130, R131,
R299, R304). -/
def startMember (s : State) (t : TileId) (id : Nat) (k : Task) (g : Gang) (args : List Byte) : State × Checkpoint :=
  let b := windowBlocks k
  let T := retagBlocks (restartWindow (tileOf s t) g k) g.vf b.1 b.2
  let c := startCheckpoint g k.rank (if g.onTile.isSome then placedArgs T k g.x2.toNat else args)
  (placeMember s t id g k.rank T c k, c)

/-- Start the members in rank order; a cause of an argument read is the member's (R304). -/
def startMembers (s : State) (id : Nat) (g : Gang) : Nat → List TileId → State × Except Unit (List Checkpoint)
  | _, [] => (s, .ok [])
  | rank, t :: ts =>
    let k := memberTask s id g rank t
    -- the member is on its tile when the cause is taken
    let onTile (s : State) : State := modTile s t fun T => { T with task := some k }
    match argBytes s t k g with
    | (s, .error (.fault c, va)) => (tileTrap (onTile s) t 0 c g.entryAddr (word va), .error ())
    | (s, .error (.ecc b, _)) => (tileTrap (onTile s) t 0 causeEcc g.entryAddr (word b), .error ())
    | (s, .error _) => (s, .error ())
    | (s, .ok args) =>
      let r := startMember s t id k g args
      match startMembers r.1 id g (rank + 1) ts with
      | (s, .ok cs) => (s, .ok (r.2 :: cs))
      | x => x

/-- Resume the members from their common checkpoint (R143): every other byte of the window is zero. -/
def resumeMembers (s : State) (id : Nat) (g : Gang) : Nat → List TileId → List Checkpoint → State
  | rank, t :: ts, c :: cs =>
    let k := { memberTask s id g rank t with barGen := c.barGen }
    let b := windowBlocks k
    let T := tileOf s t
    let T := retagBlocks { T with spad := mzero T.spad k.base (2 ^ k.log2) } g.vf b.1 b.2
    let c := if c.start then { c with x := vset c.x 9 (word (runCount g rank)) } else c
    resumeMembers (placeMember s t id g rank T c k) id g (rank + 1) ts cs
  | _, _, _ => s

/-- All members of a placed gang issue their first words in one cycle, after the cycle that placed it (R123, R296). A member's
argument read that must wait, or that raises a cause, starts no member; a read that waits keeps its place (R349). -/
def execGangStart (gang : Nat) (s : State) : Result :=
  match gangOf s gang with
  | none => .next s
  | some g =>
    if g.state ≠ .placed ∨ g.placedAt = some s.portCycle then .next s
    else
      let g1 := { g with state := .running, runs := g.runs + 1 }
      let s1 := modGang s gang fun _ => g1
      if g.ckpts = [] then
        match startMembers s1 gang g1 0 g.tiles with
        | (s2, .ok cs) => .next (modGang s2 gang fun x => { x with ckpts := cs })
        | (s2, .error _) => match gangOf s2 gang with
          | some x => if x.state = .running then .next { s with holds := s2.holds } else .next s2
          | none => .next s2
      else .next (resumeMembers s1 gang g1 0 g.tiles g.ckpts)

/-! ### Completion and discard (R126, R297, R299, R305) -/

/-- The tile's task has ended and its publishes have been accepted. -/
def memberDone (s : State) (t : TileId) : Bool :=
  let T := tileOf s t
  match T.task with
  | some k => k.hasEnded && (ownPublishes T).isEmpty
  | none => false

/-- A chunk's gang has completed: the card completes when nothing is left (R305). -/
def chunkDone (s : State) (p : PartId) (slot id : Nat) : State :=
  let s := modPart s p fun q => { q with cards := tmod q.cards slot fun c => { c with live := c.live.erase id } }
  match tfind (partOf s p).cards slot with
  | none => s
  | some c =>
    if c.live ≠ [] then s
    else if c.stopped then faultEntry s c.entry
    else if cardUndealt c then s
    else freeEntry s c.entry

/-- Every member has ended: the tiles are free and the work is complete (R297, R283, R305). -/
def execGangComplete (gang : Nat) (s : State) : Result :=
  match gangOf s gang with
  | none => .next s
  | some g =>
    if g.state = .running ∧ g.tiles.all (memberDone s) then
      let s1 := dropGang (clearTiles s g.tiles) gang
      match g.chunk with
      | none => .next (freeEntry s1 g.entry)
      | some (slot, _, _) => .next (chunkDone s1 g.part slot gang)
    else .next s

/-- A gang leaves its tiles for the dispatcher: its priority is its entry's, and it counts as newly READY for aging (R126,
R306). -/
def requeued (s : State) (g : Gang) : Gang :=
  { g with state := .queued, tiles := [], prio := (tfind s.entries g.entry).elim g.prio JqEntry.prio, preq := false,
           preqTicks := 0, aged := 0, unplaced := 0 }

/-- A gang whose effects have been discarded is QUEUED (R126). -/
def execDiscardComplete (gang : Nat) (s : State) : Result :=
  match gangOf s gang with
  | none => .next s
  | some g =>
    if g.state = .aborting then
      .next (modGang s gang (requeued s))
    else .next s

/-! ### Card records (R302) -/

/-- Stage 1 of a virtual address under an ASID without a TLB (R302). -/
def asidStage1 (s : State) (v : VfId) (asid va : Nat) (r : Right) : State × Xlat :=
  match expertAt s v va with
  | some (l, e) => match expertXlat e va r with
    | .ok ipa => (s, .ok ipa)
    | .fault c => (if c = causeAbsent then wantExpert s l else s, .fault c)
    | x => (s, x)
  | none => match walk s none v asid va with
    | .wait => (s, .wait)
    | .fault c => (s, .fault c)
    | .ecc a => (s, .ecc a)
    | .leaf e => (s, if grants e r then .ok (leafIpa e va) else .fault causePermission)

/-- Translate a virtual address under an ASID without a TLB, in the order of the accesses at the segment row (R302, R349). -/
def asidXlat (s : State) (who : Holder) (v : VfId) (asid va : Nat) (r : Right) : State × Xlat :=
  if 2 ^ 56 ≤ va then (s, .fault causePermission)
  else
    let h : HeldAccess := { who := who, vf := v, va := va, ipa := none }
    let x := match heldAt s who va with
      | some i => (s, Xlat.ok i)
      | none => if rowTurnOf s h then asidStage1 s v asid va r else (s, .wait)
    match x with
    | (s, .ok ipa) => stage2For s { h with ipa := some ipa } ipa
    | (s, .wait) => (joinRow s h, .wait)
    | x => x

/-- A reserved bit of a card record is set (R301). -/
def cardReserved (w : List Word) : Bool :=
  decide (bfld (recw w 0) 63 56 ≠ 0 ∨ bfld (recw w 1) 63 56 ≠ 0 ∨ bfld (recw w 2) 47 32 ≠ 0 ∨
    bfld (recw w 3) 63 41 ≠ 0 ∨ bfld (recw w 3) 7 6 ≠ 0)

/-- The partition's tiles on its largest die. -/
def largestDie (s : State) (p : PartId) : Nat := (List.range 4).foldl (fun m d => max m (partTiles s p d).length) 0

/-- A card record is invalid (R302). -/
def cardInvalid (s : State) (p : PartId) (w : List Word) : Bool :=
  decide (10 ≤ cardWin w ∨ cardEntry w % 4 ≠ 0 ∨ cardArgs w % 16 ≠ 0 ∨
    2 ^ (cardWin w + 12) < cardMin w * cardArgSize w ∨ largestDie s p < cardGang w)

/-- A card's work faults: its entry is FAULTED, its class freezes, its slot is freed (R302). -/
def faultCard (s : State) (p : PartId) (slot cause : Nat) (c : Card) (e : JqEntry) : State :=
  let s := modPart s p fun q => { q with cards := tdel q.cards slot }
  let s := setEntry s c.entry { e with card := none }
  portFault (faultEntry s c.entry) p e.cls cause e.key c.addr

/-- A card read waits for its page (R302, R351). -/
def cardAbsent (s : State) (p : PartId) (slot : Nat) (c : Card) (e : JqEntry) (r : JqClass) : State :=
  let q := partOf s p
  let s1 :=
    if (expertAt s r.vf c.addr.toNat).isSome then s
    else if q.pagerRecords < 4096 then
      sendEvent (modPart s p fun q => { q with pagerRecords := q.pagerRecords + 1 }) (firstSteward s p)
        { faultEvent (portRecord s p e.cls r.asid r.vf.val 0 causeAbsent e.key c.addr) r.vf.val with pagerOf := some p }
    else addStat s p 7 1
  modPart s1 p fun q => { q with cards := tmod q.cards slot fun c =>
    { c with pageWait := some (r.asid, c.addr.toNat / 2 ^ 16), pageTicks := 0 } }

/-- A record that has been read: checked, and ready to deal (R302). -/
def cardLoaded (s : State) (p : PartId) (slot : Nat) (c : Card) (e : JqEntry) (w : List Word) : State :=
  if cardReserved w then faultCard s p slot causeReserved c e
  else if cardInvalid s p w then faultCard s p slot causeInvalid c e
  else if cardCount w = 0 then freeEntry s c.entry
  else modPart s p fun q => { q with cards := tmod q.cards slot fun c => { c with ready := true, words := w } }

/-- The Innkeeper reads an activated card's record (R302). A tear-down of its VF cancels the read (R311). -/
def execCardRead (p : PartId) (slot : Nat) (s : State) : Result :=
  match tfind (partOf s p).cards slot with
  | none => .next s
  | some c =>
    if c.ready ∨ c.pageWait ≠ none then .next s
    else match tfind s.entries c.entry with
      | none => .next s
      | some e => match tfind (partOf s p).classes e.cls with
        | none => .next s
        | some r => if vfStands s r.vf = false then .next s else match asidXlat s (.card p slot) r.vf r.asid c.addr.toNat .read with
          | (s1, .wait) => .next s1
          | (s1, .ecc _) => .next (faultCard s1 p slot causeEcc c e)
          | (s1, .fault x) =>
            .next (if x = causeAbsent then cardAbsent s1 p slot c e r else faultCard s1 p slot x c e)
          | (s1, .ok pa) =>
            if (badIn s1 pa 32).isSome then .next (faultCard s1 p slot causeEcc c e)
            else .next (cardLoaded s1 p slot c e ((List.range 4).map fun i => word (leNat (physRead s1 (pa + 8 * i) 8))))

/-! ### Aging and holds (R282, R306, R308) -/

/-- Ticks of one aging step (R282). -/
def agingTicks : Nat := 1000000

/-- A READY item's priority rises by 1 after 10 ms, up to 7 (R282, R306). -/
def execAgingStep (item : ItemId) (s : State) : Result :=
  match item with
  | .entry id => match tfind s.entries id with
    | some e => if agingTicks ≤ e.aged ∧ e.state = .ready then
        .next (setEntry s id { e with prio := min 7 (e.prio + 1), aged := 0 }) else .next s
    | none => .next s
  | .gang id => match gangOf s id with
    | some g => if agingTicks ≤ g.aged ∧ g.state = .queued then
        .next (modGang s id fun g => { g with prio := min 7 (g.prio + 1), aged := 0 }) else .next s
    | none => .next s
  | .card p slot => match tfind (partOf s p).cards slot with
    | some c => match tfind s.entries c.entry with
      | some e => if agingTicks ≤ c.aged ∧ (c.ready = false ∨ cardUndealt c) then
          .next (modPart (setEntry s c.entry { e with prio := min 7 (e.prio + 1) }) p fun q =>
            { q with cards := tmod q.cards slot fun c => { c with aged := 0 } })
        else .next s
      | none => .next s
    | none => .next s

/-- The item needs a gang that no die of the partition can ever hold (R300). -/
def neverFits (s : State) (p : PartId) (i : Item) : Bool := decide (largestDie s p < i.cost)

/-- Items that claim a hold (R308). -/
def claimants (s : State) (p : PartId) : List Item :=
  (itemsOf s p).filter fun i => i.tiles && decide (1000 ≤ i.unplaced) && !neverFits s p i

/-- The claimant that gets the hold: highest priority, then smallest age (R308). -/
def holdWinner (is : List Item) : Option Item :=
  oldest (is.filter fun i => decide (i.prio = topPrio is))

/-- The die on which the partition has most free tiles, the lowest number first (R308). -/
def holdDie (s : State) (p : PartId) : Nat :=
  (List.range 4).foldl (fun b d => if (freeTiles s p b).length < (freeTiles s p d).length then d else b) 0

/-- An item claims the partition's hold (R308). -/
def execHoldClaim (p : PartId) (item : ItemId) (s : State) : Result :=
  let s1 := checkHold s p
  match (partOf s1 p).hold, holdWinner (claimants s1 p) with
  | none, some i =>
    if i.id = item then .next (modPart s1 p fun q => { q with hold := some (item, holdDie s1 p) }) else .next s
  | _, _ => .next s

/-! ### Pre-emption (R144 to R146, R309, R310) -/

/-- Set or clear PREQ.PENDING on a gang's tasks. -/
def setPreq (s : State) (b : Bool) : List TileId → State
  | [] => s
  | t :: ts => setPreq (modTile s t fun T => { T with task := T.task.map fun k => { k with preq := b } }) b ts

/-- The gang is in a message's scope (R309). -/
def inScope (p : PartId) (scope target : Nat) (g : Gang) : Bool :=
  decide (g.part = p) && match scope with
    | 0 => g.tiles.any fun t => decide (t.val = target)
    | 1 => decide (g.vf.val = target)
    | _ => decide (g.cls = target)

/-- Post a request to each gang of a list that is on tiles, or withdraw it. -/
def preemptAll (s : State) (b : Bool) : List (Nat × Gang) → State
  | [] => s
  | (id, g) :: gs =>
    let s1 := if g.state = .placed ∨ g.state = .running then
        setPreq (modGang s id fun g => { g with preq := b, preqTicks := if b ∧ g.preq then g.preqTicks else 0 }) b g.tiles
      else s
    preemptAll s1 b gs

/-- The target of a pre-emption message lies in the partition (R309). -/
def preemptTarget (s : State) (p : PartId) (scope target : Nat) : Bool :=
  match scope with
  | 0 => decide (target < 256) && tileInPart (partOf s p) (Fin.ofNat 256 target)
  | 1 => decide (target < 128 ∧ partOfVf s (Fin.ofNat 128 target) = some p)
  | _ => decide (target < 256)

/-- A pre-emption message, or none where the endpoint refuses it (R309). -/
def preemptMsg (s : State) (n : ThreadId) (p : PartId) (w0 w1 : Word) : Option State :=
  let cmd := bfld w0 2 0
  let scope := bfld w0 5 4
  let target := bfld w0 63 32
  if isStewardOf s p n = false ∨ bfld w0 31 6 ≠ 0 ∨ bbit w0 3 = true ∨ w1 ≠ 0 ∨ scope = 3 ∨ (cmd ≠ 1 ∧ cmd ≠ 2) ∨
     preemptTarget s p scope target = false then none
  else some (preemptAll s (decide (cmd = 1)) (s.gangs.filter fun g => inScope p scope target g.2))

/-- A pre-emption message of one command, as a step of its own. -/
def preemptStep (th : ThreadId) (m : Msg) (cmd : Nat) (s : State) : Result :=
  match partOfThread s th with
  | none => .next s
  | some p => if bfld m.w0 2 0 = cmd then .next ((preemptMsg s th p m.w0 m.w1).getD s) else .next s

/-- PREEMPT (R309). -/
def execPreempt (th : ThreadId) (msg : Msg) (s : State) : Result := preemptStep th msg 1 s
/-- WITHDRAW (R309). -/
def execWithdraw (th : ThreadId) (msg : Msg) (s : State) : Result := preemptStep th msg 2 s

/-- After 10,000 ticks without a checkpoint the gang is aborted and requeued, unless a member's region holds an
irrevocable effect (R146, R310). -/
def execPreemptFallback (gang : Nat) (s : State) : Result :=
  match gangOf s gang with
  | none => .next s
  | some g =>
    if g.state = .running ∧ g.preq ∧ 10000 ≤ g.preqTicks ∧ gangIrrevocable s g = false then .next (abortGang s gang)
    else .next s

end Sys2Proof.Machine
end

