-- ==== Sys2Proof/Machine/Booking.lean ====
section
/-! DEFINITION. Arrival counters, bookings and their fires, endpoints, and the sends that leave the device
(13 R386, R391 to R404). -/

namespace Sys2Proof.Machine

/-! ### Counters and levels (R392, R393) -/

/-- The counter lies in a VF's range (R385); `n` is partition-relative. -/
def ctrOfVf (f : Vf) (n : Nat) : Bool := decide (f.cFirst ≤ n ∧ n < f.cFirst + f.cCount)
def bookOfVf (f : Vf) (n : Nat) : Bool := decide (f.bFirst ≤ n ∧ n < f.bFirst + f.bCount)

/-- A counter of a partition's Steward level: no VF's range covers it. -/
def stewardCtr (s : State) (p : PartId) (n : Nat) : Bool :=
  decide (n < (partOf s p).ctrShare) && (vfsOf s p).all fun v => !ctrOfVf (vfOf s v) n
def stewardBook (s : State) (p : PartId) (n : Nat) : Bool :=
  decide (n < (partOf s p).bkShare) && (vfsOf s p).all fun v => !bookOfVf (vfOf s v) n

/-- A number lies in one of some runs. -/
def inRuns (rs : List (Nat × Nat)) (n : Nat) : Bool := rs.any fun r => decide (r.1 ≤ n ∧ n < r.1 + r.2)

/-- Number `i` of some runs, in order. -/
def runAt : List (Nat × Nat) → Nat → Nat
  | [], i => i
  | r :: rs, i => if i < r.2 then r.1 + i else runAt rs (i - r.2)

/-- The place of a number in some runs. -/
def runPlace : List (Nat × Nat) → Nat → Nat
  | [], n => n
  | r :: rs, n => if r.1 ≤ n ∧ n < r.1 + r.2 then n - r.1 else r.2 + runPlace rs n

/-- The device-wide number of a partition's booking (R396). -/
def bookNumber (q : Partition) (i : Nat) : Nat := runAt q.bkRuns i

/-- A counter or booking of the Keeper level, by device-wide number: no partition's share covers it. -/
def keeperCtr (s : State) (n : Nat) : Bool :=
  decide (n < 65536) && (allFin 40).all fun p =>
    let q := partOf s p
    decide (q.state = 0 ∨ n < q.ctrFirst ∨ q.ctrFirst + q.ctrShare ≤ n)
def keeperBook (s : State) (n : Nat) : Bool :=
  decide (n < 65536) && (allFin 40).all fun p =>
    let q := partOf s p
    decide (q.state = 0) || !inRuns q.bkRuns n

/-! ### Fields of a booking record (R396) -/

def bkArm (w : List Word) : Bool := bbit (recw w 0) 63
def bkPersist (w : List Word) : Bool := bbit (recw w 0) 62
def bkCtrz (w : List Word) : Bool := bbit (recw w 0) 61
def bkSrcEn (w : List Word) : Bool := bbit (recw w 0) 60
def bkMkind (w : List Word) : Nat := bfld (recw w 0) 59 58
def bkAction (w : List Word) : Nat := bfld (recw w 0) 57 55
def bkPlace (w : List Word) : Nat := bfld (recw w 0) 54 53
def bkSlotSel (w : List Word) : Nat := bfld (recw w 0) 52 51
def bkNotifyEn (w : List Word) : Bool := bbit (recw w 0) 50
def bkNotify (w : List Word) : ThreadId := Fin.ofNat 1024 (bfld (recw w 0) 49 40)
def bkSrc (w : List Word) : Nat := bfld (recw w 0) 35 24
def bkLvl (w : List Word) : Bool := bbit (recw w 0) 23
def bkVf (w : List Word) : VfId := Fin.ofNat 128 (bfld (recw w 0) 22 16)
def bkCtr (w : List Word) : Nat := bfld (recw w 0) 15 0
def bkPeriod (w : List Word) : Nat := bfld (recw w 4) 63 32
def bkStride (w : List Word) : Nat := bfld (recw w 4) 31 0
def bkTile (w : List Word) : TileId := Fin.ofNat 256 (bfld (recw w 5) 63 56)
def bkBase (w : List Word) : Nat := bfld (recw w 5) 55 0
def bkSpen (w : List Word) : Bool := bbit (recw w 6) 63
def bkSpctr (w : List Word) : Nat := bfld (recw w 6) 52 32
def bkLen (w : List Word) : Nat := bfld (recw w 6) 31 0
def bkPayload (w : List Word) : List Word := (w.drop 10).take 8

/-! ### Endpoints (R386) -/

/-- The bits of an endpoint word that a write sets (R386). -/
def slotMask (w : Nat) : Word :=
  match w with
  | 0 => 0x83FF007F
  | 3 => 0x0000FFFFFFFFFFFF
  | _ => -1

def epWord (q : Partition) (slot i : Nat) : Word := tget 0 q.endpoints (4 * slot + i)
def epValid (q : Partition) (slot : Nat) : Bool :=
  let w := epWord q slot 0
  bbit w 31 && decide (8 ≤ slot ∧ slot ≤ 4094 ∧ bfld w 25 24 ≤ 2 ∧ bfld w 23 20 ≤ 7 ∧ (bfld w 19 16 = 1 ∨ bfld w 19 16 = 2))
def epGen (q : Partition) (slot : Nat) : Nat := bfld (epWord q slot 0) 63 32
def epVf (q : Partition) (slot : Nat) : Nat := bfld (epWord q slot 0) 6 0

/-- The handle names a valid slot that suits the issuer; a Steward has no VF (R386, R403). -/
def endpointOk (s : State) (p : PartId) (issuer : Option VfId) (h : Word) : Bool :=
  let q := partOf s p
  let slot := bfld h 11 0
  decide (bfld h 31 12 = 0) && epValid q slot && decide (epGen q slot = bfld h 63 32) &&
    match issuer with
    | none => true
    | some v => decide (epVf q slot = v.val)

/-! ### Sends that leave the device (R388, R391, R403) -/

/-- A packet carries at most 4096 bytes; the request of an RMA read is one packet, and so is an empty message (R388). -/
def packetCount (m : Send) : Nat := if m.op = 2 then 1 else max 1 ((m.length + 4095) / 4096)

/-- How many bytes packet `k` carries. -/
def packetLength (m : Send) (k : Nat) : Nat := if m.op = 2 then 0 else min 4096 (m.length - 4096 * k)

/-- The bytes that packet `k` carries: of the copied data, or as its memory holds them (R403). -/
def packetData (s : State) (m : Send) (k : Nat) : List Byte :=
  match m.fromMem, m.vf with
  | true, some v => ipaRead s v (m.srcAddr.toNat + 4096 * k) (packetLength m k)
  | _, _ => (m.data.drop (4096 * k)).take (packetLength m k)

/-- The memory of packet `k` waits, for a segment move or a zeroing (R341, R348). -/
def packetWaits (s : State) (m : Send) (k : Nat) : Bool :=
  match m.fromMem, m.vf with
  | true, some v => rangeWaits s v (m.srcAddr.toNat + 4096 * k) (packetLength m k)
  | _, _ => false

/-- The back-off after one of `len` ticks: 10 µs at first, doubling up to 1 ms (R391). -/
def sendBackoff (len : Nat) : Nat := if len = 0 then 1000 else min (2 * len) 100000

/-- The state of a packet after one more try with the peer's answer: a retry-later answer restarts the count (R391). -/
def triedPacket (p : OutPacket) (a : Nat) : OutPacket :=
  if a = 1 then { p with answer := 1, backoff := some (sendBackoff p.backoffLen), backoffLen := sendBackoff p.backoffLen,
                         tries := 0, ticks := 0 }
  else { p with answer := a, backoff := none, tries := p.tries + 1 }

/-- The ports that are up on the way to a slot's peer: every Ethernet port, or those of the Purlin route. What a peer with
this device's own Purlin ID is sent needs no link, and counts as port 0 (DESIGN CHOICE, log 72). -/
def sendPorts (s : State) (q : Partition) (slot : Nat) : List Nat :=
  let dev := bfld (epWord q slot 1) 11 0
  if bfld (epWord q slot 0) 19 16 = 2 then (if dev = s.purlinId then [0] else routePorts s dev)
  else (List.range 8).filter fun i => !portDown s .ethernet i

/-- What packet `k` of a send spreads over its ports by: the fresh number `n` for RUD and RUDI, its address for Purlin, and
nothing for ROD, whose delivery context uses one port (R388, R405). -/
def spreadBy (q : Partition) (m : Send) (slot k n : Nat) : Nat :=
  let w := epWord q slot 0
  if bfld w 19 16 = 2 then m.remote.toNat + 4096 * k else if bfld w 25 24 = 1 then 0 else n

/-- The port by which a packet leaves; none where no port on its way is up. -/
def packetPort (s : State) (m : Send) (k n : Nat) : Option Nat :=
  let q := partOf s m.part
  let slot := bfld m.handle 11 0
  let ps := sendPorts s q slot
  ps[Config.packetPort (4096 * m.part.val + slot) (spreadBy q m slot k n) % ps.length]?

/-- One try of packet `k` of a send whose data has been read: the peer's answer is the world's, and none comes where no port
on the way is up (R388, R390, R391). -/
def tryPacket (s : State) (id k : Nat) (o : OutSend) (p : OutPacket) : State :=
  let f := fresh s
  let q := partOf f.2 o.send.part
  let slot := bfld o.send.handle 11 0
  let a := Config.peerAnswer f.1 (epWord q slot 1).toNat (bfld (epWord q slot 3) 42 36) o.send.tag.toNat
    (o.send.remote.toNat + 4096 * k) (if o.send.op = 2 then o.send.length else p.bytes.length)
  let p' := match packetPort f.2 o.send k f.1 with
    | none => triedPacket p 0
    | some i => { triedPacket p a with port := some i }
  { f.2 with outbound := tput f.2.outbound id { o with packets := o.packets.set k p' } }

/-- The read of packet `k`'s data comes to the segment row of its VF (R348, R349). -/
def packetRow (s : State) (id : Nat) (m : Send) (k : Nat) : State × Bool :=
  match m.fromMem, m.vf with
  | true, some v => rowRange s (.transfer id) v k (m.srcAddr.toNat + 4096 * k) (packetLength m k)
  | _, _ => (s, true)

/-- Packet `k` of a send goes out, or goes out again: its data is read at the first try, which waits where the memory does
(R391, R403). -/
def transmit (s : State) (id k : Nat) (o : OutSend) : State :=
  match o.packets[k]? with
  | none => s
  | some p =>
    if p.sent then tryPacket s id k o p
    else match packetRow s id o.send k with
      | (s, true) =>
        if packetWaits s o.send k then s
        else tryPacket s id k o { p with sent := true, bytes := packetData s o.send k }
      | (s, false) => s

/-- The packets of a send leave the device, in order. -/
def transmitAll (s : State) (id : Nat) : List Nat → State
  | [] => s
  | k :: ks => transmitAll (match tfind s.outbound id with
      | some o => transmit s id k o
      | none => s) id ks

/-- Accept a send for transmission (R402, R403). -/
def acceptSend (s : State) (m : Send) : State :=
  let o : OutSend := { send := m, packets := List.replicate (packetCount m) {} }
  transmitAll { s with seq := s.seq + 1, outbound := tput s.outbound s.seq o } s.seq (List.range (packetCount m))

/-! ### Fires (R401) -/

/-- COUNTER_FIRE to the booking's NOTIFY (R381, R401): who takes it observes the counter's increments `ms` (R316). -/
def fireEvent (b : Booking) (num ctrRel : Nat) (value : Word) (status : Nat) (ms : List Mark) : Event :=
  { summary := summaryWord 2 status (b.vf.elim 0 (·.val)) num
    record := pad16 [word ctrRel, value, word b.threshold], marks := ms }

/-- The numbers of a booking and its counter as its record names them: partition-relative, or device-wide for a Keeper's. -/
def bookRel (s : State) (b : Booking) (num : Nat) : Nat × Nat :=
  match b.part with
  | some p => (runPlace (partOf s p).bkRuns num, b.ctr - (partOf s p).ctrFirst)
  | none => (num, b.ctr)

/-- The LAUNCH action (R401); the task that runs its entry observes the counter's increments `ms` (R316). -/
def fireLaunch (s : State) (num : Nat) (p : PartId) (v : VfId) (w : List Word) (ms : List Mark) : State × Nat :=
  match reserve s v with
  | none => (s, 6)
  | some s =>
    (arrive s 3 num (.launch p v (bfld (recw w 7) 7 0) (recw w 8) (payloadOf (bkPayload w))
      (if bkPlace w = 1 then some (bkTile w, bkBase w, bkLen w) else none)) ms, 0)

/-- The JQPUT action: a refusal of the handle is reported as at the port (R277, R401). -/
def fireJqput (s : State) (num : Nat) (p : PartId) (v : VfId) (w : List Word) (ms : List Mark) : State × Nat :=
  let h := recw w 7
  let put : Put := { part := p, handle := h, cls := (slotAt (partOf s p) (bfld h 11 0)).cls,
                     desc := [recw w 8, recw w 9] ++ bkPayload w, unitVf := v, putter := some v, marks := ms }
  match checkHandle s p (some v) h rightPut with
  | none => (portRefusal s put, 0)
  | some l => match reserve s v with
    | none => (s, 6)
    | some s => (arrive s 3 num (.put { put with cls := l.cls }), 0)

/-- The SEND action: the handle is checked again at the fire (R401, R403). -/
def fireSend (s : State) (p : PartId) (v : VfId) (w : List Word) : State × Nat :=
  let h := recw w 7
  let c := recw w 9
  if endpointOk s p (some v) h then
    (acceptSend s { part := p, vf := some v, handle := h, cookie := 0, tag := recw w 10, op := 0, fromMem := true,
                    notify := none, done := if bbit c 48 then some ((partOf s p).ctrFirst + bfld c 47 32) else none,
                    length := bfld c 31 0, srcAddr := recw w 8, remote := 0, data := [] }, 0)
  else (s, 7)

/-- The COPY action: its COUNTER_FIRE waits for the copy, which gives its status (R401). -/
def fireCopy (s : State) (p : PartId) (v : VfId) (w : List Word) (n : Option (ThreadId × Event)) : State :=
  let c := recw w 9
  addDrover s { kind := .copy, part := some p, pool := 0, unit := none, pos := 0, vf := some v, src := (recw w 7).toNat,
                dst := (recw w 8).toNat, length := bfld c 31 0, notify := n,
                done := if bbit c 48 then some ((partOf s p).ctrFirst + bfld c 47 32) else none }

/-- Send a fire's event where NOTIFYEN is set. -/
def notifyFire (s : State) (w : List Word) (e : Event) : State :=
  if bkNotifyEn w then sendEvent s (bkNotify w) e else s

/-- One fire of a booking at a counter's value (R401). What it starts observes the increments that the counter has taken
(R316). -/
def fireOnce (s : State) (num : Nat) (b : Booking) (value : Word) : State :=
  let w := b.words
  let r := bookRel s b num
  let ms := counterMarks s b.ctr
  let ev (status : Nat) := fireEvent b r.1 r.2 value status ms
  match b.part, b.vf with
  | some p, some v =>
    if (vfOf s v).state = 4 then notifyFire s w (ev 5)
    else match bkAction w with
      | 0 => notifyFire s w (ev 0)
      | 1 => let x := fireLaunch s num p v w ms
             notifyFire x.1 w (ev x.2)
      | 2 => fireCopy (observeDevice s ms) p v w (if bkNotifyEn w then some (bkNotify w, ev 0) else none)
      | 3 => let x := fireSend (observeDevice s ms) p v w
             notifyFire x.1 w (ev x.2)
      | _ => let x := fireJqput s num p v w ms
             notifyFire x.1 w (ev x.2)
  | _, _ => notifyFire s w (ev 0)

/-- Fire a booking `n` times, its THRESHOLD rising; a one-shot booking disarms (R401). -/
def fireTimes (s : State) (num : Nat) (value : Word) : Nat → State
  | 0 => s
  | n + 1 => match tfind s.bookings num with
    | none => s
    | some b =>
      let b' := if bkPersist b.words then { b with threshold := b.threshold + bkPeriod b.words }
        else { b with armed := false }
      let s1 := { s with bookings := tput s.bookings num b' }
      fireTimes (fireOnce s1 num b value) num value n

/-- How often a booking fires at a value. -/
def fireCount (b : Booking) (value : Word) : Nat :=
  if b.armed = false ∨ value.toNat < b.threshold then 0
  else if bkPersist b.words then (value.toNat - b.threshold) / bkPeriod b.words + 1
  else 1

/-- Every armed booking of a counter, in ascending number (R401). -/
def fireBookings (s : State) (c : Nat) (value : Word) : List (Nat × Booking) → State
  | [] => s
  | (num, b) :: bs =>
    fireBookings (if b.ctr = c then fireTimes s num value (fireCount b value) else s) c value bs

/-- The VF is FROZEN: its completions and counters are held (R414). -/
def isFrozen (s : State) (v : Option VfId) : Bool :=
  match v with
  | none => false
  | some v => decide ((vfOf s v).state = 3)

/-- The VF whose range covers an arrival counter, device wide (R385). -/
def vfOfCtr (s : State) (c : Nat) : Option VfId :=
  (allFin 128).find? fun v =>
    let f := vfOf s v
    decide (f.state ≠ 0 ∧ (partOf s f.part).ctrFirst ≤ c) && ctrOfVf f (c - (partOf s f.part).ctrFirst)

/-! ### The booking unit's order within an Innkeeper cycle (R400) -/

/-- The places of a cycle's events: BKARM by thread number, first-packet matches by Ethernet port, then Purlin port, then
host, message completions by booking number, and increments by arrival. -/
def armPlace (n : ThreadId) : Nat := n.val
def matchPlace (purlin : Bool) (port : Nat) : Nat := 1024 + (if purlin then 2 ^ 8 else 0) + min port 255
def hostPlace : Nat := 1024 + 2 ^ 9
def completionPlace (num : Nat) : Nat := 2048 + num
def incrementPlace : Nat := 2048 + 65536

/-- The unit has gone past a place in this cycle: an event of it waits for the next. -/
def placePassed (s : State) (k : Nat) : Bool := decide (k < s.bookPos)

/-- The unit has come to a place. -/
def atPlace (s : State) (k : Nat) : State := { s with bookPos := max s.bookPos k }

/-- A change of an arrival counter, followed at once by its fire checks (R392, R400). -/
def changeCounter (s : State) (c : Nat) (v : Word) : State :=
  let w := ctrGet s c + v
  let s := ctrSet s c w
  fireBookings s c w s.bookings

/-- An increment of an arrival counter, in the last part of the cycle (R400). The counter of a FROZEN VF is held: its changes
come at UNFREEZE (R414 to R416). -/
def addCounter (s : State) (c : Nat) (v : Word) : State :=
  if isFrozen s (vfOfCtr s c) then { s with heldCounts := s.heldCounts ++ [(c, v)] }
  else changeCounter (atPlace s incrementPlace) c v

/-- A done counter advances by 1, where one is named (R392). -/
def addDone (s : State) : Option Nat → State
  | none => s
  | some c => addCounter s c 1

/-! ### BKARM (R396 to R399) -/

/-- A booking record's reserved bits, the fields that its ACTION and PLACE do not use, and its codes (R396, R399). PLACE 0
uses no slots (DEDUCED, log 41). -/
def bkMalformed (w : List Word) : Bool :=
  let place := bkPlace w
  let act := bkAction w
  decide (bfld (recw w 0) 39 36 ≠ 0 ∨ 4 < act ∨ 2 < place ∨ 2 < bkSlotSel w ∨ bfld (recw w 6) 62 53 ≠ 0) ||
  (match place with
   | 0 => decide (recw w 5 ≠ 0 ∨ recw w 6 ≠ 0 ∨ bkSlotSel w ≠ 0 ∨ bkStride w ≠ 0)
   | 1 => decide (bfld (recw w 5) 55 21 ≠ 0 ∨ bkSpctr w % 8 ≠ 0)
   | _ => decide (bfld (recw w 5) 63 56 ≠ 0 ∨ bfld (recw w 6) 63 32 ≠ 0)) ||
  (match act with
   | 0 => decide (w.drop 7 ≠ List.replicate 11 0)
   | 1 => decide (bfld (recw w 7) 63 8 ≠ 0 ∨ recw w 9 ≠ 0)
   | 2 => decide (bfld (recw w 9) 63 49 ≠ 0 ∨ w.drop 10 ≠ List.replicate 8 0)
   | 3 => decide (bfld (recw w 9) 63 49 ≠ 0 ∨ w.drop 11 ≠ List.replicate 7 0)
   | _ => descReserved [0, recw w 9])

/-- A LAUNCH action's class is the VF's own, and with PLACE 1 a single task at a multiple of its window (R399). -/
def bkLaunchOk (s : State) (p : PartId) (v : VfId) (w : List Word) : Bool :=
  match tfind (partOf s p).classes (bfld (recw w 7) 7 0) with
  | none => false
  | some r => decide (r.vf = v) &&
      (decide (bkPlace w ≠ 1) || decide (r.target = 0 ∧ r.gang = 1 ∧ bkBase w % 2 ^ r.wlog2 = 0))

/-- The action's handle, class and done counter pass their rules (R399). -/
def bkActionOk (s : State) (p : PartId) (v : VfId) (w : List Word) : Bool :=
  let done := recw w 9
  match bkAction w with
  | 0 => true
  | 1 => bkLaunchOk s p v w
  | 2 => !bbit done 48 || ctrOfVf (vfOf s v) (bfld done 47 32)
  | 3 => (!bbit done 48 || ctrOfVf (vfOf s v) (bfld done 47 32)) && endpointOk s p (some v) (recw w 7)
  | _ => (checkHandle s p (some v) (recw w 7) rightPut).isSome

/-- The placement region is allowed (R399). -/
def bkRegionOk (s : State) (p : PartId) (v : VfId) (w : List Word) : Bool :=
  (match bkPlace w with
   | 0 => true
   | 1 => tileInPart (partOf s p) (bkTile w) && decide (bkBase w + bkLen w ≤ 2 ^ 21)
   | _ => decide (bkBase w + bkLen w ≤ (vfOf s v).segSize)) &&
  (decide (bkSlotSel w ≠ 1) || decide (256 * bkStride w ≤ bkLen w))

/-- The NOTIFY thread of a VF's booking: a Guest thread of it, or a Steward thread (R396). -/
def notifyOk (s : State) (p : PartId) (v : VfId) (n : ThreadId) : Bool := ownsThread (vfOf s v) n.val || isStewardOf s p n

/-- A record for a VF's booking passes R399. -/
def bkVfOk (s : State) (p : PartId) (num : Nat) (w : List Word) : Bool :=
  let v := bkVf w
  let f := vfOf s v
  vfStands s v && decide (f.part = p) && bookOfVf f num && ctrOfVf f (bkCtr w) &&
    (!bkNotifyEn w || notifyOk s p v (bkNotify w)) && bkRegionOk s p v w && bkActionOk s p v w

/-- A record of a level booking passes R393 and R399; `p` is none for the Keeper level. -/
def bkLevelOk (s : State) (p : Option PartId) (num : Nat) (w : List Word) : Bool :=
  decide (bkAction w = 0 ∧ bkPlace w = 0) &&
  match p with
  | some p => stewardBook s p num && stewardCtr s p (bkCtr w) && (!bkNotifyEn w || isStewardOf s p (bkNotify w))
  | none => keeperBook s num && keeperCtr s (bkCtr w) && (!bkNotifyEn w || isKeeper (bkNotify w))

/-- BKARM accepts the record: `p` is the issuer's partition and `guest` its VF at Guest level. -/
def bkAccepted (s : State) (p : Option PartId) (guest : Option VfId) (num : Nat) (w : List Word) : Bool :=
  !bkMalformed w && !(bkPersist w && decide (bkPeriod w = 0)) &&
  if bkLvl w then bkLevelOk s p num w
  else match p with
    | none => false
    | some p => bkVfOk s p num w && (match guest with
      | none => true
      | some v => decide (v = bkVf w))

/-- Arm a booking (R398): replace the record, zero the counter where CTRZ is set, and fire where the count suffices. -/
def armBooking (s : State) (p : Option PartId) (num : Nat) (w : List Word) : State :=
  let dev := match p with
    | some p => (bookNumber (partOf s p) num, (partOf s p).ctrFirst + bkCtr w)
    | none => (num, bkCtr w)
  let b : Booking := { part := p, words := w, threshold := (recw w 3).toNat, vf := if bkLvl w then none else some (bkVf w),
                       ctr := dev.2, bound := 0, arm := s.seq, armed := true }
  let s1 := { s with bookings := tput s.bookings dev.1 b, seq := s.seq + 1 }
  let s2 := if bkCtrz w then ctrSet s1 dev.2 0 else s1
  fireTimes s2 dev.1 (ctrGet s2 dev.2) (fireCount b (ctrGet s2 dev.2))

/-- Disarm a booking (R398). -/
def disarmBooking (s : State) (p : Option PartId) (num : Nat) : State :=
  let dev := match p with
    | some p => bookNumber (partOf s p) num
    | none => num
  { s with bookings := tmod s.bookings dev fun b => { b with armed := false } }

/-- The booking number lies in what the issuer may name at all. -/
def bookNumberOk (s : State) (p : Option PartId) (num : Nat) : Bool :=
  match p with
  | some p => decide (num < (partOf s p).bkShare)
  | none => keeperBook s num

/-- The booking that BKARM names belongs to a VF that is FROZEN, or its record's counter does: both are held unchanged, and
the word waits (R415, DEDUCED, log 65). -/
def armHeld (s : State) (p : Option PartId) (num : Nat) (w : List Word) : Bool :=
  match p with
  | none => false
  | some p => ((vfsOf s p).any fun v => decide ((vfOf s v).state = 3) && bookOfVf (vfOf s v) num) ||
      (bkArm w && !bkLvl w && isFrozen s (some (bkVf w)))

/-- BKARM (R398), in its place in the booking unit's cycle (R400). -/
def execBkarm (d a b : XReg) (s : State) : Result :=
  onThread s (.bkarm d a b) fun n =>
    let num := (rx s a).toNat % 2 ^ 17
    let w := storeWords (thrOf s n) ((rx s b).toNat / 8 * 8) 18
    let p := partOfThread s n
    let guest := if levelOf s n = 0 then vfOfThread s n else none
    let mine := match guest with
      | some v => bookOfVf (vfOf s v) num
      | none => decide (levelOf s n ≠ 0)
    if mine = false ∨ (levelOf s n = 0 ∧ bkArm w ∧ bkLvl w) then privilege s (.bkarm d a b)
    else if bookNumberOk s p num = false then wr s d 1
    else if placePassed s (armPlace n) ∨ armHeld s p num w then .next s
    else if bkArm w = false then wr (disarmBooking (atPlace s (armPlace n)) p num) d 2
    else if bkAccepted s p guest num w then wr (armBooking (atPlace s (armPlace n)) p num w) d 0
    else wr s d 1

end Sys2Proof.Machine
end

