-- ==== Sys2Proof/Machine/Hash.lean ====
section
/-! DEFINITION. SM3, the hash that images, measurements and exported states use (14 R420, R421, R426; 13 R415). The spec
names it and does not write it out: it is the published standard's (PRESUMED, log 39). -/

namespace Sys2Proof.Machine

/-- The number whose bytes these are, most significant first. -/
def beNat (bs : List Byte) : Nat := bs.foldl (fun n b => 256 * n + b.toNat) 0

/-- The `k` bytes of a number, most significant first. -/
def beBytes (n : Nat) : Nat → List Byte
  | 0 => []
  | k + 1 => BitVec.ofNat 8 (n / 256 ^ k) :: beBytes n k

/-- The chaining value. -/
structure Sm3Chain where
  a : Lane
  b : Lane
  c : Lane
  d : Lane
  e : Lane
  f : Lane
  g : Lane
  h : Lane
  deriving DecidableEq, Repr

def sm3P0 (x : Lane) : Lane := x ^^^ x.rotateLeft 9 ^^^ x.rotateLeft 17
def sm3P1 (x : Lane) : Lane := x ^^^ x.rotateLeft 15 ^^^ x.rotateLeft 23

/-- One round, with the two message words that it takes. -/
def sm3Round (v : Sm3Chain) (j : Nat) (w w' : Lane) : Sm3Chain :=
  let t : Lane := if j < 16 then 0x79CC4519 else 0x7A879D8A
  let s1 := (v.a.rotateLeft 12 + v.e + t.rotateLeft (j % 32)).rotateLeft 7
  let s2 := s1 ^^^ v.a.rotateLeft 12
  let ff := if j < 16 then v.a ^^^ v.b ^^^ v.c else (v.a &&& v.b) ||| (v.a &&& v.c) ||| (v.b &&& v.c)
  let gg := if j < 16 then v.e ^^^ v.f ^^^ v.g else (v.e &&& v.f) ||| (~~~v.e &&& v.g)
  { a := ff + v.d + s2 + w', b := v.a, c := v.b.rotateLeft 9, d := v.c,
    e := sm3P0 (gg + v.h + s1 + w), f := v.e, g := v.f.rotateLeft 19, h := v.g }

/-- Rounds from `j` on, over the 16 message words that start at word `j`. -/
def sm3Rounds (v : Sm3Chain) (ws : List Lane) (j : Nat) : Nat → Sm3Chain
  | 0 => v
  | n + 1 =>
    let w := fun i => ws.getD i 0
    let next := sm3P1 (w 0 ^^^ w 7 ^^^ (w 13).rotateLeft 15) ^^^ (w 3).rotateLeft 7 ^^^ w 10
    sm3Rounds (sm3Round v j (w 0) (w 0 ^^^ w 4)) (ws.tail ++ [next]) (j + 1) n

/-- One block of 64 bytes. -/
def sm3Block (v : Sm3Chain) (block : List Byte) : Sm3Chain :=
  let u := sm3Rounds v ((List.range 16).map fun i => BitVec.ofNat 32 (beNat ((block.drop (4 * i)).take 4))) 0 64
  { a := u.a ^^^ v.a, b := u.b ^^^ v.b, c := u.c ^^^ v.c, d := u.d ^^^ v.d,
    e := u.e ^^^ v.e, f := u.f ^^^ v.f, g := u.g ^^^ v.g, h := u.h ^^^ v.h }

def sm3Blocks (v : Sm3Chain) (bs : List Byte) : Nat → Sm3Chain
  | 0 => v
  | n + 1 => sm3Blocks (sm3Block v (bs.take 64)) (bs.drop 64) n

def sm3Start : Sm3Chain :=
  { a := 0x7380166F, b := 0x4914B2B9, c := 0x172442D7, d := 0xDA8A0600,
    e := 0xA96F30BC, f := 0x163138AA, g := 0xE38DEE4D, h := 0xB0FB0E4E }

/-- The 32 bytes of a message's digest. -/
def sm3Bytes (m : List Byte) : List Byte :=
  let p := m ++ 0x80 :: List.replicate ((119 - m.length % 64) % 64) 0 ++ beBytes (8 * m.length) 8
  let v := sm3Blocks sm3Start p (p.length / 64)
  [v.a, v.b, v.c, v.d, v.e, v.f, v.g, v.h].flatMap fun x => beBytes x.toNat 4

/-- The digest as it stands in a register or a record: its first byte is the least significant (R3). -/
@[irreducible] def sm3 (m : List Byte) : BitVec 256 := BitVec.ofNat 256 (leNat (sm3Bytes m))

end Sys2Proof.Machine
end

