-- ==== Sys2Proof/Machine/Services.lean ====
section
/-! DEFINITION. The local services behind SEND: copies, state images, host completions, timers, NVMe admin commands and
snapshots (12 R353, R370 to R375; 13 R404, R411, R413, R415). A service answers none where it refuses its message. -/

namespace Sys2Proof.Machine

/-- An event with its status set (R381). -/
def withStatus (e : Event) (status : Nat) : Event :=
  { e with summary := (e.summary &&& ~~~(0xFF00 : Word)) ||| word (status * 2 ^ 8) }

/-- A MSG_COMPLETE event (R381). -/
def msgComplete (status vf slot : Nat) (cookie : Word) (rest : List Word) : Event :=
  { summary := summaryWord 1 status vf slot, record := pad16 (cookie :: rest) }

/-! ### Drover copies (R353, R404) -/

/-- A range of intermediate addresses that a VF may reach: its segment, its loan frames, or host memory (R340). -/
def ipaRangeOk (s : State) (v : VfId) (a n : Nat) : Bool :=
  let f := vfOf s v
  let q := partOf s f.part
  decide (a + n ≤ f.segSize) || decide (hostBase ≤ a ∧ a + n ≤ hostEnd) ||
    (decide (loanIpa ≤ a ∧ a + n ≤ loanIpa + q.loanSize) &&
      (List.range ((n + frameSize - 1) / frameSize + 1)).all fun i =>
        let b := min (a + i * frameSize) (a + n - 1)
        decide ((ownerTag s (q.loanBase + (b - loanIpa))).toNat = v.val + 1))

/-- A physical range that a Steward may copy: inside the carve-out or the tier window (R404). -/
def stewardRange (q : Partition) (a n : Nat) : Bool :=
  decide (q.carveBase ≤ a ∧ a + n ≤ q.carveBase + q.carveSize) ||
  (inCxl a && decide (a + n ≤ cxlEnd ∧ q.tierBase ≤ a ∧ a + n ≤ q.tierBase + q.tierSize))

/-- A physical range of one kind of memory (R339). -/
def keeperRange (a n : Nat) : Bool :=
  decide (a + n ≤ hbmEnd) || decide (cxlBase ≤ a ∧ a + n ≤ cxlEnd) || decide (hostBase ≤ a ∧ a + n ≤ hostEnd)

/-- The VF in whose space a thread's copy addresses lie; none for physical addresses (R404). -/
def copySpace (s : State) (n : ThreadId) : Option VfId := if (thrOf s n).home = 0 then vfOfThread s n else none

/-- The sender may copy the range. -/
def copyRange (s : State) (n : ThreadId) (a len : Nat) : Bool :=
  match (thrOf s n).home with
  | 0 => match vfOfThread s n with
    | some v => ipaRangeOk s v a len
    | none => false
  | 1 => match partOfThread s n with
    | some p => stewardRange (partOf s p) a len
    | none => false
  | _ => keeperRange a len

/-- The device-wide number of a done counter that a thread names, if it may name it (R393, R404). -/
def doneCtr (s : State) (n : ThreadId) (rel : Nat) : Option Nat :=
  match partOfThread s n with
  | none => if keeperCtr s rel then some rel else none
  | some p =>
    let q := partOf s p
    let ok := match (thrOf s n).home, vfOfThread s n with
      | 0, some v => ctrOfVf (vfOf s v) rel
      | 0, none => false
      | _, _ => decide (rel < q.ctrShare)
    if ok then some (q.ctrFirst + rel) else none

/-! ### State images (R415) -/

/-- Bytes of words. -/
def wordBytes (ws : List Word) : List Byte := ws.flatMap fun w => leBytes 8 w.toNat

/-- The booking numbers of a VF that are armed, with their bookings. -/
def bookingsOf (s : State) (v : VfId) : List (Nat × Booking) :=
  s.bookings.filter fun b => decide (b.2.vf = some v ∧ b.2.armed = true)

/-- A Lodging entry's bytes: nine words, then the addresses of its frames. -/
def lodgingBytes (e : Lodging) : List Byte :=
  wordBytes ([word e.expert, word e.vbase, word e.length, word e.state, word e.pin, word e.last, e.loc,
    word ((if e.nvme then 1 else 0) + e.port * 2 ^ 8 + e.nsid * 2 ^ 32), word e.frames.length] ++ e.frames.map word)

/-- The JQ entries of a VF's classes. -/
def entriesOf (s : State) (v : VfId) : List (Nat × JqEntry) := s.entries.filter fun e => decide (entryVf s e.2 = some v)

def lodgingsOf (s : State) (v : VfId) : List (Nat × Lodging) := s.lodging.filter fun e => decide (e.2.vf = v)

/-- The Guest threads of a VF. -/
def guestsOf (s : State) (v : VfId) : List ThreadId := (allFin 1024).filter fun n => ownsThread (vfOf s v) n.val

/-- The place of a number in a table's list. -/
def placeIn {α : Type} (t : Table α) (n : Nat) : Nat := t.findIdx fun e => decide (e.1 = n)

/-- The links of a VF's parked entries, Parlour and spill ring, in park order: the entry and the expert by their places in
their sections. -/
def linkBytes (s : State) (v : VfId) : List Byte :=
  (lodgingsOf s v).flatMap fun l => (parkedEntries s l.1 l.2).flatMap fun id =>
    leBytes 4 (placeIn (entriesOf s v) id) ++ leBytes 4 (placeIn (lodgingsOf s v) l.1) ++ leBytes 8 0

/-- The sections of a VF's state image, in order. The layout of the last four is the model's own (log 19). -/
def imageSections (s : State) (v : VfId) : List (List Byte) :=
  let f := vfOf s v
  let q := partOf s f.part
  [ wordBytes ((List.range f.cCount).map fun i => ctrGet s (q.ctrFirst + f.cFirst + i)),
    (bookingsOf s v).flatMap fun b =>
      wordBytes ((b.2.words.set 3 (word b.2.threshold)) ++ [word (runPlace q.bkRuns b.1), word b.2.bound]),
    (entriesOf s v).flatMap fun e => wordBytes (takenRecord e.2 ++ [word e.2.age, word e.2.readyTick]),
    (lodgingsOf s v).flatMap fun e => lodgingBytes e.2,
    linkBytes s v,
    (guestsOf s v).flatMap fun n => ((thrOf s n).queue ++ (thrOf s n).waiting).flatMap fun e =>
      wordBytes ([word n.val, e.summary] ++ pad16 e.record),
    ((List.range 4096).filter fun i => epValid q i && decide (epVf q i = v.val)).flatMap fun i =>
      wordBytes (word i :: (List.range 4).map (epWord q i)) ]

/-- The image: section sizes, the SM3 hash of the sections, and the sections (R415). -/
def stateImage (s : State) (v : VfId) : List Byte :=
  let secs := imageSections s v
  let body := secs.flatten
  wordBytes (secs.map fun x => word x.length) ++ leBytes 32 (sm3 body).toNat ++ body

/-- Cut a byte list into pieces of `n` bytes; `k` bounds their number. -/
def pieces (n : Nat) : Nat → List Byte → List (List Byte)
  | 0, _ => []
  | k + 1, bs => if bs.length < n ∨ n = 0 then [] else bs.take n :: pieces n k (bs.drop n)

/-- The words of a piece. -/
def pieceWords (bs : List Byte) : List Word := (pieces 8 bs.length bs).map fun p => word (leNat p)

/-- Size of section `i` of an image. -/
def sectionSize (img : List Byte) (i : Nat) : Nat := leNat ((img.drop (8 * i)).take 8)
/-- Section `i` of an image. -/
def sectionOf (img : List Byte) (i : Nat) : List Byte :=
  ((img.drop 88).drop ((List.range i).map (sectionSize img)).sum).take (sectionSize img i)

/-- The image's hash verifies (R415). -/
def imageOk (img : List Byte) : Bool :=
  decide (leNat ((img.drop 56).take 32) = (sm3 ((img.drop 88).take ((List.range 7).map (sectionSize img)).sum)).toNat)

/-- The length of an image by its header. -/
def imageLength (header : List Byte) : Nat := 88 + ((List.range 7).map (sectionSize header)).sum

def importCounters (s : State) (c : Nat) : List Word → State
  | [] => s
  | w :: ws => importCounters (ctrSet s c w) (c + 1) ws

def importBookings (s : State) (p : PartId) (v : VfId) : List (List Word) → State
  | [] => s
  | w :: ws =>
    let b : Booking := { part := some p, words := w.take 18, threshold := (recw w 3).toNat, vf := some v,
                         ctr := (partOf s p).ctrFirst + bkCtr w, bound := (recw w 19).toNat, arm := s.seq, armed := true }
    let n := bookNumber (partOf s p) ((recw w 18).toNat % 65536)
    importBookings { s with bookings := tput s.bookings n b, seq := s.seq + 1 } p v ws

/-- The imported JQ entries, and their new numbers in order. An entry's class is not in its record: it is a free value
(R415, log 19). -/
def importEntries (s : State) (p : PartId) (v : VfId) : Nat → List (List Word) → State × List Nat
  | _, [] => (s, [])
  | i, w :: ws =>
    let w1 := recw w 1
    let st : EntryState := match bfld w1 2 0 with
      | 1 => .waiting
      | 2 => .ready
      | 3 => .selected
      | 4 => .dispatched
      | 5 => .parked
      | 6 => .held
      | _ => .faulted
    let e : JqEntry :=
      { freshEntry s p (Config.imageByte v.val i).toNat (recw w 0) (payloadOf ((w.drop 2).take 8)) (bfld w1 10 8) v with
        state := st, folds := bfld w1 63 32, ovf := bbit w1 31, age := (recw w 10).toNat, readyTick := (recw w 11).toNat }
    match newEntry s with
    | none => (s, [])
    | some id =>
      let r := importEntries { s with entries := tput s.entries id e, seq := s.seq + 1 } p v (i + 1) ws
      (r.1, id :: r.2)

/-- The state of an imported Lodging entry: RESIDENT where its frames lie in the segment, whose bytes move with it; ARRIVING
without frames where it was, or where it was evicted and wanted; else ABSENT (DESIGN CHOICE, log 19). -/
def importedState (st : Nat) (frames : List Nat) : Nat :=
  if st = 2 then (if frames.all (fun a => decide (a < loanIpa)) then 2 else 0) else if st = 1 then 1 else 0

/-- The imported Lodging entries, and their new numbers in order. No entry's pin comes in with them. -/
def importLodging (s : State) (p : PartId) (v : VfId) : Nat → List Word → State × List Nat
  | 0, _ => (s, [])
  | n + 1, w =>
    if w.length < 9 then (s, [])
    else
      let t := recw w 7
      let k := (recw w 8).toNat
      let frames := ((w.drop 9).take k).map BitVec.toNat
      let st := importedState (bfld (recw w 3) 1 0) frames
      let e : Lodging :=
        { part := p, vf := v, expert := (recw w 0).toNat % 2 ^ 20, vbase := (recw w 1).toNat,
          length := (recw w 2).toNat, state := st, frames := if st = 2 then frames else [], nvme := bbit t 0,
          port := bfld t 10 8, nsid := bfld t 63 32, loc := recw w 6, pin := 0, last := (recw w 5).toNat, notify := none,
          fetching := false, issued := 0, wanted := false, removing := false, parlour := [] }
      match tfree s.lodging 0 32768 with
      | none => (s, [])
      | some l =>
        let r := importLodging { s with lodging := tput s.lodging l e } p v n (w.drop (9 + k))
        (r.1, l :: r.2)

/-- Imported links park their entries again, in park order. -/
def importLinks (s : State) (ids ls : List Nat) : List (List Word) → State
  | [] => s
  | w :: ws =>
    let at_ := recw w 0
    importLinks (match ids[bfld at_ 31 0]?, ls[bfld at_ 63 32]? with
      | some id, some l => match tfind s.entries id with
        | some e => parkEntry s l id e
        | none => s
      | _, _ => s) ids ls ws

def importEvents (s : State) (v : VfId) : List (List Word) → State
  | [] => s
  | w :: ws =>
    let n : ThreadId := Fin.ofNat 1024 ((recw w 0).toNat)
    importEvents (if ownsThread (vfOf s v) n.val then
      sendEvent s n { summary := recw w 1, record := (w.drop 2).take 16 } else s) v ws

/-- The imported endpoint slots, with their generations; reserved bits stay 0 (R386). -/
def importEndpoints (s : State) (p : PartId) : List (List Word) → State
  | [] => s
  | w :: ws =>
    let i := (recw w 0).toNat
    let mask (k : Nat) : Word := if k = 0 then 0xFFFFFFFF00000000 ||| slotMask 0 else slotMask k
    let put (q : Partition) (k : Nat) : Partition :=
      { q with endpoints := tset 0 q.endpoints (4 * i + k) (recw w (k + 1) &&& mask k) }
    importEndpoints (if 8 ≤ i ∧ i ≤ 4094 then modPart s p fun q => put (put (put (put q 0) 1) 2) 3 else s) p ws

/-- Take a state image into a CREATED VF (R415). -/
def importImage (s : State) (v : VfId) (img : List Byte) : State :=
  let f := vfOf s v
  let p := f.part
  let cut (n i : Nat) : List (List Word) :=
    let b := sectionOf img i
    (pieces n b.length b).map pieceWords
  let s := importCounters s ((partOf s p).ctrFirst + f.cFirst) ((pieceWords (sectionOf img 0)).take f.cCount)
  let s := importBookings s p v (cut 160 1)
  let es := importEntries s p v 0 (cut 96 2)
  let ls := importLodging es.1 p v 32768 (pieceWords (sectionOf img 3))
  let s := importLinks ls.1 es.2 ls.2 (cut 16 4)
  let s := importEvents s v (cut 144 5)
  importEndpoints s p (cut 40 6)

/-! ### The copy service: slot 4 (R404, R415) -/

/-- The done counter that a copy message names; none where it may not (R404). -/
def copyDone (s : State) (n : ThreadId) (w2 : Word) : Option (Option Nat) :=
  if bbit w2 48 then (doneCtr s n (bfld w2 47 32)).map some else some none

/-- A request for a Drover engine that a thread makes. -/
def copyRequest (s : State) (n : ThreadId) (k : DroverKind) (v : Option VfId) (src dst len : Nat) (done : Option Nat) :
    Drover :=
  { kind := k, part := partOfThread s n, pool := 0, unit := none, pos := 0, vf := v, src := src, dst := dst, length := len,
    done := done, notify := none }

/-- A Steward's state copy, or none where it is refused (R415). -/
def stateMsg (s : State) (n : ThreadId) (w : List Word) : Option State :=
  let w2 := recw w 2
  let v : VfId := Fin.ofNat 128 (bfld w2 55 49)
  match partOfThread s n with
  | none => none
  | some p =>
    let q := partOf s p
    if isStewardOf s p n = false ∨ partOfVf s v ≠ some p then none
    else if bfld w2 63 62 = 1 then
      let dst := (recw w 1).toNat
      let len := (stateImage s v).length
      if (vfOf s v).state = 3 ∧ stewardRange q dst len then
        (copyDone s n w2).map fun d => addDrover s (copyRequest s n (.exportState v) none 0 dst len d)
      else none
    else
      let src := (recw w 0).toNat
      let len := imageLength (physRead s src 88)
      if (vfOf s v).state = 1 ∧ stewardRange q src len ∧ imageOk (physRead s src len) then
        (copyDone s n w2).map fun d => addDrover s (copyRequest s n (.importState v) none src 0 len d)
      else none

/-- A copy message, or none where the service refuses it (R404). -/
def copyMsg (s : State) (n : ThreadId) (w : List Word) : Option State :=
  let w2 := recw w 2
  let len := bfld w2 31 0
  let src := (recw w 0).toNat
  let dst := (recw w 1).toNat
  if bfld w2 63 62 = 1 ∨ bfld w2 63 62 = 2 then stateMsg s n w
  else if bfld w2 63 49 ≠ 0 ∨ copyRange s n src len = false ∨ copyRange s n dst len = false then none
  else (copyDone s n w2).map fun d => addDrover s (copyRequest s n .copy (copySpace s n) src dst len d)

/-- A copy message as a step of its own. -/
def execDroverCopy (th : ThreadId) (msg : Msg) (s : State) : Result :=
  if bfld msg.w2 63 62 = 0 then .next ((copyMsg s th (msgWords msg)).getD s) else .next s
/-- Export of a FROZEN VF's state (R415). -/
def execStateExport (th : ThreadId) (msg : Msg) (s : State) : Result :=
  if bfld msg.w2 63 62 = 1 then .next ((copyMsg s th (msgWords msg)).getD s) else .next s
/-- Import of a state image into a CREATED VF (R415). -/
def execStateImport (th : ThreadId) (msg : Msg) (s : State) : Result :=
  if bfld msg.w2 63 62 = 2 then .next ((copyMsg s th (msgWords msg)).getD s) else .next s

/-- What a request has still to move waits: for a segment move or a zeroing (R341, R348), or for frames that a snapshot has
still to save (R372). -/
def droverWaits (s : State) (x : Drover) : Bool :=
  match x.kind with
  | .importState _ => false
  | .frame _ => unsaved s x.dst x.length
  | .exportState _ => unsaved s x.dst x.length
  | _ => transferWaits s x (x.length - x.pos)

/-- What a request has still to write waits: the frames that it meets unsaved are saved first (R372). -/
def droverWants (s : State) (x : Drover) : State := wantWrites s x.vf (x.dst + x.pos) (x.length - x.pos)

/-- A request uses a CXL port that is down (R412). -/
def droverDown (s : State) (x : Drover) : Bool :=
  decide (x.vf = none) && (cxlUses s x.src x.length (portDown s .cxl) || cxlUses s x.dst x.length (portDown s .cxl))

/-- What a request does as it completes: a copy lands the bytes that have not landed. -/
def droverEffect (s : State) (id : Nat) (x : Drover) : State :=
  match x.kind with
  | .frame n => { zeroMem s x.dst x.length with zeroing := s.zeroing.erase n }
  | .exportState v => physWrite s x.dst (stateImage s v)
  | .importState v => importImage s v (physRead s x.src x.length)
  | _ => landTransfer s id x (x.length - x.pos)

/-- The event of a Drover, with its status. -/
def droverNotify (s : State) (x : Drover) (status : Nat) : State :=
  match x.notify with
  | some (n, e) => sendEvent s n (withStatus e status)
  | none => s

/-- A request ends: its done counter advances and its event goes out, with status 4 after a tier error, which leaves the
bytes that have not landed as they were (R353, R392, R401). -/
def endDrover (s : State) (id : Nat) (x : Drover) (tierError : Bool) : State :=
  let s1 := if tierError ∧ x.kind ≠ .frame (x.dst / frameSize) then s else droverEffect s id x
  droverNotify (addDone (dropDrover s1 id) x.done) x (if tierError then 4 else 0)

/-- A request that an engine or a queue pair serves completes. A transfer of a fetch ends by R361 and R362, and a frame of a
snapshot is saved by SNAPSHOT_FRAME_SAVE. The completion of a FROZEN VF's copy is held (R414). -/
def execDroverComplete (id : Nat) (tierError : Bool) (s : State) : Result :=
  match tfind s.drovers id with
  | none => .next s
  | some x =>
    if x.unit = none then .next s
    else match x.kind with
      | .save _ => .next s
      | .fetch l i =>
        if tierError then .next (endPiece s id x l i true)
        else match transferRow s id x (x.length - x.pos) with
          | (s, false) => .next s
          | (s, true) => .next (if droverWaits s x then droverWants s x else endPiece s id x l i false)
      | .copy => match transferRow s id x (x.length - x.pos) with
        | (s, false) => .next s
        | (s, true) =>
          if droverWaits s x then .next (droverWants s x)
          else if isFrozen s x.vf then .next s
          else .next (endDrover s id x (tierError || droverDown s x))
      | _ =>
        if droverWaits s x then .next (droverWants s x)
        else if isFrozen s x.vf then .next s
        else .next (endDrover s id x (tierError || droverDown s x))

/-! ### Host completions: slot 5 (R411) -/

/-- Write one completion entry as one write, and raise the VF's interrupt where MSIX asks for it (R409, R411). -/
def writeCompletion (s : State) (v : VfId) (e : List Word) : State :=
  let f := vfOf s v
  let at_ := hostBase + f.cplBase.toNat + 32 * (f.cplNext.toNat % 2 ^ f.cplLog2)
  let w0 := word (f.cplNext.toNat % 2 ^ 32 * 2 ^ 32 + bfld (recw e 0) 31 0)
  let s1 := setVf (physWrite s at_ (wordBytes [w0, recw e 1, recw e 2, recw e 3])) v { f with cplNext := f.cplNext + 1 }
  if bbit f.msix 0 then { s1 with wire := s1.wire ++ [.interrupt v (bfld f.msix 10 1)] } else s1

/-- The ring is full (R411). -/
def ringFull (f : Vf) : Bool := decide ((f.cplNext - f.cplHead).toNat = 2 ^ f.cplLog2)

/-- Write entries that wait, in order, while there is room. -/
def drainCompletions (s : State) (v : VfId) : List (List Word) → State
  | [] => modVf s v fun f => { f with cplWaiting := [] }
  | e :: es =>
    if ringFull (vfOf s v) then modVf s v fun f => { f with cplWaiting := e :: es }
    else drainCompletions (writeCompletion s v e) v es

/-- Add a completion entry: HOSTSEQ, status and two data words. -/
def addCompletion (s : State) (v : VfId) (hostSeq status : Nat) (lo hi : Word) : State :=
  let e := [word hostSeq, word status, lo, hi]
  let f := vfOf s v
  if f.cplWaiting = [] then drainCompletions s v [e] else setVf s v { f with cplWaiting := f.cplWaiting ++ [e] }

/-- A message to slot 5, or none: the sender's VF answers HOSTSEQ COOKIE[31:0] with status COOKIE[39:32] (R404). -/
def completionMsg (s : State) (n : ThreadId) (cookie lo hi : Word) : Option State :=
  match vfOfThread s n with
  | none => none
  | some v => some (addCompletion s v (bfld cookie 31 0) (bfld cookie 39 32) lo hi)

/-- One completion entry to the host ring (R411). -/
def execHostCompletion (th : ThreadId) (cookie lo hi : BitVec 64) (s : State) : Result :=
  .next ((completionMsg s th cookie lo hi).getD s)

/-- The host's consumed sequence lets waiting entries be written (R409, R411). -/
def execCplhead (vf : VfId) (value : BitVec 64) (s : State) : Result :=
  let f := vfOf s vf
  if f.state = 0 then .next s
  else .next (drainCompletions (setVf s vf { f with cplHead := value }) vf f.cplWaiting)

/-! ### Timers: slot 6 (R404) -/

/-- A timer message, or none. -/
def timerMsg (s : State) (n : ThreadId) (w : List Word) : Option State :=
  let ticks := bfld (recw w 0) 47 0
  if ticks = 0 then none
  else some { s with timers := tput s.timers s.seq { thread := n, left := ticks, cookie := recw w 1 }, seq := s.seq + 1 }

/-- A timer request (R404). -/
def execTimerRequest (th : ThreadId) (msg : Msg) (s : State) : Result := .next ((timerMsg s th (msgWords msg)).getD s)

/-- A timer request expires: a TIMER event (R381, R404). -/
def execTimerExpiry (id : Nat) (s : State) : Result :=
  match tfind s.timers id with
  | none => .next s
  | some t =>
    if t.left ≠ 0 then .next s
    else .next (sendEvent { s with timers := tdel s.timers id } t.thread
      { summary := summaryWord 6 0 ((vfOfThread s t.thread).elim 0 (·.val)) 0, record := pad16 [t.cookie] })

/-! ### NVMe admin: slot 3 (R413) -/

/-- Format NVM and Namespace Management, by the opcode of the submission entry (PRESUMED, log 20). -/
def nvmeGuarded (w : List Word) : Bool := decide (bfld (recw w 0) 7 0 = 0x80 ∨ bfld (recw w 0) 7 0 = 0x0D)

/-- The sender may give the drive the command: a Steward one that is not guarded, on a port of its drive mask, and a Keeper
thread the guarded ones (R369, R404, R413; DEDUCED, log 20). -/
def nvmeAllowed (s : State) (n : ThreadId) (m : Msg) : Bool :=
  match partOfThread s n with
  | none => isKeeper n && nvmeGuarded (msgWords m)
  | some p => isStewardOf s p n && (partOf s p).tierPorts.getLsbD (bfld m.w0 2 0) && !nvmeGuarded (msgWords m)

/-- An NVMe admin message, or none. -/
def nvmeMsg (s : State) (n : ThreadId) (m : Msg) (notify : Option ThreadId) (cookie : Word) (done : Option Nat) :
    Option State :=
  if nvmeAllowed s n m then some { s with nvmeAdmin := s.nvmeAdmin ++
    [{ port := Fin.ofNat 8 (bfld m.w0 2 0), cmd := m, notify := notify, cookie := cookie, done := done }] }
  else none

/-- An NVMe admin command (R413). -/
def execNvmeAdmin (th : ThreadId) (msg : Msg) (s : State) : Result := .next ((nvmeMsg s th msg none 0 none).getD s)

/-- Remove the first command of a port. -/
def takeNvme (port : Fin 8) : List NvmeCmd → Option (NvmeCmd × List NvmeCmd)
  | [] => none
  | c :: cs => if c.port = port then some (c, cs) else (takeNvme port cs).map fun r => (r.1, c :: r.2)

/-- A drive completes the oldest admin command of its port: its completion entry returns in MSG_COMPLETE (R381, R413). -/
def execNvmeAdminCompletion (port : Fin 8) (lo hi : BitVec 64) (s : State) : Result :=
  match takeNvme port s.nvmeAdmin with
  | none => .next s
  | some (c, cs) =>
    let s1 := addDone { s with nvmeAdmin := cs } c.done
    .next (match c.notify with
      | some n => sendEvent s1 n (msgComplete 0 0 3 c.cookie [0, lo, hi])
      | none => s1)

/-! ### Snapshots: slot 2 (R370 to R375) -/

/-- The loan frames tagged to a partition's VFs, as physical addresses, ascending (R370). -/
def taggedLoans (s : State) (p : PartId) : List Nat :=
  let q := partOf s p
  let vs := (vfsOf s p).map fun v => v.val + 1
  ((List.range (q.loanSize / frameSize)).map fun i => q.loanBase + i * frameSize).filter fun a =>
    vs.contains (ownerTag s a).toNat

/-- The physical ranges that a snapshot holds. -/
def snapRanges (s : State) : SnapScope → List (Nat × Nat)
  | .partition p => sortBy (fun a b => decide (a.1 < b.1))
      (((partOf s p).carveBase, (partOf s p).carveSize) :: (taggedLoans s p).map fun a => (a, frameSize))
  | .device => [(0, hbmEnd)]

/-- The 64 KiB frames of a list of ranges, ascending. -/
def snapFrames (rs : List (Nat × Nat)) : List Nat :=
  rs.flatMap fun r => (List.range ((r.2 + snapFrame - 1) / snapFrame)).map fun i => r.1 + snapFrame * i

/-- Bytes of the image, its header frame included. -/
def snapBytes (s : State) (sc : SnapScope) : Nat := snapFrame * (1 + (snapFrames (snapRanges s sc)).length)

/-- Frames of an image of `frames` that the `j`th of `p` ports holds (R373). -/
def portFrames (frames p j : Nat) : Nat := (frames + p - 1 - j) / p

/-- Every drive of a mask shows a namespace of 4096-byte LBAs that holds its part of the image from the first LBA on (R370,
R373, R413). -/
def drivesHold (s : State) (sc : SnapScope) (ports : BitVec 8) (nsid loc : Nat) : Bool :=
  let ps := portsOf ports
  let frames := snapBytes s sc / snapFrame
  (List.range ps.length).all fun j => match tfind s.namespaces (2 ^ 32 * ps.getD j 0 + nsid) with
    | none => false
    | some (lba, blocks) => decide (lba = 4096 ∧ loc + 16 * portFrames frames ps.length j ≤ blocks)

/-- The target of an image is allowed and holds it (R369, R370). -/
def snapTarget (s : State) (sc : SnapScope) (nvme : Bool) (ports nsid loc : Nat) : Bool :=
  (match sc with
   | .partition p =>
     let q := partOf s p
     if nvme then decide (BitVec.ofNat 8 ports &&& ~~~q.tierPorts = 0)
     else decide (q.tierBase ≤ loc ∧ loc + snapBytes s sc ≤ q.tierBase + q.tierSize)
   | .device => true) &&
  (if nvme then drivesHold s sc (BitVec.ofNat 8 ports) nsid loc
   else decide (cxlBase ≤ loc ∧ loc + snapBytes s sc ≤ cxlEnd))

/-- The scope of a thread's snapshot message; a Guest thread has none. -/
def snapScope (s : State) (n : ThreadId) : Option SnapScope :=
  if isKeeper n then some .device
  else match partOfThread s n with
    | some p => if isStewardOf s p n then some (.partition p) else none
    | none => none

/-- A snapshot message, or none where the endpoint refuses it (R370). A CXL LOC that is not 64 KiB aligned, which breaks the
table, and a CTR that the sender may not name are refused, though R370's list holds neither (DESIGN CHOICE, log 70). -/
def snapshotMsg (s : State) (n : ThreadId) (m : Msg) (notify : Option ThreadId) (cookie : Word) (done : Option Nat) :
    Option State :=
  match snapScope s n with
  | none => none
  | some sc =>
    let nvme := bbit m.w0 8
    let ports := bfld m.w0 7 0
    let reserved := decide (bfld m.w0 63 42 ≠ 0 ∨ bfld m.w0 15 9 ≠ 0 ∨ bfld m.w2 31 0 ≠ 0 ∨ m.w3 ≠ 0 ∨ m.w4 ≠ 0 ∨
      m.w5 ≠ 0 ∨ m.w6 ≠ 0 ∨ m.w7 ≠ 0)
    if reserved ∨ (s.snapshots.any fun x => decide (x.scope = sc)) ∨ (nvme = false ∧ m.w1.toNat % snapFrame ≠ 0) ∨
       snapTarget s sc nvme ports (bfld m.w2 63 32) m.w1.toNat = false ∨ (nvme ∧ ports = 0) then none
    else match doneCtr s n (bfld m.w0 31 16) with
      | none => none
      | some c => some { s with snapshots := s.snapshots ++
          [{ scope := sc, thread := Fin.ofNat 1024 (bfld m.w0 41 32), cookie := cookie, ctr := c, notify := notify,
             done := done, nvme := nvme,
             ports := BitVec.ofNat 8 ports, loc := m.w1, nsid := bfld m.w2 63 32, cut := false, frames := [],
             header := [], image := [], pubs := [], msgs := [] }] }

/-- A snapshot message as a step of its own (R370). -/
def execSnapshot (th : ThreadId) (msg : Msg) (s : State) : Result := .next ((snapshotMsg s th msg none 0 none).getD s)

/-- Change the snapshot of a scope. -/
def modSnap (s : State) (sc : SnapScope) (f : Snapshot → Snapshot) : State :=
  { s with snapshots := s.snapshots.map fun x => if x.scope = sc then f x else x }

/-- The VF of this device in whose segment a granule's stores go; none for a peer's (R259). -/
def granuleVf (s : State) (v : VfId) (d : StoreDest) : Option VfId :=
  match d with
  | .ipa => some v
  | .member _ _ dev rvf _ => if dev = s.purlinId then some (Fin.ofNat 128 rvf) else none

/-- Where stage 2 takes an intermediate address of a VF; none where it refuses it or makes it wait. -/
def placeNow (s : State) (v : VfId) (ipa : Nat) : Option Nat :=
  match stage2 s v ipa with
  | .ok pa => some pa
  | _ => none

/-- The physical addresses that the stores and the increments of a publish are on their way to. One that is held has none
yet (R371, R375). -/
def publishPlaces (s : State) (p : Publish) : List Nat :=
  p.stores.filterMap (fun g => (granuleVf s p.vf g.dest).bind fun v => placeNow s v g.addr) ++
  p.effects.filterMap fun e => match e with
    | .incr v ipa _ => placeNow s v ipa
    | _ => none

/-- Lay the arrival counters of a VF over the memory behind its window (R394). -/
def imageCounters (s : State) (m : Memory) (v : VfId) : Memory :=
  let f := vfOf s v
  if f.state ≠ 0 ∧ f.winEn then
    mwrite m (f.segBase + f.winIpa) ((List.range (8 * f.cCount)).map fun i => physByte s (f.segBase + f.winIpa + i))
  else m

/-- The bytes that have applied at the cut. What the cut holds and applies later is added as it does (R371). -/
def cutImage (s : State) : Memory := (allFin 128).foldl (imageCounters s) s.mem

/-- The header frame (R373). For a device snapshot, which has no carve-out, w2 and w4 are 0 and w3 is the size of HBM; a list of
more than 8187 loan frames is cut off at the frame's end (DESIGN CHOICE, log 70). -/
def snapHeader (s : State) (sc : SnapScope) (frames : Nat) : List Byte :=
  let ws := match sc with
    | .partition p =>
      let q := partOf s p
      let ls := taggedLoans s p
      [word frames, word (tickOf s), word q.carveBase, word q.carveSize, word ls.length] ++ ls.map word
    | .device => [word frames, word (tickOf s), 0, word hbmEnd, 0]
  let bs := wordBytes ws
  (bs ++ List.replicate (snapFrame - bs.length) 0).take snapFrame

/-- The publishes that have begun. -/
def begunPublishes (s : State) : List (TileId × Nat) :=
  (allFin 256).flatMap fun t => (tileOf s t).publishes.map fun p => (t, p.num)

/-- The messages whose placement into HBM has begun (R371). -/
def begunMessages (s : State) : List Nat :=
  s.inbound.filterMap fun m => if bkPlace m.2.words = 2 ∧ 0 < m.2.received ∧ m.2.launch = false then some m.1 else none

/-- The next frame to save: one that a write waits for, else the first (R372). -/
def nextFrame (x : Snapshot) : Option (Nat × Nat) := (x.frames.find? fun f => x.wanted.contains f.2).or x.frames.head?

/-- Ask for the save of a snapshot's next frame: of its header first (R353, R373). -/
def askSave (s : State) (x : Snapshot) : State :=
  let i? := if x.header ≠ [] then some 0 else (nextFrame x).map fun f => f.1 + 1
  match i? with
  | none => s
  | some i =>
    let ps := portsOf x.ports
    let part := match x.scope with
      | .partition p => some p
      | .device => none
    addDrover s { kind := .save x.scope, part := part, pool := if x.nvme then 1 + ps.getD (i % ps.length) 0 else 0,
                  unit := none, pos := 0, vf := none, src := 0, dst := x.loc.toNat + snapFrame * i, length := snapFrame,
                  done := none, notify := none }

/-- The request for the next frame of a snapshot. -/
def saveRequest (s : State) (sc : SnapScope) : Option (Nat × Drover) :=
  s.drovers.find? fun x => decide (x.2.kind = .save sc)

/-- The marker reaches memory: the cut is fixed (R371). -/
def execSnapshotCut (scope : SnapScope) (s : State) : Result :=
  match s.snapshots.find? fun x => decide (x.scope = scope) with
  | none => .next s
  | some x =>
    if x.cut then .next s
    else
      let fs := snapFrames (snapRanges s scope)
      let x' := { x with cut := true, ranges := snapRanges s scope, frames := (List.range fs.length).zip fs, header := snapHeader s scope fs.length,
                         image := cutImage s, pubs := begunPublishes s, msgs := begunMessages s }
      .next (askSave (modSnap s scope fun _ => x') x')

/-- The snapshot ends: its request goes, the writes that wait on it go on, CTR advances and THREAD has MSG_COMPLETE (R375). -/
def endSnapshot (s : State) (x : Snapshot) (tierError : Bool) : State :=
  let s := dropDrovers s fun y => decide (y.kind = .save x.scope)
  let s1 := addCounter { s with snapshots := s.snapshots.filter fun y => decide (y.scope ≠ x.scope) } x.ctr 1
  let e := msgComplete (if tierError then 4 else 0) 0 2 x.cookie []
  let s2 := sendEvent (addDone s1 x.done) x.thread e
  match x.notify with
  | some n => sendEvent s2 n e
  | none => s2

/-- A message of the cut may still place bytes in the frame at `a`. -/
def messageAwaited (s : State) (a id : Nat) : Bool :=
  match tfind s.inbound id with
  | none => false
  | some m =>
    let base := (vfOf s m.vf).segBase + bkBase m.words
    !(vfOf s m.vf).segHeld && decide (base < a + snapFrame ∧ a < base + bkLen m.words)

/-- A publish of the cut has still to store in the frame at `a`. -/
def publishAwaited (s : State) (a : Nat) (k : TileId × Nat) : Bool :=
  (tileOf s k.1).publishes.any fun p =>
    decide (p.num = k.2) && (publishPlaces s p).any fun b => decide (a ≤ b ∧ b < a + snapFrame)

/-- A write of the cut to the frame at `a` has still to apply: its save waits for it (R372). One that a segment move holds is
added to the image when it applies (R375). -/
def frameAwaits (s : State) (x : Snapshot) (a : Nat) : Bool :=
  x.msgs.any (messageAwaited s a) || x.pubs.any (publishAwaited s a)

/-- The frame that a request saves, by its place at the target. -/
def requestFrame (x : Snapshot) (r : Drover) : Option (Nat × Nat) :=
  x.frames.find? fun f => decide (x.loc.toNat + snapFrame * (f.1 + 1) = r.dst)

/-- The target of the next frame lies behind a CXL or flash port that is down (R412). -/
def saveDown (s : State) (x : Snapshot) (r : Drover) : Bool :=
  if x.nvme then portDown s .nvme (r.pool - 1) else cxlUses s r.dst r.length (portDown s .cxl)

/-- A served request saves the header frame, then each 64 KiB frame, ascending but for those that writes wait for, as the cut
holds it (R353, R372, R373). -/
def execSnapshotFrameSave (scope : SnapScope) (s : State) : Result :=
  match s.snapshots.find? fun x => decide (x.scope = scope), saveRequest s scope with
  | some x, some (id, r) =>
    if r.unit = none then .next s
    else if saveDown s x r then .next (endSnapshot s x true)
    else if x.header ≠ [] then
      let x' := { x with header := [] }
      .next (askSave (modSnap (saveFrame (dropDrover s id) x 0 x.header) scope fun _ => x') x')
    else match requestFrame x r with
      | none => .next (askSave (dropDrover s id) x)
      | some (i, a) =>
        if frameAwaits s x a then .next s
        else
          let x' := { x with frames := x.frames.filter fun f => decide (f.1 ≠ i), wanted := x.wanted.erase a }
          .next (askSave (modSnap (saveFrame (dropDrover s id) x (i + 1) (mread x.image a snapFrame)) scope fun _ => x') x')
  | _, _ => .next s

/-- The snapshot's last frame is saved, or its target fails (R375). -/
def execSnapshotComplete (scope : SnapScope) (tierError : Bool) (s : State) : Result :=
  match s.snapshots.find? fun x => decide (x.scope = scope) with
  | none => .next s
  | some x =>
    if tierError ∨ (x.cut ∧ x.header = [] ∧ x.frames = []) then .next (endSnapshot s x tierError) else .next s

/-- Bytes of a message that the cut of a running snapshot holds, from an intermediate address on, reach its image too
(R371). -/
def imageLanding (s : State) (id : Nat) (v : VfId) (ipa : Nat) (bs : List Byte) : State :=
  ((List.range bs.length).zip bs).foldl (fun s b => match placeNow s v (ipa + b.1) with
    | some pa => imageSet s (fun x => x.msgs.contains id) pa fun _ => b.2
    | none => s) s

end Sys2Proof.Machine
end

