-- ==== Sys2Proof/Machine/Link.lean ====
section
/-! DEFINITION. SEND, packets and messages, host launches, Purlin requests, link states, and the event words
(13 R380 to R391, R397 to R410). -/

namespace Sys2Proof.Machine

/-! ### SEND (R402 to R404) -/

def sdOp (w : List Word) : Nat := bfld (recw w 2) 63 62
def sdFromMem (w : List Word) : Bool := bbit (recw w 2) 61
def sdNotifyEn (w : List Word) : Bool := bbit (recw w 2) 60
def sdNotify (w : List Word) : ThreadId := Fin.ofNat 1024 (bfld (recw w 2) 59 50)
def sdDoneEn (w : List Word) : Bool := bbit (recw w 2) 48
def sdDone (w : List Word) : Nat := bfld (recw w 2) 47 32
def sdLength (w : List Word) : Nat := bfld (recw w 2) 31 0
def sdSrc (w : List Word) : Nat := (recw w 3).toNat

/-- NOTIFY is a thread that the issuer may name (R396, R402). -/
def sdNotifyOk (s : State) (n : ThreadId) : Bool :=
  match issuerPart s, issuerVf s with
  | some p, some v => notifyOk s p v n
  | some p, none => isStewardOf s p n
  | none, _ => isKeeper n

/-- The device-wide done counter, if the issuer may name it (R393, R402). -/
def sdDoneCtr (s : State) (rel : Nat) : Option Nat :=
  match s.cur with
  | .thread n => doneCtr s n rel
  | .tile _ _ => match issuerPart s, issuerVf s with
    | some p, some v => if ctrOfVf (vfOf s v) rel then some ((partOf s p).ctrFirst + rel) else none
    | _, _ => none

/-- The agent in turn is a thread. -/
def issuerIsThread (s : State) : Bool :=
  match s.cur with
  | .thread _ => true
  | .tile _ _ => false

/-- The descriptor's fields are in range (R402, R403). -/
def sdInRange (s : State) (w : List Word) : Bool :=
  decide (sdOp w ≠ 3) && (decide (sdLength w ≤ 4096) || sdFromMem w) &&
    (issuerIsThread s || (!sdFromMem w && decide (sdOp w ≠ 2))) &&
    (!sdNotifyEn w || sdNotifyOk s (sdNotify w)) && (!sdDoneEn w || (sdDoneCtr s (sdDone w)).isSome)

/-- The data lies where the OP needs (R403): the response of a read in the issuer's segment, and FROMMEM data in its
intermediate space. -/
def sdDataOk (s : State) (w : List Word) : Bool :=
  match issuerVf s with
  | some v =>
    if sdOp w = 2 then decide (sdSrc w + sdLength w ≤ (vfOf s v).segSize)
    else !sdFromMem w || ipaRangeOk s v (sdSrc w) (sdLength w)
  | none => decide (sdOp w ≠ 2) && !sdFromMem w

/-- The bytes of a send as they stand at its issue; FROMMEM data is read at transmission (R403). -/
def sdBytes (s : State) (w : List Word) : List Byte :=
  if sdOp w = 2 ∨ sdFromMem w then [] else localRead s (sdSrc w) (sdLength w)

def sdNotifyOf (w : List Word) : Option ThreadId := if sdNotifyEn w then some (sdNotify w) else none
def sdDoneOf (s : State) (w : List Word) : Option Nat := if sdDoneEn w then sdDoneCtr s (sdDone w) else none

/-- The send that a descriptor makes. -/
def sendOf (s : State) (p : PartId) (h : Word) (w : List Word) : Send :=
  { part := p, vf := issuerVf s, handle := h, cookie := recw w 0, tag := recw w 1, op := sdOp w, fromMem := sdFromMem w,
    notify := sdNotifyOf w, done := sdDoneOf s w, length := sdLength w, srcAddr := recw w 3,
    remote := if sdOp w = 0 then 0 else recw w 4, data := sdBytes s w }

/-- Size of a local service's message (R404). -/
def serviceSize (slot : Nat) : Nat :=
  match slot with
  | 0 => 16
  | 4 => 32
  | 5 => 16
  | 6 => 16
  | _ => 64

/-- The message of eight words that bytes make. -/
def msgOf (bs : List Byte) : Msg :=
  let w (i : Nat) : Word := word (leNat ((bs.drop (8 * i)).take 8))
  { w0 := w 0, w1 := w 1, w2 := w 2, w3 := w 3, w4 := w 4, w5 := w 5, w6 := w 6, w7 := w 7 }

/-- What a local service does with a message; none where it refuses (R404). -/
def serviceMsg (s : State) (n : ThreadId) (slot : Nat) (w : List Word) (m : Msg) : Option State :=
  match slot with
  | 0 => (partOfThread s n).bind fun p => preemptMsg s n p m.w0 m.w1
  | 1 => (partOfThread s n).bind fun p => lodgingMsg s n p m
  | 2 => snapshotMsg s n m (sdNotifyOf w) (recw w 0) (sdDoneOf s w)
  | 3 => nvmeMsg s n m (sdNotifyOf w) (recw w 0) (sdDoneOf s w)
  | 4 => copyMsg s n (msgWords m)
  | 5 => completionMsg s n (recw w 0) m.w0 m.w1
  | 6 => timerMsg s n (msgWords m)
  | _ => none

/-- A message whose service completes it at once: DONE advances and NOTIFY has its event (R404). -/
def serviceDone (s : State) (n : ThreadId) (slot : Nat) (w : List Word) : State :=
  let s1 := addDone s (sdDoneOf s w)
  match sdNotifyOf w with
  | none => s1
  | some t => sendEvent s1 t (msgComplete 0 ((vfOfThread s n).elim 0 (·.val)) slot (recw w 0) [])

/-- SEND to a local service (R403, R404). -/
def sendLocal (s : State) (n : ThreadId) (slot : Nat) (w : List Word) : Option State :=
  if sdOp w ≠ 0 ∨ sdLength w ≠ serviceSize slot then none
  else
    let bs := match sdFromMem w, issuerVf s with
      | true, some v => ipaRead s v (sdSrc w) (sdLength w)
      | _, _ => sdBytes s w
    (serviceMsg s n slot w (msgOf bs)).map fun s1 => if slot = 2 ∨ slot = 3 then s1 else serviceDone s1 n slot w

/-- Hand an accepted send on: to the effect list of a tile, or to the transport at once (R403). -/
def handSend (s : State) (m : Send) : State :=
  match s.cur with
  | .tile t _ => modTile s t fun T => { T with effects := T.effects ++ [.send m] }
  | .thread _ => acceptSend s m

/-- The agent in turn may use the endpoint: a Guest thread of no VF has none (R386, R403). -/
def issuerEndpoint (s : State) (p : PartId) (h : Word) : Bool :=
  endpointOk s p (issuerVf s) h && match s.cur with
    | .tile _ _ => true
    | .thread n => decide ((thrOf s n).home ≠ 0) || (vfOfThread s n).isSome

/-- SEND to a peer (R403): REFUSED, BUSY, PUBLISH_FULL, or accepted. -/
def sendPeer (s : State) (d : XReg) (h : Word) (w : List Word) : Result :=
  match issuerPart s with
  | none => wr s d 1
  | some p =>
    if issuerEndpoint s p h = false then wr s d 1
    else if Config.transmitFree s.freeCtr = false then wr s d 2
    else if effectsFull s then publishFull s
    else wr (handSend s (sendOf s p h w)) d 0

/-- The data of a local service's message lies in memory that waits (R341, R348). -/
def sdWaits (s : State) (w : List Word) : Bool :=
  match issuerVf s with
  | some v => sdFromMem w && decide (sdOp w = 0) && rangeWaits s v (sdSrc w) (sdLength w)
  | none => false

/-- An access of the thread waits for a segment move (R348, R380). -/
def holdAccess (s : State) (n : ThreadId) : Result :=
  let held := match vfOfThread s n with
    | some v => decide (levelOf s n = 0) && ((vfOf s v).segHeld || s.holds.any fun h => decide (h.who = .thread n))
    | none => false
  .next (modThr s n fun h => { h with heldAccess := held })

/-- The read of a local service's message comes to the segment row of the issuer's VF (R348, R349). -/
def sdRow (s : State) (n : ThreadId) (w : List Word) : State × Bool :=
  match issuerVf s with
  | some v => if sdFromMem w ∧ sdOp w = 0 then rowRange s (.thread n) v (sdSrc w) (sdSrc w) (sdLength w) else (s, true)
  | none => (s, true)

/-- SEND (R402, R403). -/
def execSend (d a b : XReg) (s : State) : Result :=
  scalar s (.send d a b)
    (let h := rx s a
     let w := localWords s (rx s b).toNat 5
     if sdInRange s w = false ∨ sdDataOk s w = false then wr s d 1
     else if 8 ≤ h.toNat then sendPeer s d h w
     else match s.cur with
       | .tile _ _ => wr s d 1
       | .thread n =>
         match sdRow s n w with
         | (s, false) => holdAccess s n
         | (s, true) =>
           if sdWaits s w then holdAccess s n
           else
             let s := if sdFromMem w then modThr s n fun h => { h with heldAccess := false } else s
             match sendLocal s n h.toNat w with
             | none => wr s d 1
             | some s1 => wr s1 d 0)

/-! ### Completion and retries of sends (R389, R391, R403) -/

/-- The absent members of a SEND: its one peer counts as member 0 of a Purlin endpoint (R381; DESIGN CHOICE, log 67). -/
def sendAbsent (s : State) (m : Send) (status : Nat) : Word :=
  flagWord (decide (status = 2 ∧ bfld (epWord (partOf s m.part) (bfld m.handle 11 0) 0) 19 16 = 2))

/-- A send to a peer completes with a status. -/
def completeSend (s : State) (id : Nat) (m : Send) (status : Nat) : State :=
  let s1 := addDone { s with outbound := tdel s.outbound id } m.done
  match m.notify with
  | none => s1
  | some n =>
    sendEvent s1 n (msgComplete status (m.vf.elim 0 (·.val)) (bfld m.handle 11 0) m.cookie [sendAbsent s m status])

/-- What of a response is still wanted of a read: its bytes come in order (DESIGN CHOICE, log 72). -/
def wantedResponse (o : OutSend) (resp : List Byte) : List Byte :=
  if o.send.op = 2 then resp.take (o.send.length - o.got) else []

/-- The place where a response's bytes land waits: for a segment move, or for a frame that a snapshot has still to save
(R348, R372). -/
def responseHeld (s : State) (o : OutSend) (bs : List Byte) : Bool :=
  o.send.vf.any fun v => writeWaits s (some v) (o.send.srcAddr.toNat + o.got) bs.length

/-- The bytes of a response come to the segment row of the VF (R348, R349). -/
def responseRow (s : State) (id : Nat) (o : OutSend) (bs : List Byte) : State × Bool :=
  match o.send.vf with
  | some v => rowRange s (.transfer id) v o.got (o.send.srcAddr.toNat + o.got) bs.length
  | none => (s, true)

/-- Bytes of a read's response land (R403). -/
def landResponse (s : State) (o : OutSend) (bs : List Byte) : State :=
  match o.send.vf with
  | some v => ipaWrite s v (o.send.srcAddr.toNat + o.got) bs
  | none => s

/-- Every packet is acknowledged: the send completes, unless its VF is FROZEN, whose completions are held (R389, R414). -/
def settleSend (s : State) (id : Nat) (o : OutSend) : State :=
  if o.packets.all OutPacket.acked ∧ isFrozen s o.send.vf = false then completeSend s id o.send 0 else s

/-- The peer acknowledges a packet, or bytes of a read's response land: a read is acknowledged once every byte of it has
(R389, R403). -/
def execAckArrival (id : SendPacket) (resp : List (BitVec 8)) (s : State) : Result :=
  match tfind s.outbound id.send with
  | none => .next s
  | some o => match o.packets[id.place]? with
    | none => .next s
    | some p =>
      if p.acked then .next (settleSend s id.send o)
      else if p.sent = false ∨ p.port = none ∨ p.answer ≠ 0 ∨ p.backoff.isSome then .next s
      else
        let bs := wantedResponse o resp
        match responseRow s id.send o bs with
        | (s, false) => .next s
        | (s, true) =>
          if responseHeld s o bs then
            .next (o.send.vf.elim s fun v => wantWrites s (some v) (o.send.srcAddr.toNat + o.got) bs.length)
          else
            let all : Bool := decide (o.send.op ≠ 2 ∨ o.send.length ≤ o.got + bs.length)
            let o' := { o with packets := o.packets.set id.place { p with acked := all }, got := o.got + bs.length }
            let s1 := landResponse s o bs
            .next (settleSend { s1 with outbound := tput s1.outbound id.send o' } id.send o')

/-- The retries of a packet are used up, or the peer refused it (R391). -/
def packetExhausted (p : OutPacket) : Bool := decide (1 < p.answer ∨ 16 < p.tries ∨ 5000000 ≤ p.ticks)

/-- A packet whose data has not left goes out, and one that is unacknowledged goes out again, or the send ends with
PEER_ABSENT (R391). -/
def execRetransmitTimeout (id : SendPacket) (s : State) : Result :=
  match tfind s.outbound id.send with
  | none => .next s
  | some o => match o.packets[id.place]? with
    | none => .next s
    | some p =>
      if p.backoff.isSome ∨ p.acked then .next s
      else if packetExhausted p then (if isFrozen s o.send.vf then .next s else .next (completeSend s id.send o.send 2))
      else .next (transmit s id.send id.place o)

/-- A retry-later back-off has passed: the packet is sent again (R391). -/
def execRetryBackoffExpiry (id : SendPacket) (s : State) : Result :=
  match tfind s.outbound id.send with
  | none => .next s
  | some o => match o.packets[id.place]? with
    | none => .next s
    | some p => if p.backoff = some 0 then .next (transmit s id.send id.place o) else .next s

/-! ### Arriving messages (R387 to R390, R397, R399) -/

/-- The valid slots of a partition, ascending. -/
def slotsOf (s : State) (p : PartId) : List Nat :=
  (List.range 4095).filter fun i => epValid (partOf s p) i

/-- The source slot of a message of VF `v`, or 4095 (R387). -/
def sourceSlot (s : State) (v : VfId) (p : Packet) : Nat :=
  let q := partOf s (vfOf s v).part
  let hit := (slotsOf s (vfOf s v).part).find? fun i =>
    let w3 := epWord q i 3
    decide (epVf q i = v.val ∧ bfld (epWord q i 0) 19 16 = (if p.purlin then 2 else 1) ∧
      bfld w3 23 0 = p.job.toNat ∧ bfld w3 35 24 = p.pid.toNat) &&
    (if p.purlin then decide (bfld (epWord q i 1) 11 0 = bfld p.addrLo 11 0 ∧ bfld w3 42 36 = p.remoteVf.val)
     else decide (epWord q i 1 = p.addrLo ∧ epWord q i 2 = p.addrHi))
  hit.getD 4095

/-- The destination VF of a packet (R387); none refuses it as an unknown endpoint. -/
def packetVf (s : State) (p : Packet) : Option VfId :=
  let v? : Option VfId :=
    if p.purlin then some p.destVf
    else (allFin 40).findSome? fun q =>
      if (partOf s q).state = 0 then none
      else ((slotsOf s q).find? fun i =>
        let w3 := epWord (partOf s q) i 3
        decide (bfld (epWord (partOf s q) i 0) 19 16 = 1 ∧ bfld w3 47 36 = p.ri.toNat ∧ bfld w3 23 0 = p.job.toNat)).map
        fun i => Fin.ofNat 128 (epVf (partOf s q) i)
  v?.bind fun v => if (vfOf s v).state = 0 ∨ (vfOf s v).state = 4 then none else some v

/-- MKIND admits the message (R396). -/
def kindAdmits (mkind : Nat) (k : MsgKind) : Bool :=
  match k with
  | .send => decide (mkind = 0 ∨ mkind = 3)
  | .rmaWrite => decide (mkind = 1 ∨ mkind = 3)
  | .rmaRead => decide (mkind = 2 ∨ mkind = 3)
  | .unsupported => false

/-- A one-shot booking holds a bound message (R397). -/
def bookingTaken (s : State) (num : Nat) (b : Booking) : Bool :=
  !bkPersist b.words && s.inbound.any fun m => decide (m.2.booking = num ∧ m.2.arm = b.arm)

/-- The lowest booking that matches a message (R397). Slot 4095 stands for no slot, and no booking names it (R387). -/
def bookingFor (s : State) (v : VfId) (k : MsgKind) (slot : Nat) (tag : Word) : Option (Nat × Booking) :=
  s.bookings.find? fun e =>
    let w := e.2.words
    e.2.armed && decide (e.2.vf = some v) && kindAdmits (bkMkind w) k && (!bkSrcEn w || decide (slot = bkSrc w ∧ slot ≠ 4095)) &&
      decide ((tag ^^^ recw w 1) &&& recw w 2 = 0) && !bookingTaken s e.1 e.2

/-- Bind a message to a booking in binding order (R397, R399). -/
def bindMessage (s : State) (ctx : Option (Nat × Nat × Bool)) (v : VfId) (k : MsgKind) (slot : Nat) (tag : Word)
    (offset total : Nat) (num : Nat) (b : Booking) : InMessage × State :=
  ({ context := ctx, vf := v, booking := num, arm := b.arm, words := b.words, ctr := b.ctr, kind := k, slot := slot,
     tag := tag, order := b.bound, offset := offset, total := total, received := 0, placed := 0, launch := false,
     ext := none, data := [], response := [] },
   { s with bookings := tput s.bookings num { b with bound := b.bound + 1 } })

/-- Where byte 0 of a message lands, from BASE (R399). -/
def landOffset (m : InMessage) : Nat :=
  match m.kind with
  | .send => match bkSlotSel m.words with
    | 1 => m.tag.toNat % 256 * bkStride m.words
    | 2 => m.order * bkStride m.words
    | _ => 0
  | _ => m.offset

/-- How many of `n` bytes at `off` lie within LEN (R399). -/
def landLen (w : List Word) (off n : Nat) : Nat := min n (bkLen w - off)

/-- A tile landing must wait: the tile's task is halted (R118), or a running task of another VF has its window over the
4 KiB blocks of the landing (R399). -/
def landBlocked (T : Tile) (v : VfId) (o n : Nat) : Bool :=
  decide (T.debug = .halted) || match T.task with
  | none => false
  | some k => decide (k.vf ≠ v ∧ n ≠ 0 ∧ o / 4096 * 4096 < k.base + 2 ^ k.log2 ∧ k.base < (o + n - 1) / 4096 * 4096 + 4096)

/-- Land bytes in a tile's scratchpad: blocks of another VF are zeroed first (R129, R399). -/
def landTile (T : Tile) (v : VfId) (o : Nat) (bs : List Byte) : Tile :=
  if bs = [] then T
  else
    let T := retagBlocks T v (o / 4096) ((o + bs.length - 1) / 4096 - o / 4096 + 1)
    { T with spad := mwrite T.spad o bs }

/-- A landing outside a snapshot's cut meets a frame that it has still to save; a message that the cut holds goes on (R371,
R372). -/
def landingUnsaved (s : State) (id : Option Nat) (v : VfId) (ipa n : Nat) : Bool :=
  let xs := s.snapshots.filter fun x => id.all fun i => decide (i ∉ x.msgs)
  writeWaits { s with snapshots := xs } (some v) ipa n

/-- The landing or the serving of `n` bytes at `off` must wait: for another VF's task, for a segment move, or for a snapshot
(R348, R372, R399). `id` is the message's number once it is bound. -/
def landWaits (s : State) (id : Option Nat) (m : InMessage) (off n : Nat) : Bool :=
  let w := m.words
  match bkPlace w with
  | 1 => landBlocked (tileOf s (bkTile w)) m.vf (bkBase w + off) (landLen w off n)
  | 2 => if m.kind = .rmaRead then rangeWaits s m.vf (bkBase w + off) (landLen w off n)
      else landingUnsaved s id m.vf (bkBase w + off) (landLen w off n)
  | _ => false

/-- A landing waits: the frames that it meets unsaved are saved first (R372). -/
def landWants (s : State) (id : Option Nat) (m : InMessage) (off n : Nat) : State :=
  let w := m.words
  let k := landLen w off n
  if bkPlace w = 2 ∧ m.kind ≠ .rmaRead ∧ landingUnsaved s id m.vf (bkBase w + off) k then
    wantWrites s (some m.vf) (bkBase w + off) k
  else s

/-- Place bytes of a message at `off` from BASE (R399). -/
def landBytes (s : State) (m : InMessage) (off : Nat) (bs : List Byte) : State :=
  let w := m.words
  let bs := bs.take (landLen w off bs.length)
  match bkPlace w with
  | 1 => modTile s (bkTile w) fun T => landTile T m.vf (bkBase w + off) bs
  | 2 => ipaWrite s m.vf (bkBase w + off) bs
  | _ => s

/-- A byte of a tile that serves a read for a VF: another VF's block serves 0 (DEDUCED, log 46). -/
def servedByte (T : Tile) (v : VfId) (o : Nat) : Byte := if tfind T.tags (o / 4096) = some v then mget T.spad o else 0

/-- The bytes that serve a read of `n` bytes at `off`, zero beyond LEN and without placement (R399, R403). -/
def serveBytes (s : State) (m : InMessage) (off n : Nat) : List Byte :=
  let w := m.words
  let k := landLen w off n
  let bs := match bkPlace w with
    | 1 => (List.range k).map fun i => servedByte (tileOf s (bkTile w)) m.vf (bkBase w + off + i)
    | 2 => ipaRead s m.vf (bkBase w + off) k
    | _ => []
  (bs ++ List.replicate n 0).take n

/-- A packet's bytes are placed, or its read is served (R399). -/
def takePacket (s : State) (id : Nat) (m : InMessage) (p : Packet) : State :=
  let off := landOffset m + p.position
  if m.kind = .rmaRead then
    { s with inbound := tput s.inbound id { m with response := serveBytes s m off m.total, received := m.total } }
  else
    let bs := if bkPlace m.words = 0 then [] else p.bytes.take (landLen m.words off p.bytes.length)
    let s1 := landBytes s m off p.bytes
    let s2 := if bkPlace m.words = 2 then imageLanding s1 id m.vf (bkBase m.words + off) bs else s1
    let m := { m with received := m.received + p.bytes.length, placed := m.placed + bs.length }
    { s2 with inbound := tput s2.inbound id m }

/-- The delivery context of a packet, as a number: Purlin's apart from Ethernet's. -/
def packetKey (p : Packet) : Nat := 2 * p.context + (if p.purlin then 1 else 0)

/-- The context has accepted the packet's sequence number (R389). -/
def packetSeen (s : State) (p : Packet) : Bool :=
  s.accepted.any fun a => decide (a.1 = packetKey p ∧ a.2.1 = p.seqNo)

/-- The delivery contexts of a partition: 32,768 shared in proportion to CTRSHARE, of 65,536 (R388; DEDUCED,
log 62). -/
def contextShare (s : State) (p : PartId) : Nat := (partOf s p).ctrShare / 2

/-- An Ethernet packet's delivery context, if it is new, takes one of its partition's share; none where the share is used up
(R388). -/
def takeContext (s : State) (p : Packet) (part : PartId) : Option State :=
  if p.purlin ∨ (tfind s.contexts p.context).isSome then some s
  else if (s.contexts.filter fun c => decide (c.2 = part)).length < contextShare s part then
    some { s with contexts := tput s.contexts p.context part }
  else none

/-- A delivery context ends, with its receive state (R389); one with a message still bound stays. -/
def closeContext (s : State) (context : Nat) : State :=
  if s.inbound.any fun m => m.2.context.any (fun c => decide (c.1 = context ∧ c.2.2 = false)) then s
  else { s with contexts := tdel s.contexts context, accepted := s.accepted.filter fun a => decide (a.1 ≠ 2 * context) }

/-- The answer to a packet leaves the device (R388 to R390, log 64). -/
def answerPacket (s : State) (p : Packet) (a : Reply) : State :=
  { s with wire := s.wire ++ [.packet p.context p.seqNo p.purlin a] }

/-- The message that a packet belongs to: the bound one, or one that its first packet binds (R397). -/
def boundMessage (s : State) (v : VfId) (p : Packet) : Option (Option Nat × InMessage × State) :=
  let ctx := (p.context, p.message, p.purlin)
  match s.inbound.find? fun m => decide (m.2.context = some ctx) with
  | some (id, m) => some (some id, m, s)
  | none =>
    let slot := sourceSlot s v p
    (bookingFor s v p.kind slot p.tag).map fun b =>
      let r := bindMessage s (some ctx) v p.kind slot p.tag p.offset p.total b.1 b.2
      (none, r.1, atPlace r.2 (matchPlace p.purlin p.port))

/-- How many bytes of the placement a packet meets: of a read, all that it serves. -/
def packetReach (p : Packet) : Nat := if p.kind = .rmaRead then p.total else p.bytes.length

/-- A packet whose destination VF is READY: its message is bound at its first packet, in the booking unit's order, and it is
accepted unless its landing must wait (R389, R390, R397, R399, R400). -/
def acceptPacket (s : State) (v : VfId) (p : Packet) : State :=
  match takeContext s p (vfOf s v).part, boundMessage s v p with
  | _, none => answerPacket s p .noMatch
  | none, _ => answerPacket s p .retryLater
  | some s0, some (id?, m, _) =>
    if landWaits s id? m (landOffset m + p.position) (packetReach p) then
      answerPacket (landWants s id? m (landOffset m + p.position) (packetReach p)) p .retryLater
    else if id? = none ∧ placePassed s (matchPlace p.purlin p.port) then s
    else match boundMessage s0 v p with
      | none => s
      | some (_, m, s1) =>
        let s2 := { s1 with accepted := (packetKey p, p.seqNo, p.message) :: s1.accepted
                            seq := if id? = none then s1.seq + 1 else s1.seq }
        answerPacket (takePacket s2 (id?.getD s1.seq) m p) p .ack

/-- The destination VF of a packet is FROZEN, or on its way there: it answers nothing but retry later (R414, R416). -/
def packetFrozen (s : State) (p : Packet) : Bool :=
  (packetVf s p).any fun v => decide ((vfOf s v).state = 3) || (vfOf s v).freezeCtr.isSome

/-- A packet arrives at one of the package's 8 ports of its kind (R22, R388 to R390). A repeat changes nothing and is
acknowledged again (DESIGN CHOICE, log 64), but not while its VF is FROZEN (R416). -/
def execPacketArrival (p : Packet) (s : State) : Result :=
  if 8 ≤ p.port ∨ portDown s (if p.purlin then .purlin else .ethernet) p.port then .next s
  else if p.dropped then .next { s with dropped := s.dropped + 1 }
  else if packetSeen s p then .next (answerPacket s p (if packetFrozen s p then .retryLater else .ack))
  else if 4096 < p.bytes.length then .next s
  else if p.kind = .unsupported then .next (answerPacket s p .unsupported)
  else match packetVf s p with
    | none => .next (answerPacket s p .unknownEndpoint)
    | some v => if vfReady s v then .next (acceptPacket s v p) else .next (answerPacket s p .retryLater)

/-! ### Completion of a bound message (R400, R410) -/

/-- The bytes of a launch packet's message, or none after an error completion (R410). -/
def launchBytes (s : State) (m : InMessage) : Option (List Byte) :=
  match m.ext with
  | none => some m.data
  | some a =>
    if bkPlace m.words = 0 then some []
    else if Config.hostError s.freeCtr m.vf.val a.toNat then none
    else some (physRead s (hostBase + a.toNat) m.total)

/-- A launch packet is complete: one fewer waits (R410). -/
def launchOver (s : State) (m : InMessage) : State :=
  if m.launch then modVf s m.vf fun f => { f with launches := f.launches - 1 } else s

/-- The scratchpad counter of SPEN advances by the placed bytes (R400): a write of the VF to its 4 KiB block (R129). -/
def spadCount (s : State) (m : InMessage) (placed : Nat) : State :=
  let w := m.words
  if bkPlace w = 1 ∧ bkSpen w then
    modTile s (bkTile w) fun T =>
      let T := retagBlocks T m.vf (bkSpctr w / 4096) 1
      landTile T m.vf (bkSpctr w) (leBytes 8 (mword T.spad (bkSpctr w) + word placed).toNat)
  else s

/-- The scratchpad counter's block must wait, as a landing does (R118, R399). -/
def countWaits (s : State) (m : InMessage) : Bool :=
  let w := m.words
  decide (bkPlace w = 1) && bkSpen w && landBlocked (tileOf s (bkTile w)) m.vf (bkSpctr w) 8

/-- The counts of a completed message, in the booking unit's order (R400). -/
def countMessage (s : State) (m : InMessage) (placed : Nat) : State :=
  changeCounter (atPlace (spadCount s m placed) (completionPlace m.booking)) m.ctr 1

/-- The bytes of a launch packet are placed, and it counts; after an error completion it does not (R410). -/
def completeLaunch (s : State) (id : Nat) (m : InMessage) : State :=
  let s1 := launchOver { s with inbound := tdel s.inbound id } m
  match launchBytes s m with
  | none => s1
  | some bs =>
    let n := if bkPlace m.words = 0 then 0 else landLen m.words (landOffset m) bs.length
    countMessage (landBytes s1 m (landOffset m) bs) m n

/-- The landing of a launch packet's bytes comes to the segment row of its VF (R348, R349). -/
def launchRow (s : State) (id : Nat) (m : InMessage) : State × Bool :=
  if bkPlace m.words = 2 then
    rowRange s (.landing id) m.vf 0 (bkBase m.words + landOffset m) (landLen m.words (landOffset m) m.total)
  else (s, true)

/-- A bound message completes (R400); a FROZEN VF's completions are held (R414). -/
def execMessageCompletion (id : Nat) (s : State) : Result :=
  match tfind s.inbound id with
  | none => .next s
  | some m =>
    if isFrozen s (some m.vf) ∨ m.received < m.total ∨ landWaits s (some id) m 0 0 ∨ countWaits s m ∨
       placePassed s (completionPlace m.booking) then .next s
    else if m.launch then
      match launchRow s id m with
      | (s, false) => .next s
      | (s, true) =>
        if landWaits s (some id) m (landOffset m) m.total then .next (landWants s (some id) m (landOffset m) m.total)
        else .next (completeLaunch s id m)
    else .next (countMessage { s with inbound := tdel s.inbound id } m m.placed)

/-- An addition through a counter window reaches the booking unit (R394, R400); a FROZEN VF's counters are held (R415). -/
def execCounterIncrement (ctr : CtrId) (by_ : BitVec 64) (s : State) : Result := .next (addCounter s ctr.val by_)

/-! ### Host launches (R410) -/

/-- The bits that R410 sets to 0 are 0. -/
def launchClean (m : Msg) : Bool :=
  decide (bfld m.w0 31 1 = 0) &&
    (!bbit m.w0 0 || decide (bfld m.w3 63 32 = 0 ∧ m.w4 = 0 ∧ m.w5 = 0 ∧ m.w6 = 0 ∧ m.w7 = 0))

/-- The 48 inline bytes of a packet. -/
def launchInline (m : Msg) : List Byte := wordBytes [m.w2, m.w3, m.w4, m.w5, m.w6, m.w7]

/-- HOST_LAUNCH (R381, R410). -/
def launchEvent (v : VfId) (m : Msg) : Event :=
  { summary := summaryWord 4 0 v.val (bfld m.w0 63 32), record := pad16 (msgWords m), launchVf := some v }

/-- An accepted packet is a message from slot 7: it goes to a booking, or else to HOSTTHR (R397, R410). -/
def launchMessage (s : State) (v : VfId) (m : Msg) : State :=
  let ext := bbit m.w0 0
  let total := if ext then bfld m.w3 31 0 else 48
  match bookingFor s v .send 7 m.w1 with
  | none => sendEvent s (Fin.ofNat 1024 (vfOf s v).hostThr) (launchEvent v m)
  | some (num, b) =>
    let r := bindMessage s none v .send 7 m.w1 0 total num b
    let m' := { r.1 with launch := true, ext := if ext then some m.w2 else none, received := total,
                         data := if ext then [] else launchInline m, packet := some m }
    { r.2 with inbound := tput r.2.inbound s.seq m', seq := s.seq + 1 }

/-- A host launch packet (R410): any packet that breaks a condition is ignored. A well-formed one for a VF that is TEARING is
discarded and counted (R122; that no other condition is asked of it is a DESIGN CHOICE, log 67). -/
def execLaunch (vf : VfId) (packet : Msg) (s : State) : Result :=
  let f := vfOf s vf
  let seq : BitVec 32 := BitVec.ofNat 32 (bfld packet.w0 63 32)
  if f.state = 4 then .next (if launchClean packet then setVf s vf { f with discarded := f.discarded + 1 } else s)
  else if launchClean packet ∧ seq = f.lastSeq + 1 ∧ vfReady s vf ∧ f.launches < 256 then
    if placePassed s hostPlace then .next s
    else .next (launchMessage (atPlace (setVf s vf { f with lastSeq := seq, launches := f.launches + 1 }) hostPlace) vf packet)
  else .next s

/-! ### Purlin requests and link states (R405, R406, R412) -/

/-- Write bytes of a VF's segment for an agent at SYSTEM (R313). -/
def systemIpaWrite (s : State) (v : VfId) (ipa : Nat) : List Byte → State
  | [] => s
  | b :: bs => systemIpaWrite (match stage2 s v ipa with
      | .ok pa => physSetBy systemWrite s pa b
      | _ => s) v (ipa + 1) bs

/-- The answer to a Purlin request leaves the device (R406, log 64). -/
def answerPurlin (s : State) (a : Reply) (bs : List Byte) : State := { s with wire := s.wire ++ [.purlin a bs] }

/-- Bytes that a Purlin request reads or writes. -/
def purlinLength (r : PurlinReq) : Nat := if r.write then r.bytes.length else r.length

/-- A Purlin request must wait: for a segment move, or for a snapshot to save a frame that it stores to (R348, R372). -/
def purlinWaits (s : State) (r : PurlinReq) : Bool :=
  if r.write then writeWaits s (some r.vf) r.ipa (purlinLength r) else rangeWaits s r.vf r.ipa (purlinLength r)

/-- A peer's Purlin request: a CREATED or FROZEN VF answers retry later; a READY one serves it where the key is its PURLINKEY
and the access lies in its segment; everything else is refused (R406). -/
def execPurlinRequest (r : PurlinReq) (s : State) : Result :=
  let f := vfOf s r.vf
  if f.state = 1 ∨ f.state = 3 ∨ (f.state = 2 ∧ f.freezeCtr.isSome) then .next (answerPurlin s .retryLater [])
  else if vfReady s r.vf ∧ r.key.toNat = f.purlinKey ∧ r.ipa + purlinLength r ≤ f.segSize then
    if purlinWaits s r then .next (if r.write then wantWrites s (some r.vf) r.ipa (purlinLength r) else s)
    else if r.write then .next (answerPurlin (systemIpaWrite s r.vf r.ipa r.bytes) .ack [])
    else .next (answerPurlin s .ack (ipaRead s r.vf r.ipa r.length))
  else .next (answerPurlin s .refused [])

/-- Codes of port kinds (R381). -/
def kindCode : PortKind → Nat
  | .ethernet => 0
  | .purlin => 1
  | .host => 2
  | .cxl => 3
  | .nvme => 4

/-- How many ports of a kind the package has (R13). -/
def kindPorts : PortKind → Nat
  | .ethernet => 8
  | .purlin => 8
  | .host => 1
  | .cxl => 4
  | .nvme => 8

/-- LINK_STATE of a port (R381). -/
def linkEvent (k : PortKind) (port : Nat) (up : Bool) (w1 w2 vf : Nat) : Event :=
  { summary := summaryWord 8 0 vf (kindCode k * 256 + port)
    record := pad16 [word (kindCode k + port * 2 ^ 8 + (if up then 2 ^ 16 else 0)), word w1, word w2] }

/-- Send an event to the first Steward thread of each partition. -/
def toStewards (s : State) (e : Event) : List PartId → State
  | [] => s
  | p :: ps => toStewards (if (partOf s p).state ≠ 0 then sendEvent s (firstSteward s p) e else s) e ps

/-- A transfer that uses a tier port fails: a fetch by R362, a snapshot by R375, and a copy with status 4 (R412). -/
def failTransfer (s : State) (id : Nat) (x : Drover) : State :=
  match x.kind with
  | .fetch l i => match tfind s.lodging l with
    | some e => failFetch s l e (word (pieceTier e i))
    | none => dropDrover s id
  | .save sc => match s.snapshots.find? fun y => decide (y.scope = sc) with
    | some y => endSnapshot s y true
    | none => dropDrover s id
  | _ => if isFrozen s x.vf then s else endDrover s id x true

/-- A request reads or writes through a CXL port. -/
def transferUses (s : State) (x : Drover) (port : Nat) : Bool :=
  let uses (a : Nat) : Bool := cxlUses s a x.length fun p => decide (p = port)
  match x.kind with
  | .fetch _ _ => decide (x.pool = 0) && uses x.src
  | .save _ => decide (x.pool = 0) && uses x.dst
  | .frame _ => false
  | _ => decide (x.vf = none) && (uses x.src || uses x.dst)

/-- The transfers in flight over a CXL port fail. -/
def failTransfers (s : State) (port : Nat) : List Nat → State
  | [] => s
  | id :: ids => failTransfers (match tfind s.drovers id with
      | none => s
      | some x => if x.unit.isSome && transferUses s x port then failTransfer s id x else s) port ids

/-- A link goes up or down (R405). A CXL port that goes down fails its transfers in flight and stays down until a device
reset (R412). -/
def execLinkStateChange (kind : PortKind) (port : Nat) (up : Bool) (s : State) : Result :=
  if kindPorts kind ≤ port ∨ portDown s kind port = !up ∨ (kind = .cxl ∧ up) then .next s
  else
    let s1 := { s with linksDown := if up then s.linksDown.erase (kind, port) else s.linksDown ++ [(kind, port)]
                       downAt := if kind = .purlin ∧ up = false then tput s.downAt port s.ik else s.downAt }
    let s2 := if kind = .cxl then failTransfers s1 port (s1.drovers.map Prod.fst) else s1
    let e := linkEvent kind port up 0 0 0
    .next (toStewards (sendEvent s2 0 e) e (allFin 40))

/-! ### EVGET, EVDONE and the watchdog (R380, R383, R384) -/

/-- The counts of undelivered records fall as an event is taken (R113, R351, R410). -/
def takenEvent (s : State) (e : Event) : State :=
  let s1 := match e.faultVf with
    | some v => modVf s v fun f => { f with faults := f.faults - 1 }
    | none => s
  let s2 := match e.pagerOf with
    | some p => modPart s1 p fun q => { q with pagerRecords := q.pagerRecords - 1 }
    | none => s1
  match e.launchVf with
  | some v => modVf s2 v fun f => { f with launches := f.launches - 1 }
  | none => s2

/-- Remove the first event; the oldest that waits at its source takes the space (R382). -/
def popEvent (h : Thread) : Thread :=
  { h with queue := h.queue.tail ++ h.waiting.take 1, waiting := h.waiting.drop 1 }

/-- A Guest thread of a VF that is FROZEN or being frozen, or of no VF, is given no event (R93, R382, R414). -/
def eventsHeld (s : State) (n : ThreadId) : Bool :=
  decide ((thrOf s n).home = 0) && (match vfOfThread s n with
    | none => true
    | some v => decide ((vfOf s v).state = 3) || (vfOf s v).freezeCtr.isSome)

/-- EVGET takes an event (R383): the thread observes the entries of the publishes that made it (R281, R317). -/
def deliver (s : State) (n : ThreadId) (d : XReg) (e : Event) : Result :=
  let s1 := observeThread (takenEvent (modThr s n popEvent) e) n e.marks
  let s2 := modThr s1 n fun h =>
    { storePutWords h 0 e.record with
      wait := .none, handler := some e, evgetPc := some h.pc, evgetReg := d, watchdog := 0, startCycle := s.ik }
  wr s2 d e.summary

/-- A thread parks in the EVGET at its pc: a kill leaves it there (R116, R383). -/
def parkAtEvget (s : State) (n : ThreadId) (d : XReg) : State :=
  modThr s n fun h => { h with wait := .evget d, watchdog := 0, evgetPc := some h.pc, evgetReg := d }

/-- EVGET (R383): it ends an active handler, and parks while no event can be taken. -/
def execEvget (d : XReg) (s : State) : Result :=
  onThread s (.evget d) fun n =>
    let s1 := if (thrOf s n).handler.isSome then endHandler s n else s
    match (thrOf s1 n).queue with
    | e :: _ => if eventsHeld s1 n then .next (parkAtEvget s1 n d) else deliver s1 n d e
    | [] => .next (parkAtEvget s1 n d)

/-- EVDONE (R384). -/
def execEvdone (s : State) : Result :=
  onThread s .evdone fun n => done4 (if (thrOf s n).handler.isSome then endHandler s n else s)

/-- A thread that has run 5000 ticks since its last EVGET is killed (R380, R116). -/
def execWatchdog (th : ThreadId) (s : State) : Result :=
  let h := thrOf s th
  let parked : Bool := match h.wait with
    | .evget _ => true
    | _ => false
  if 5000 ≤ h.watchdog ∧ parked = false ∧ h.heldAccess = false ∧ h.held = false then
    .next (killThread s th 0 causeWatchdog h.pc (word (s.ik - h.startCycle)))
  else .next s

end Sys2Proof.Machine
end

