-- ==== Sys2Proof/Machine/Space.lean ====
section
/-! DEFINITION. The Innkeeper configuration space, and global memory as threads reach it (05 R158; 12 R341, R368, R369;
13 R379, R385, R386; 14 R426, R429). -/

namespace Sys2Proof.Machine

/-! ### Measurement and release (R379, R426) -/

/-- MR := SM3(MR || d) (R426). -/
def extendMr (mr d : BitVec 256) : BitVec 256 := sm3 (leBytes 32 mr.toNat ++ leBytes 32 d.toNat)

/-- The threads of a partition, ascending. -/
def threadsOf (q : Partition) : List ThreadId :=
  (allFin 1024).filter fun n => decide (q.thrFirst ≤ n.val ∧ n.val < q.thrFirst + q.thrCount)

/-- Every thread of the partition is held (R379). -/
def threadsHeld (s : State) (p : PartId) : Bool := (threadsOf (partOf s p)).all fun n => (thrOf s n).held

/-- Release threads: each begins at offset 0 of the code region (R379). -/
def releaseThreads (s : State) : List ThreadId → State
  | [] => s
  | n :: ns => releaseThreads (modThr s n fun h => startThread h n s.ik) ns

/-! ### Registers by address (R341, R368, R369, R385, R429) -/

/-- A word of the configuration space. -/
inductive CfgReg where
  | scrub (w : Nat)
  | tier (p : PartId) (w : Nat)
  | stat (p : PartId) (w : Nat)
  | code (p : PartId) (w : Nat)
  | vf (v : VfId) (w : Nat)
  | slot (p : PartId) (n w : Nat)
  | none
  deriving DecidableEq, Repr

/-- The word at an address of the configuration space. -/
def cfgReg (a : Nat) : CfgReg :=
  let o := a - configBase
  let w := o / 8
  if 0x800 ≤ o ∧ o < 0x810 then .scrub (w % 2)
  else if 0x1000 ≤ o ∧ o < 0x1000 + 32 * 40 then .tier (Fin.ofNat 40 ((o - 0x1000) / 32)) (w % 4)
  else if 0x2000 ≤ o ∧ o < 0x2000 + 64 * 40 then .stat (Fin.ofNat 40 ((o - 0x2000) / 64)) (w % 8)
  else if 0x3000 ≤ o ∧ o < 0x3000 + 32 * 40 then .code (Fin.ofNat 40 ((o - 0x3000) / 32)) (w % 4)
  else if 0x4000 ≤ o ∧ o < 0x4000 + 32 * 128 then .vf (Fin.ofNat 128 ((o - 0x4000) / 32)) (w % 4)
  else if 0x600000 ≤ o ∧ o < 0x600000 + 0x20000 * 40 then
    .slot (Fin.ofNat 40 ((o - 0x600000) / 0x20000)) ((o - 0x600000) % 0x20000 / 32) (w % 4)
  else .none

/-- The frame whose owner tag lies at an address (R341). -/
def tagFrame (a : Nat) : Option Nat :=
  let o := a - configBase
  if 0x10000 ≤ o ∧ o < 0x10000 + (hbmEnd + frameSize - 1) / frameSize then some (o - 0x10000) else none

/-- The partition whose Steward level the thread stands at; none for the Keeper level. -/
def stewardAt (s : State) (n : ThreadId) : Option PartId := if levelOf s n = 1 then partOfThread s n else none

/-- The thread may read or write for partition `p`: as its Steward, or at the Keeper level. -/
def reachesPart (s : State) (n : ThreadId) (p : PartId) : Bool := decide (2 ≤ levelOf s n ∨ stewardAt s n = some p)

/-- The value of a configuration word. -/
def cfgRead (s : State) : CfgReg → Word
  | .scrub 0 => s.scrubFixed
  | .scrub _ => s.scrubLost
  | .tier p 0 => word (partOf s p).tierBase
  | .tier p 1 => word (partOf s p).tierSize
  | .tier p 2 => (partOf s p).tierPorts.setWidth 64
  | .tier _ _ => 0
  | .stat p w => vget (partOf s p).stats (Fin.ofNat 8 w)
  | .code p 0 => word (partOf s p).codeBase
  | .code p 1 => word (partOf s p).codeSize
  | .code p 2 => word (partOf s p).grpBase
  | .code _ _ => 0
  | .vf v 0 => word ((vfOf s v).cCount * 2 ^ 32 + (vfOf s v).cFirst)
  | .vf v 1 => word ((vfOf s v).winIpa + (if (vfOf s v).winEn then 1 else 0))
  | .vf v 2 => word ((vfOf s v).bCount * 2 ^ 32 + (vfOf s v).bFirst)
  | .vf v _ => word ((vfOf s v).purlinKey * 2 ^ 32 + (vfOf s v).hostThr)
  | .slot p n w => if 8 ≤ n ∧ n ≤ 4094 then epWord (partOf s p) n w else 0
  | .none => 0

/-- The thread may read the word: the Keeper every one, a Steward those of its partition (log 31). -/
def cfgReadable (s : State) (n : ThreadId) : CfgReg → Bool
  | .scrub _ => decide (2 ≤ levelOf s n)
  | .tier p _ => reachesPart s n p
  | .stat p _ => reachesPart s n p
  | .code p _ => reachesPart s n p
  | .vf v _ => decide (2 ≤ levelOf s n) || decide (partOfVf s v = stewardAt s n ∧ (stewardAt s n).isSome)
  | .slot p _ _ => reachesPart s n p
  | .none => false

/-! ### Writes -/

/-- Two ranges of numbers have a number in common; an empty range has none with any. -/
def overlaps (a n b m : Nat) : Bool := decide (0 < n ∧ 0 < m ∧ a < b + m ∧ b < a + n)

/-- The range lies inside the carve-out (R385). -/
def inCarve (q : Partition) (a n : Nat) : Bool := decide (q.carveBase ≤ a ∧ a + n ≤ q.carveBase + q.carveSize)

/-- The tier window of a partition (R369). -/
def writeTier (s : State) (p : PartId) (w : Nat) (x : Word) : Option State :=
  let two := 2 ^ 21
  match w with
  | 0 => if x.toNat % two = 0 then some (modPart s p fun q => { q with tierBase := x.toNat }) else none
  | 1 => if x.toNat % two = 0 then some (modPart s p fun q => { q with tierSize := x.toNat }) else none
  | 2 => some (modPart s p fun q => { q with tierPorts := x.setWidth 8 })
  | _ => some s

/-- CODESIZE: MR3 is extended, and a nonzero value releases the threads (R379, R385, R426). -/
def writeCodeSize (s : State) (p : PartId) (x : Word) : Option State :=
  let q := partOf s p
  let n := bfld x 24 0
  if threadsHeld s p ∧ q.state ≠ 0 ∧ n % 2 ^ 16 = 0 ∧ n ≤ 2 ^ 24 ∧ inCarve q q.codeBase n then
    let mr := extendMr q.mr3 (sm3 (physRead s q.codeBase n))
    let s1 := setPart s p { q with codeSize := n, mr3 := mr }
    some (if n = 0 then s1 else releaseThreads s1 (threadsOf q))
  else none

/-- CODEBASE (R385). -/
def writeCodeBase (s : State) (p : PartId) (x : Word) : Option State :=
  let q := partOf s p
  let b := bfld x 47 16 * 2 ^ 16
  if threadsHeld s p ∧ q.state ≠ 0 ∧ inCarve q b 0 ∧ b < q.carveBase + q.carveSize then
    some (setPart s p { q with codeBase := b })
  else none

/-- GRPBASE (R385). -/
def writeGrpBase (s : State) (p : PartId) (x : Word) : Option State :=
  let q := partOf s p
  let b := bfld x 47 17 * 2 ^ 17
  if inCarve q b (2 ^ 17) then some (setPart s p { q with grpBase := b }) else none

/-- A range of counters or bookings overlaps another VF's (R385). -/
def rangeFree (s : State) (p : PartId) (v : VfId) (get : Vf → Nat × Nat) (a n : Nat) : Bool :=
  (vfsOf s p).all fun o => decide (o = v) || !overlaps a n (get (vfOf s o)).1 (get (vfOf s o)).2

/-- A VF's words (R385). -/
def writeVfWord (s : State) (p : PartId) (v : VfId) (w : Nat) (x : Word) : Option State :=
  let f := vfOf s v
  let q := partOf s p
  let created := decide (f.state = 1)
  match w with
  | 0 =>
    let a := bfld x 16 0
    let n := bfld x 48 32
    if created ∧ a + n ≤ q.ctrShare ∧ rangeFree s p v (fun g => (g.cFirst, g.cCount)) a n then
      some (setVf s v { f with cFirst := a, cCount := n }) else none
  | 1 =>
    let b := bfld x 47 16 * 2 ^ 16
    if created ∧ b + 8 * f.cCount ≤ f.segSize then some (setVf s v { f with winIpa := b, winEn := bbit x 0 }) else none
  | 2 =>
    let a := bfld x 16 0
    let n := bfld x 48 32
    if created ∧ a + n ≤ q.bkShare ∧ rangeFree s p v (fun g => (g.bFirst, g.bCount)) a n then
      some (setVf s v { f with bFirst := a, bCount := n }) else none
  | _ =>
    if f.state ≠ 0 ∧ ownsThread f (bfld x 9 0) then
      some (setVf s v { f with purlinKey := bfld x 63 32, hostThr := bfld x 9 0 }) else none

/-- An endpoint word after a write: in w0, GEN advances when V or KIND changes (R386). -/
def slotWord (old : Word) (w : Nat) (x : Word) : Word :=
  let y := x &&& slotMask w
  if w = 0 then
    let g := bfld old 63 32
    let g' := if bbit old 31 = bbit y 31 ∧ bfld old 19 16 = bfld y 19 16 then g else g + 1
    word (g' % 2 ^ 32 * 2 ^ 32) ||| y
  else y

/-- An endpoint slot of a partition (R385, R386). -/
def writeSlot (s : State) (p : PartId) (n w : Nat) (x : Word) : Option State :=
  if 8 ≤ n ∧ n ≤ 4094 then
    some (modPart s p fun q =>
      { q with endpoints := tset 0 q.endpoints (4 * n + w) (slotWord (epWord q n w) w x) })
  else none

/-- A write of a configuration word by a thread; none raises SEGMENT_BOUND (R385). -/
def cfgWrite (s : State) (n : ThreadId) (r : CfgReg) (x : Word) : Option State :=
  let keeper := decide (2 ≤ levelOf s n)
  match r with
  | .tier p w => if keeper then writeTier s p w x else none
  | .stat p w =>
    if keeper then some (modPart s p fun q => { q with stats := vset q.stats (Fin.ofNat 8 w) x }) else none
  | .code p 0 => if keeper then writeCodeBase s p x else none
  | .code p 1 => if keeper then writeCodeSize s p x else none
  | .code p 2 => if stewardAt s n = some p then writeGrpBase s p x else none
  | .code p _ => if reachesPart s n p then some s else none
  | .vf v w => match stewardAt s n with
    | some p => if partOfVf s v = some p then writeVfWord s p v w x else none
    | none => none
  | .slot p i w => if stewardAt s n = some p then writeSlot s p i w x else none
  | .scrub _ => none
  | .none => none

/-! ### Owner tags (R341) -/

/-- The thread may reach the tag of a frame. -/
def tagReachable (s : State) (n : ThreadId) (f : Nat) : Bool :=
  match stewardAt s n with
  | some p =>
    let q := partOf s p
    decide (q.loanBase ≤ f * frameSize ∧ (f + 1) * frameSize ≤ q.loanBase + q.loanSize)
  | none => decide (2 ≤ levelOf s n)

/-- The tag would give a VF more than FRBURST loan frames. -/
def tagOver (s : State) (f : Nat) (tag : BitVec 8) : Bool :=
  let old := tget 0 s.owners f
  decide (tag ≠ 0 ∧ tag ≠ old ∧ tag.toNat ≤ 128 ∧
    (vfOf s (Fin.ofNat 128 (tag.toNat - 1))).frBurst < loanHeld s (Fin.ofNat 128 (tag.toNat - 1)) + 1)

/-- The partition in whose loan pool a frame lies. -/
def partOfFrame (s : State) (f : Nat) : Option PartId :=
  (allFin 40).find? fun p =>
    let q := partOf s p
    decide (q.state ≠ 0 ∧ q.loanBase ≤ f * frameSize ∧ f * frameSize < q.loanBase + q.loanSize)

/-- A write of a frame's tag; none raises SEGMENT_BOUND. A change between VFs starts a zeroing. -/
def writeTag (s : State) (n : ThreadId) (f : Nat) (tag : BitVec 8) : Option State :=
  let old := tget 0 s.owners f
  if tagReachable s n f = false ∨ tagOver s f tag = true then none
  else
    let s1 := { s with owners := tset 0 s.owners f tag }
    if old ≠ 0 ∧ tag ≠ 0 ∧ old ≠ tag then
      some (addDrover { s1 with zeroing := f :: s1.zeroing }
        { kind := .frame f, part := partOfFrame s f, pool := 0, unit := none, pos := 0, vf := none, src := 0,
          dst := f * frameSize, length := frameSize, done := none, notify := none })
    else some s1

/-! ### Accesses of a thread (R158) -/

/-- Read `n` bytes at a physical address as a thread does: tags one byte at a time, configuration words whole. -/
def spaceRead (s : State) (th : ThreadId) (a n : Nat) : Option Nat :=
  if inConfig a then
    match tagFrame a with
    | some f => if n = 1 ∧ tagReachable s th f then some (tget 0 s.owners f).toNat else none
    | none =>
      let r := cfgReg a
      if cfgReadable s th r then some ((cfgRead s r).toNat / 2 ^ (8 * (a % 8)) % 2 ^ (8 * n)) else none
  else some (leNat (physRead s a n))

/-- The 64-bit word after `n` bytes at offset `o` are replaced. -/
def patchWord (old : Word) (o n v : Nat) : Word :=
  let m := word ((2 ^ (8 * n) - 1) * 2 ^ (8 * o))
  (old &&& ~~~m) ||| (word (v * 2 ^ (8 * o)) &&& m)

/-- Write `n` bytes at a physical address as a thread does; none raises SEGMENT_BOUND. -/
def spaceWrite (s : State) (th : ThreadId) (a n v : Nat) : Option State :=
  if inConfig a then
    match tagFrame a with
    | some f => if n = 1 then writeTag s th f (BitVec.ofNat 8 v) else none
    | none => cfgWrite s th (cfgReg a) (patchWord (cfgRead s (cfgReg a)) (a % 8) n v)
  else some (physWrite s a (leBytes n v))

/-- An endpoint slot of a FROZEN VF is held unchanged: a write of it waits (R415, DEDUCED, log 71). -/
def slotHeld (s : State) (a : Nat) : Bool :=
  inConfig a && match cfgReg a with
  | .slot p i _ =>
    let v : VfId := Fin.ofNat 128 (epVf (partOf s p) i)
    epValid (partOf s p) i && decide ((vfOf s v).part = p ∧ (vfOf s v).state = 3)
  | _ => false

/-- A global access of a thread: aligned, translated, and then done at its physical address (R158). One that reads a
granule that ECC cannot correct raises ECC_UNCORRECTABLE (R428). -/
def globalAccess (s : State) (i : Instr) (a : Word) (n : Nat) (r : Right) (reads : Bool)
    (f : ThreadId → State → Nat → Result) : Result :=
  onThread s i fun th =>
    if a.toNat % n ≠ 0 then raise s causeMisaligned a
    else match threadXlat s th a.toNat r with
      | (s1, .ok pa) => match (if reads then badIn s1 pa n else none) with
        | some bad => raise s1 causeEcc (word bad)
        | none =>
          if r = .write ∧ slotHeld s1 pa then .next s1
          else f th (modThr s1 th fun h => { h with heldAccess := false }) pa
      | (s1, .wait) => holdAccess s1 th
      | (s1, .ecc b) => raise s1 causeEcc (word b)
      | (s1, .fault c) => raise s1 c a

/-- LD (R158). -/
def loadGlobal (s : State) (i : Instr) (d a : XReg) (o : BitVec 13) (n : Nat) (signed : Bool) : Result :=
  let va := rx s a + sx o
  globalAccess s i va n .read true fun th s pa => match spaceRead s th pa n with
    | none => raise s causeSegment va
    | some v => wr (observeThread s th (marksAt s pa)) d (if signed then sextBytes n v else word v)

/-- ST (R158). -/
def storeGlobal (s : State) (i : Instr) (r a : XReg) (o : BitVec 13) (n : Nat) : Result :=
  let va := rx s a + sx o
  globalAccess s i va n .write false fun th s pa =>
    match spaceWrite (carryThread s th) th pa n ((rx s r).toNat % 2 ^ (8 * n)) with
    | none => raise s causeSegment va
    | some s1 => done4 s1

def execLdB (d a : XReg) (i : BitVec 13) (s : State) : Result := loadGlobal s (.ldB d a i) d a i 1 true
def execLdBu (d a : XReg) (i : BitVec 13) (s : State) : Result := loadGlobal s (.ldBu d a i) d a i 1 false
def execLdH (d a : XReg) (i : BitVec 13) (s : State) : Result := loadGlobal s (.ldH d a i) d a i 2 true
def execLdHu (d a : XReg) (i : BitVec 13) (s : State) : Result := loadGlobal s (.ldHu d a i) d a i 2 false
def execLdW (d a : XReg) (i : BitVec 13) (s : State) : Result := loadGlobal s (.ldW d a i) d a i 4 true
def execLdWu (d a : XReg) (i : BitVec 13) (s : State) : Result := loadGlobal s (.ldWu d a i) d a i 4 false
def execLdD (d a : XReg) (i : BitVec 13) (s : State) : Result := loadGlobal s (.ldD d a i) d a i 8 false
def execStB (r a : XReg) (i : BitVec 13) (s : State) : Result := storeGlobal s (.stB r a i) r a i 1
def execStH (r a : XReg) (i : BitVec 13) (s : State) : Result := storeGlobal s (.stH r a i) r a i 2
def execStW (r a : XReg) (i : BitVec 13) (s : State) : Result := storeGlobal s (.stW r a i) r a i 4
def execStD (r a : XReg) (i : BitVec 13) (s : State) : Result := storeGlobal s (.stD r a i) r a i 8

/-- An addition to the counter behind a window waits while its VF is FROZEN (R394, R415). -/
def ctrHeld (s : State) (c : Nat) : Bool := isFrozen s (vfOfCtr s c)

/-- An atomic of a thread acquires as an LD does and carries as an ST does (R317, R320). -/
def atomicSeen (s : State) (th : ThreadId) (pa : Nat) : State := carryThread (observeThread s th (marksAt s pa)) th

/-- An atomic at a physical address: the new value is stored where `write` is set. In a counter window an addition of
8 bytes counts, and any other atomic is ignored (R394). -/
def atomicAt (s : State) (th : ThreadId) (d : XReg) (va : Word) (pa n old new : Nat) (add write : Bool) : Result :=
  match windowCtr s pa with
  | some (c, _) =>
    if add ∧ n = 8 then
      if ctrHeld s c then .next s else wr (addCounter (atomicSeen s th pa) c (word (new + 2 ^ 64 - old))) d (word old)
    else wr (atomicSeen s th pa) d (sextBytes n old)
  | none =>
    if write then match spaceWrite (atomicSeen s th pa) th pa n new with
      | none => raise s causeSegment va
      | some s1 => wr s1 d (sextBytes n old)
    else wr (atomicSeen s th pa) d (sextBytes n old)

/-- AMO (R156, R158). -/
def execAmo (d a b : XReg) (z : Fin 4) (o : Fin 32) (s : State) : Result :=
  let i : Instr := .amo d a b z o
  let n := atomicBytes z
  let va := rx s a
  checked s i (globalAccess s i va n .write true fun th s pa => match spaceRead s th pa n with
    | none => raise s causeSegment va
    | some old => atomicAt s th d va pa n old (atomicOp n o old (rx s b).toNat) (decide (o.val = 0)) true)

/-- CAS (R156, R158). -/
def execCas (d a b : XReg) (z : Fin 4) (s : State) : Result :=
  let i : Instr := .cas d a b z
  let n := atomicBytes z
  let va := rx s a
  checked s i (globalAccess s i va n .write true fun th s pa => match spaceRead s th pa n with
    | none => raise s causeSegment va
    | some old =>
      atomicAt s th d va pa n old ((rx s b).toNat % 2 ^ (8 * n)) false (decide (old = (rx s d).toNat % 2 ^ (8 * n))))

/-! ### Writes as steps of their own -/

/-- CODESIZE (R379). -/
def execCodesize (th : ThreadId) (p : PartId) (value : BitVec 64) (s : State) : Result :=
  .next ((cfgWrite s th (.code p 1) value).getD s)

/-- An owner tag (R341). -/
def execOwnerTag (th : ThreadId) (frame : Nat) (tag : BitVec 8) (s : State) : Result :=
  if frame < (hbmEnd + frameSize - 1) / frameSize then .next ((writeTag s th frame tag).getD s) else .next s

/-- An endpoint slot word (R386). -/
def execEndpointSlot (th : ThreadId) (p : PartId) (slot : Nat) (word : Fin 4) (value : BitVec 64) (s : State) : Result :=
  let held := epValid (partOf s p) slot && decide ((vfOf s (Fin.ofNat 128 (epVf (partOf s p) slot))).state = 3)
  .next (if held then s else (cfgWrite s th (.slot p slot word.val) value).getD s)

end Sys2Proof.Machine
end

