-- ==== Sys2Proof/Machine/Publish.lean ====
section
/-! DEFINITION. Publishes: how they begin, how their stores and effects reach memory and the members of address groups,
and what follows (05 R137 to R139; 11 R313 to R316; 13 R406 to R408). -/

namespace Sys2Proof.Machine

/-! ### Members of address groups (R406, R407) -/

/-- Member record `m` of an entry, if it is valid (R407). -/
def memberAt (s : State) (p : PartId) (entry m : Nat) : Option Member :=
  let a := (partOf s p).grpBase + 512 * entry + 16 * m
  let w0 := word (leNat (physRead s a 8))
  let w1 := word (leNat (physRead s (a + 8) 8))
  if bbit w0 63 then
    some { m := m, base := bfld w0 47 0, key := bfld w1 63 32, rvf := bfld w1 18 12, dev := bfld w1 11 0,
           bad := decide (bfld w0 62 48 ≠ 0 ∨ bfld w1 31 19 ≠ 0) }
  else none

/-- The first byte of an entry of the group table that ECC cannot correct (R428). -/
def entryBad (s : State) (p : PartId) (entry : Nat) : Option Nat := badIn s ((partOf s p).grpBase + 512 * entry) 512

/-- The members of an entry, in ascending order. -/
def membersOf (s : State) (p : PartId) (entry : Nat) : List Member := (List.range 32).filterMap (memberAt s p entry)

/-- How a member answers (R406). -/
inductive Answer where
  | serves | later | absent | held
  deriving DecidableEq, Repr

/-- A VF of this device answers. -/
def ownAnswer (s : State) (rvf key addr len : Nat) : Answer :=
  let f := vfOf s (Fin.ofNat 128 rvf)
  if f.state = 1 ∨ f.state = 3 then .later
  else if f.state = 2 ∧ key = f.purlinKey ∧ addr + len ≤ f.segSize then (if f.segHeld then .held else .serves)
  else .absent

/-- The answer to an access of `len` bytes; a peer's is the world's. -/
def answerOf (s : State) (dev rvf key addr len : Nat) : Answer :=
  if dev = s.purlinId then ownAnswer s rvf key addr len
  else if routePorts s dev = [] then .absent
  else match Config.peerAnswer s.freeCtr dev rvf key addr len with
    | 0 => .serves
    | 1 => .later
    | _ => .absent

/-- A peer's byte in the table of what this device has stored there. -/
def peerAddr (dev rvf ipa : Nat) : Nat := dev * 2 ^ 72 + rvf * 2 ^ 64 + ipa

/-- A byte of a member that serves, as a tile's task reads it, its own earlier stores over it (R233, R260). -/
def memberByte (s : State) (t : TileId) (dev rvf a : Nat) : Byte :=
  ownByteAt s t dev rvf a (if dev = s.purlinId then seenByte s t ((vfOf s (Fin.ofNat 128 rvf)).segBase + a)
    else Config.peerByte s.freeCtr (peerAddr dev rvf a))

/-- Lay the halves that a store covers over a byte of physical memory (R253). -/
def physMerge (o : Over) (s : State) (pa : Nat) (b : StoreByte) : State := physSetBy o s pa (mergeByte (physByte s pa) b)

/-! ### Beginning a publish (R137 to R139, R315) -/

/-- A publish as acquires see it. -/
def Publish.asOver (p : Publish) (t : TileId) : Over :=
  { issuer := some (t, p.gang), num := p.num, scope := p.scope, rank := p.rank }

/-- The mark that its effect-list entries leave with those who observe them (R316). -/
def publishMark (p : Publish) (t : TileId) : Mark := { tile := t, gang := p.gang, num := p.num, rank := p.rank }

/-- The task's buffered effects leave as one publish; a put, a send or a count in it makes the region irrevocable. -/
def beginPublish (s : State) (t : TileId) (k : Task) (why : PublishFor) (sc : Fin 4) : State :=
  let T := tileOf s t
  let p : Publish := { why := why, num := T.pubs, vf := k.vf, gang := k.gang, rank := k.rank, runs := (gangOf s k.gang).elim 0 Gang.runs, scope := sc,
                       stores := T.stores, effects := T.effects }
  let k' := { k with irrevocable := k.irrevocable || decide (T.effects ≠ []) }
  setTile (carry s t (p.asOver t)) t
    { T with publishes := T.publishes ++ [p], pubs := T.pubs + 1, stores := [], effects := [], task := some k' }

/-! ### Stores reach memory (R314, R315, R408) -/

/-- The last byte of a granule that its stores cover. -/
def lastOff (g : Granule) : Nat := g.bytes.foldl (fun m b => max m b.off) 0

/-- The physical address of a granule on this device, where stage 2 gives one. -/
def granulePlace (s : State) (v : VfId) (g : Granule) : Option Nat :=
  match granuleVf s v g.dest with
  | none => none
  | some w => match stage2 s w g.addr with
    | .ok pa => some pa
    | _ => none

/-- A granule of a publish meets a frame that a snapshot has still to save, and the publish is not of the cut (R372). -/
def publishUnsaved (s : State) (t : TileId) (num pa : Nat) : Bool :=
  unsaved { s with snapshots := s.snapshots.filter fun x => decide ((t, num) ∉ x.pubs) } pa 64

/-- What a granule's stores meet: `held` covers a segment that is held. -/
def granuleAnswer (s : State) (v : VfId) (g : Granule) : Answer :=
  match g.dest with
  | .ipa => if g.bytes.any fun b => decide (stage2 s v (g.addr + b.off) = .wait) then .held else .serves
  | .member _ _ dev rvf key => answerOf s dev rvf key g.addr (lastOff g + 1)

/-- The cut of a snapshot holds a publish (R371). -/
def cutHolds (o : Over) (x : Snapshot) : Bool := o.issuer.any fun i => x.pubs.contains (i.1, o.num)

/-- Lay the halves that a store covers over a byte of physical memory, and of the images whose cut holds it (R253, R371). -/
def mergeAt (o : Over) (s : State) (pa : Nat) (b : StoreByte) : State :=
  imageSet (physMerge o s pa b) (cutHolds o) pa fun old => mergeByte old b

/-- Store a byte to a member that serves. -/
def memberStore (s : State) (o : Over) (dev rvf a : Nat) (b : StoreByte) : State :=
  if dev = s.purlinId then mergeAt o s ((vfOf s (Fin.ofNat 128 rvf)).segBase + a) b
  else { s with peers := mset s.peers (peerAddr dev rvf a) b.val }

/-- Apply one byte; a place that stage 2 refuses takes nothing. -/
def storeByte (s : State) (o : Over) (v : VfId) (g : Granule) (b : StoreByte) : State :=
  match g.dest with
  | .ipa => match stage2 s v (g.addr + b.off) with
    | .ok pa => mergeAt o s pa b
    | _ => s
  | .member _ _ dev rvf _ => memberStore s o dev rvf (g.addr + b.off) b

/-- Apply a granule as one write. -/
def storeGranule (s : State) (o : Over) (v : VfId) (g : Granule) : State := g.bytes.foldl (fun s b => storeByte s o v g b) s

/-- Apply the stores that are served; the others are lost with their members. -/
def storeAll (s : State) (o : Over) (v : VfId) (answer : Granule → Answer) : List Granule → State
  | [] => s
  | g :: gs => storeAll (if answer g = .serves then storeGranule s o v g else s) o v answer gs

/-- A read in progress of the same task keeps the bytes that it has stored, which its publish takes out of the buffer
(R233, R319). -/
def noteReads (s : State) (t : TileId) (p : Publish) (gs : List Granule) : State :=
  if (tileOf s t).task.map Task.gang = some p.gang then
    let lay (r : Nat × List Byte) : Nat × List Byte := gs.foldl (fun r g =>
      if granulePlace s p.vf g = some r.1 then
        (r.1, g.bytes.foldl (fun bs b => bs.set b.off (mergeByte (bs.getD b.off 0) b)) r.2)
      else r) r
    modTile s t fun T => { T with cmdsA := T.cmdsA.map fun c => { c with reads := c.reads.map lay } }
  else s

/-- Of some ports, the one that went down last, the lowest-numbered of several (R408). -/
def lastDown (s : State) : List Nat → Option Nat
  | [] => none
  | i :: is => match lastDown s is with
    | none => some i
    | some j => if tget 0 s.downAt i < tget 0 s.downAt j then some j else some i

/-- The port that LINK_STATE names for a lost member: with every port of its route down, the one whose loss removed the last
route; for a refusal the one that carried the request, which the manual leaves to the device (R408, log 7). -/
def lostVia (s : State) (m dev : Nat) : Nat :=
  let route := (List.range 8).filter fun i => (tget 0 s.routes dev).getLsbD i
  match routePorts s dev, lastDown s route with
  | [], some i => i
  | up, _ =>
    let ports := if up = [] then List.range 8 else up
    ports.getD (Config.lostPort s.freeCtr m % ports.length) 0

/-- A lost member: its entry, its index and the port that LINK_STATE names. -/
def lostMember (s : State) (g : Granule) : Option (Nat × Nat × Nat) :=
  match g.dest with
  | .ipa => none
  | .member entry m dev _ _ => some (entry, m, lostVia s m dev)

/-- One LINK_STATE for each entry and port, with the mask of the members lost through it (R408). -/
def lostEvents (s : State) (v : VfId) (ls : List (Nat × Nat × Nat)) : State :=
  let keys := (ls.map fun l => (l.1, l.2.2)).dedup
  keys.foldl (fun s k =>
    let ms := (ls.filterMap fun l => if l.1 = k.1 ∧ l.2.2 = k.2 then some l.2.1 else none).dedup
    sendEvent s (Fin.ofNat 1024 (vfOf s v).faultThr)
      (linkEvent .purlin k.2 false k.1 (ms.map (fun m => 2 ^ m)).sum v.val)) s

/-! ### Effects (R316) -/

/-- An increment must wait: its address is held, or lies in a frame that a snapshot has still to save (R348, R372). -/
def effectHeld (s : State) (t : TileId) (num : Nat) : Effect → Bool
  | .incr v ipa _ => match stage2 s v ipa with
    | .wait => true
    | .ok pa => publishUnsaved s t num (pa / 64 * 64)
    | _ => false
  | _ => false

/-- Add to the word at a physical address: through a counter window to the counter itself (R325, R394). -/
def addAt (s : State) (pa : Nat) (w : Word) : State :=
  match windowCtr s pa with
  | some (c, _) => addCounter s c w
  | none => physWrite s pa (leBytes 8 (word (leNat (physRead s pa 8)) + w).toNat)

/-- An increment of the cut reaches the images whose cut holds it: the word as the image has it, and what is added (R371). -/
def imageIncr (s : State) (t : TileId) (num pa : Nat) (w : Word) : State :=
  (s.snapshots.filter fun x => x.cut && x.pubs.contains (t, num)).foldl (fun s x =>
    let bs := leBytes 8 (mword x.image pa + w).toNat
    ((List.range 8).zip bs).foldl (fun s b =>
      match s.snapshots.find? fun y => decide (y.scope = x.scope) with
      | some y => imageByte s y (pa + b.1) b.2
      | none => s) s) s

/-- Apply an effect list in order. Who observes an entry observes the publish (R316). -/
def applyEffects (s : State) (t : TileId) (m : Mark) : List Effect → State
  | [] => s
  | .put p :: es => applyEffects (arrive s 1 t.val (.put { p with marks := [m] })) t m es
  | .send x :: es => applyEffects (acceptSend (observeDevice s [m]) x) t m es
  | .incr v ipa w :: es =>
    applyEffects (match stage2 s v ipa with
      | .ok pa => imageIncr (addAt (markAt s pa m) pa w) t m.num pa w
      | _ => s) t m es

/-! ### The end of a publish -/

/-- What the task that published goes on to. After PHASE a new phase begins with an acquire at the scope; after BAR.P it
begins with the end of the barrier, and after CKPT, which does its step 2, with the gang's commit (R142, R318). -/
def afterPublish (s : State) (t : TileId) (p : Publish) : State :=
  let T := tileOf s t
  match T.task with
  | none => s
  | some k =>
    if k.gang = p.gang ∧ (gangOf s k.gang).elim 0 Gang.runs = p.runs then
      match p.why with
      | .phase => acquire (setTile s t { T with sWait := .none }) t p.scope
      | .bar => setTile s t { T with sWait := .bar p.scope, task := some { k with barGen := k.barGen + 1 } }
      | .taskEnd => setTile s t { T with task := some { k with hasEnded := true } }
      | .ckpt table => setTile s t (saveMember { T with sWait := .ckpt table })
      | .release onM id => setTile s t (dropCmd T onM id)
    else s

/-- The publish at the head still waits for a retry-later answer (R406). -/
def retriesLeft (p : Publish) : Bool := decide (p.retryTicks.getD 0 < 10000)

/-- Change the oldest publish. -/
def modPublish (s : State) (t : TileId) (f : Publish → Publish) : State :=
  modTile s t fun T => { T with publishes := match T.publishes with
    | [] => []
    | p :: ps => f p :: ps }

/-- The accesses of a publish to the segment rows of VFs of this device: its stores and its increments (R348, R349). -/
def publishRows (s : State) (t : TileId) (p : Publish) : List HeldAccess :=
  let row (v : VfId) (a : Nat) : Option HeldAccess :=
    if a < (vfOf s v).segSize then some { who := .publish t p.num, vf := v, va := a, ipa := some a } else none
  p.stores.filterMap (fun g => (granuleVf s p.vf g.dest).bind fun v => row v g.addr) ++
  p.effects.filterMap fun e => match e with
    | .incr v ipa _ => row v ipa
    | _ => none

/-- None of these accesses of one publish stands behind another agent's that is held (R349). -/
def rowsTurn (s : State) (who : Holder) (hs : List HeldAccess) : Bool :=
  hs.all fun h =>
    ((s.holds.filter fun x => decide (x.vf = h.vf) && holdLives s x).dropWhile fun x => decide (x.who = who)).all
      fun x => decide (x.who ≠ who)

/-- A publish comes to segment rows that are held, or stands behind others that were: it waits, its accesses among the held
ones. -/
def publishAtRows (s : State) (t : TileId) (p : Publish) : State × Bool :=
  let hs := publishRows s t p
  if hs.any fun h => (vfOf s h.vf).segHeld then (hs.foldl joinRow s, false)
  else (s, rowsTurn s (.publish t p.num) hs)

/-- The publish waits: for a segment move, a zeroing or a snapshot (R341, R348, R372). -/
def publishHeld (s : State) (t : TileId) (p : Publish) : Bool :=
  p.stores.any (fun g => decide (granuleAnswer s p.vf g = .held) || (granulePlace s p.vf g).any (publishUnsaved s t p.num)) ||
    p.effects.any (effectHeld s t p.num)

/-- A publish waits for frames that snapshots have still to save: they are saved first (R372). -/
def publishWants (s : State) (t : TileId) (p : Publish) : State :=
  (publishPlaces s p).foldl (fun s pa => if publishUnsaved s t p.num pa then wantSaved s pa 1 else s) s

/-- A publish completes (R315, R316): every store is readable, then its effects are applied in order. It waits for memory
that is held, and for members that answer retry later. -/
def execPublishComplete (t : TileId) (s : State) : Result :=
  match (tileOf s t).publishes with
  | [] => .next s
  | p :: _ =>
    let ans := granuleAnswer s p.vf
    let row := publishAtRows s t p
    if row.2 = false then .next row.1
    else if publishHeld s t p then .next (publishWants s t p)
    else if p.stores.any (fun g => decide (ans g = .later)) && retriesLeft p then
      .next (modPublish s t fun p => { p with retryTicks := some (p.retryTicks.getD 0) })
    else
      let lost := (p.stores.filter fun g => decide (ans g ≠ .serves)).filterMap (lostMember s)
      let s1 := lostEvents (storeAll (noteReads s t p p.stores) (p.asOver t) p.vf ans p.stores) p.vf lost
      let s2 := modTile (dropHolds s1 fun h => decide (h.who = .publish t p.num)) t fun T =>
        { T with publishes := T.publishes.tail }
      .next (afterPublish (applyEffects s2 t (publishMark p t) p.effects) t p)

/-- One store of the oldest publish to memory of this device becomes readable ahead of the others (R315). -/
def publishGranule (s : State) (t : TileId) (i : Nat) : State :=
  match (tileOf s t).publishes with
  | [] => s
  | p :: _ => match p.stores[i]? with
    | none => s
    | some g =>
      let row := publishAtRows s t p
      if row.2 = false then row.1
      else if granuleAnswer s p.vf g = .serves ∧ (granulePlace s p.vf g).any fun a => !publishUnsaved s t p.num a then
        modPublish (storeGranule (noteReads s t p [g]) (p.asOver t) p.vf g) t fun p => { p with stores := p.stores.eraseIdx i }
      else publishWants s t p

end Sys2Proof.Machine
end

