-- ==== Sys2Proof/Machine/Fp.lean ====
section
/-! DEFINITION. Scalar floating point (05 R159 to R162). -/

namespace Sys2Proof.Machine

/-- The rounding mode of a dynamic form (R160). -/
def dynMode (s : State) : Nat := fpcrRm (fpcrOf s)

/-- The image of an element in an x register (R159): integers but UINT8 are sign-extended. -/
def xImage (code bits : Nat) : Word :=
  if isIntFmt code then BitVec.ofInt 64 (intOf code bits) else word (bits % 2 ^ fmtBits code)

/-- Write a converted element with its flags; SR takes one draw (R42, R159). -/
def fcvt (s : State) (d : XReg) (code mode : Nat) (f : Nat → Nat × Flags) : Result :=
  let g := drawFor s mode
  let r := f g.1
  wr (addFlags g.2 r.2) d (xImage code r.1)

/-- Write an FP32 result with its flags. -/
def fp (s : State) (d : XReg) (mode : Nat) (f : Nat → Nat × Flags) : Result := fcvt s d 0 mode f

/-- The predicate of FCMP holds (R161). -/
def fcmpHolds (p : Nat) (x y : Num) : Bool :=
  let un := x.isNan || y.isNan
  let o := numCompare x y
  match p with
  | 0 => !un && decide (o = .eq)
  | 1 => !un && decide (o = .lt)
  | 2 => !un && decide (o ≠ .gt)
  | 3 => un
  | _ => un || decide (o ≠ .eq)

/-- FCMP raises invalid (R161). -/
def fcmpInvalid (p : Nat) (x y : Num) : Bool :=
  if p = 1 ∨ p = 2 then x.isNan || y.isNan else x.isSnan || y.isSnan

/-- The class number of a floating-point encoding (R162). -/
def classOf (code bits : Nat) : Nat :=
  let f := floatFmt code
  match widenF f bits with
  | .nan _ q _ => if q then 9 else 8
  | .inf n => if n then 0 else 7
  | .fin n m _ _ =>
    if m = 0 then (if n then 3 else 4)
    else if bits / 2 ^ f.frac % 2 ^ f.exp = 0 then (if n then 2 else 5)
    else if n then 1 else 6

/-- FADD in a static mode (R160). -/
def execFadd (d a b : XReg) (m : Fin 8) (s : State) : Result :=
  scalar s (.fadd d a b m) (checked s (.fadd d a b m)
    (fp s d m.val fun r => fAdd 0 m.val false r (rx s a).toNat (rx s b).toNat))

/-- FADD in FPCR.RM (R160). -/
def execFaddDyn (d a b : XReg) (s : State) : Result :=
  scalar s (.faddDyn d a b)
    (fp s d (dynMode s) fun r => fAdd 0 (dynMode s) false r (rx s a).toNat (rx s b).toNat)

/-- FSUB in a static mode (R160). -/
def execFsub (d a b : XReg) (m : Fin 8) (s : State) : Result :=
  scalar s (.fsub d a b m) (checked s (.fsub d a b m)
    (fp s d m.val fun r => fSub 0 m.val false r (rx s a).toNat (rx s b).toNat))

/-- FSUB in FPCR.RM (R160). -/
def execFsubDyn (d a b : XReg) (s : State) : Result :=
  scalar s (.fsubDyn d a b)
    (fp s d (dynMode s) fun r => fSub 0 (dynMode s) false r (rx s a).toNat (rx s b).toNat)

/-- FMUL in a static mode (R160). -/
def execFmul (d a b : XReg) (m : Fin 8) (s : State) : Result :=
  scalar s (.fmul d a b m) (checked s (.fmul d a b m)
    (fp s d m.val fun r => fMul 0 m.val false r (rx s a).toNat (rx s b).toNat))

/-- FMUL in FPCR.RM (R160). -/
def execFmulDyn (d a b : XReg) (s : State) : Result :=
  scalar s (.fmulDyn d a b)
    (fp s d (dynMode s) fun r => fMul 0 (dynMode s) false r (rx s a).toNat (rx s b).toNat)

/-- FDIV in a static mode (R160). -/
def execFdiv (d a b : XReg) (m : Fin 8) (s : State) : Result :=
  scalar s (.fdiv d a b m) (checked s (.fdiv d a b m)
    (fp s d m.val fun r => fDiv 0 m.val false r (rx s a).toNat (rx s b).toNat))

/-- FDIV in FPCR.RM (R160). -/
def execFdivDyn (d a b : XReg) (s : State) : Result :=
  scalar s (.fdivDyn d a b)
    (fp s d (dynMode s) fun r => fDiv 0 (dynMode s) false r (rx s a).toNat (rx s b).toNat)

/-- FMA: xa x xb + xd, one rounding, in a static mode (R160). -/
def execFma (d a b : XReg) (m : Fin 8) (s : State) : Result :=
  scalar s (.fma d a b m) (checked s (.fma d a b m)
    (fp s d m.val fun r => fFma 0 m.val false r (rx s a).toNat (rx s b).toNat (rx s d).toNat))

/-- FMA in FPCR.RM (R160). -/
def execFmaDyn (d a b : XReg) (s : State) : Result :=
  scalar s (.fmaDyn d a b)
    (fp s d (dynMode s) fun r => fFma 0 (dynMode s) false r (rx s a).toNat (rx s b).toNat (rx s d).toNat)

/-- FSQRT in a static mode (R160). -/
def execFsqrt (d a : XReg) (m : Fin 8) (s : State) : Result :=
  scalar s (.fsqrt d a m) (checked s (.fsqrt d a m)
    (fp s d m.val fun r => fSqrt 0 m.val false r (rx s a).toNat))

/-- FSQRT in FPCR.RM (R160). -/
def execFsqrtDyn (d a : XReg) (s : State) : Result :=
  scalar s (.fsqrtDyn d a) (fp s d (dynMode s) fun r => fSqrt 0 (dynMode s) false r (rx s a).toNat)

/-- FMIN (R48, R160). -/
def execFmin (d a b : XReg) (s : State) : Result :=
  scalar s (.fmin d a b)
    (fp s d 0 fun _ => minMax 0 false false ((rx s a).toNat % 2 ^ 32) ((rx s b).toNat % 2 ^ 32))

/-- FMAX (R48, R160). -/
def execFmax (d a b : XReg) (s : State) : Result :=
  scalar s (.fmax d a b)
    (fp s d 0 fun _ => minMax 0 true false ((rx s a).toNat % 2 ^ 32) ((rx s b).toNat % 2 ^ 32))

/-- FMINN (R48, R160). -/
def execFminn (d a b : XReg) (s : State) : Result :=
  scalar s (.fminn d a b)
    (fp s d 0 fun _ => minMax 0 false true ((rx s a).toNat % 2 ^ 32) ((rx s b).toNat % 2 ^ 32))

/-- FMAXN (R48, R160). -/
def execFmaxn (d a b : XReg) (s : State) : Result :=
  scalar s (.fmaxn d a b)
    (fp s d 0 fun _ => minMax 0 true true ((rx s a).toNat % 2 ^ 32) ((rx s b).toNat % 2 ^ 32))

/-- FCMP (R161). -/
def execFcmp (d a b : XReg) (p : Fin 8) (s : State) : Result :=
  scalar s (.fcmp d a b p) (checked s (.fcmp d a b p)
    (let x := widen 0 (rx s a).toNat
     let y := widen 0 (rx s b).toNat
     wr (addFlags s (flagIf (fcmpInvalid p.val x y) fInvalid)) d (flagWord (fcmpHolds p.val x y))))

/-- FCVT.fmt.F32 in a static mode (R160). -/
def execFcvtFmtF32 (d a : XReg) (t : Bool) (f : Fin 16) (m : Fin 8) (s : State) : Result :=
  scalar s (.fcvtFmtF32 d a t f m) (checked s (.fcvtFmtF32 d a t f m)
    (fcvt s d f.val m.val fun r => cvt 0 (rx s a).toNat f.val m.val t r))

/-- FCVT.fmt.F32 in FPCR.RM (R160). -/
def execFcvtFmtF32Dyn (d a : XReg) (t : Bool) (f : Fin 16) (s : State) : Result :=
  scalar s (.fcvtFmtF32Dyn d a t f) (checked s (.fcvtFmtF32Dyn d a t f)
    (fcvt s d f.val (dynMode s) fun r => cvt 0 (rx s a).toNat f.val (dynMode s) t r))

/-- FCVT.F32.fmt in a static mode; SAT is ignored (R160). -/
def execFcvtF32Fmt (d a : XReg) (t : Bool) (f : Fin 16) (m : Fin 8) (s : State) : Result :=
  scalar s (.fcvtF32Fmt d a t f m) (checked s (.fcvtF32Fmt d a t f m)
    (fcvt s d 0 m.val fun r => cvt f.val (rx s a).toNat 0 m.val false r))

/-- FCVT.F32.fmt in FPCR.RM (R160). -/
def execFcvtF32FmtDyn (d a : XReg) (t : Bool) (f : Fin 16) (s : State) : Result :=
  scalar s (.fcvtF32FmtDyn d a t f) (checked s (.fcvtF32FmtDyn d a t f)
    (fcvt s d 0 (dynMode s) fun r => cvt f.val (rx s a).toNat 0 (dynMode s) false r))

/-- FCLASS (R162). -/
def execFclass (d a : XReg) (s : State) : Result :=
  scalar s (.fclass d a) (wr s d (word (2 ^ classOf 0 (rx s a).toNat)))

end Sys2Proof.Machine
end

