-- ==== Sys2Proof/Machine/Queue.lean ====
section
/-! DEFINITION. Queues: their format register, conversion at a pop, and who waits for what (05 R163; 06 R172 to R174;
08 R250, R251). -/

namespace Sys2Proof.Machine

/-! ### QFMT (R250) -/

def qSrc (f : Word) : Nat := bfld f 3 0
def qSnk (f : Word) : Nat := bfld f 7 4
def qRm (f : Word) : Nat := bfld f 10 8
def qSat (f : Word) : Bool := bbit f 11
def qSs (f : Word) : Nat := bfld f 63 32

/-- Reserved bits are 0 and the mode is one of R37's. -/
def qModeOk (f : Word) : Bool := decide (bfld f 31 12 = 0 ∧ qRm f ≤ 5)
/-- The value is valid for pops and pushes. -/
def qPopOk (f : Word) : Bool := qModeOk f && decide (qSnk f ≤ 9 ∧ qSnk f ≠ 5)
/-- The value is valid for QSTREAM; QDRAIN also rejects an NQ4 source. -/
def qStreamOk (f : Word) : Bool := qModeOk f && decide (qSrc f ≤ 9)
def qDrainOk (f : Word) : Bool := qStreamOk f && decide (qSrc f ≠ 5)

/-- Bytes a side holds, of elements of a sink format: 8 KiB (R172). -/
def sideBytes : Nat := 8192
/-- Bits of a queue's sink elements. -/
def snkBits (f : Word) : Nat := fmtBits (qSnk f)

def queueOf (T : Tile) (q : Fin 4) : Queue := vget T.queues q
def modQueue (T : Tile) (q : Fin 4) (f : Queue → Queue) : Tile := { T with queues := vset T.queues q (f (queueOf T q)) }

/-- The conversion of an element at its pop (R251). -/
def popConvert (f : Word) (draw : Nat) (e : BitVec 32 × Byte) : Nat × Flags :=
  if qSrc f = 5 then
    let x := nq4 e.1.toNat e.2.toNat (qSs f)
    let r := encodeNum (qSnk f) (qRm f) (qSat f) draw x.1
    (r.1, r.2 ||| x.2)
  else cvt (qSrc f) e.1.toNat (qSnk f) (qRm f) (qSat f) draw

/-- One draw for each of `n` elements where the mode is SR (R42). -/
def drawsFor (g : Gen) (mode n : Nat) : List Nat × Gen := if mode = 5 then draws g n else (List.replicate n 0, g)

/-- The OR of the flags of a list of results (R32). -/
def orFlags : List (Nat × Flags) → Flags
  | [] => 0
  | r :: rs => r.2 ||| orFlags rs

/-- Convert elements in order, with their draws. -/
def convertAll (f : Nat → BitVec 32 × Byte → Nat × Flags) : List Nat → List (BitVec 32 × Byte) → List (Nat × Flags)
  | r :: rs, e :: es => f r e :: convertAll f rs es
  | _, _ => []

/-- Pop `n` elements for a stream: they are converted with its draws, and its FPSR takes the flags (R174). -/
def popRun (T : Tile) (st : Stream) (q : Fin 4) (n : Nat) : Tile × List Nat :=
  let Q := queueOf T q
  let g := drawsFor (strm T st).gen (qRm Q.fmt) n
  let rs := convertAll (popConvert Q.fmt) g.1 (Q.inb.take n)
  let T := modStrm T st fun c => { c with gen := g.2, fpsr := raised c.fpsr (orFlags rs) }
  (modQueue T q fun Q => { Q with inb := Q.inb.drop n }, rs.map Prod.fst)

/-- No pop of another stream stands before one of a stream (R163, R174). -/
def firstInLine (Q : Queue) (st : Stream) : Bool :=
  match Q.waits with
  | [] => true
  | w :: _ => decide (w.1 = st)

/-- A pop that cannot be served takes its place at the end; in the ac cycle of an S pop, a V pop stands before it (R163). -/
def joinLine (Q : Queue) (st : Stream) (ac : Nat) : Queue :=
  if Q.waits.any fun w => decide (w.1 = st) then Q
  else if st = .V then
    { Q with waits := (Q.waits.filter fun w => decide (w.2 ≠ ac)) ++ (st, ac) :: Q.waits.filter fun w => decide (w.2 = ac) }
  else { Q with waits := Q.waits ++ [(st, ac)] }

/-- A pop gives up its place as it is served. -/
def leaveLine (Q : Queue) (st : Stream) : Queue := { Q with waits := Q.waits.filter fun w => decide (w.1 ≠ st) }

/-- QPOPS (R163): it waits while the queue is empty, or behind a pop that waits. -/
def execQpops (d : XReg) (q : Fin 4) (s : State) : Result :=
  onTileS s (.qpops d q) fun t _ =>
    let T := tileOf s t
    let Q := queueOf T q
    if qPopOk Q.fmt = false then raise s causeQueueFormat (word q.val)
    else if firstInLine Q .S = false ∨ Q.inb = [] then .next (setTile s t (modQueue T q fun Q => joinLine Q .S (acOf s t)))
    else
      let r := popRun T .S q 1
      wr (setTile s t (modQueue r.1 q fun Q => leaveLine Q .S)) d (xImage (qSnk Q.fmt) (r.2.headD 0))

end Sys2Proof.Machine
end

