-- ==== Sys2Proof/Machine/Porter.lean ====
section
/-! DEFINITION. The Porter: frame and loop-nest records, windows, copies, queues, address groups, and how commands run
and complete (08 R231 to R263, R461; 07 R207, R226 to R229; 11 R336, R337). -/

namespace Sys2Proof.Machine

/-! ### Frame records (R238 to R241) -/

/-- A signed field of `n` bits. -/
def sField (n v : Nat) : Int := if v < 2 ^ (n - 1) then v else (v : Int) - (2 ^ n : Nat)

/-- The five 24-bit fields of two words: d0 to d4 or o0 to o4. -/
def five24 (a b : Word) : List Nat :=
  [bfld a 23 0, bfld a 47 24, bfld a 63 48 + 2 ^ 16 * bfld b 7 0, bfld b 31 8, bfld b 55 32]

def frameReserved (w : List Word) : Bool :=
  decide (bfld (recw w 0) 63 56 ≠ 0 ∨ bfld (recw w 1) 63 36 ≠ 0 ∨ bfld (recw w 3) 63 56 ≠ 0 ∨
    bfld (recw w 4) 63 48 ≠ 0 ∨ bfld (recw w 5) 63 48 ≠ 0 ∨ bfld (recw w 6) 63 48 ≠ 0 ∨ bfld (recw w 7) 63 48 ≠ 0 ∨
    bfld (recw w 9) 63 56 ≠ 0 ∨ bfld (recw w 10) 63 60 ≠ 0 ∨ bfld (recw w 11) 63 59 ≠ 0)

/-- The fields of a frame record, but for its dynamic count. -/
def frameOf (off : Nat) (w : List Word) : Frame :=
  let r := bfld (recw w 1) 6 4
  { off := off, base := bfld (recw w 0) 55 0, fmt := bfld (recw w 1) 3 0, rank := r, transpose := bbit (recw w 1) 7,
    fill := bfld (recw w 1) 9 8, interleave := bfld (recw w 1) 12 10, xormask := bfld (recw w 11) 58 53,
    dest := bfld (recw w 11) 52 32, fillbits := bfld (recw w 11) 31 0,
    sizes := (five24 (recw w 2) (recw w 3)).take r,
    strides := ((List.range 4).map fun i => bfld (recw w (4 + i)) 47 0).take (r - 1),
    origins := ((five24 (recw w 8) (recw w 9)).map (sField 24)).take r,
    extents := ((List.range 5).map fun i => bfld (recw w 10) (12 * i + 11) (12 * i)).take r,
    dyn := none, clamped := false }

def frameInvalid (f : Frame) : Bool :=
  decide (10 ≤ f.fmt ∨ f.rank = 0 ∨ 6 ≤ f.rank ∨ f.fill = 3 ∨ 3 ≤ f.interleave ∨
    (f.transpose = true ∧ (f.fmt = 5 ∨ fmtBits f.fmt = 32)) ∨
    (f.fmt = 5 ∧ ((f.origins.headD 0) % 2 ≠ 0 ∨ f.extents.headD 0 % 2 ≠ 0)))

/-- The dimension that the dynamic count governs. -/
def dynDim (f : Frame) : Nat := if 2 ≤ f.rank then 1 else 0

/-- Read and check a frame record (R239, R241). -/
def readFrame (T : Tile) (o : Word) : Except (Nat × Word) Frame :=
  let off := o.toNat / 32 * 32
  let w := winWords T off 12
  let f := frameOf off w
  if frameReserved w then .error (causeReserved, word off)
  else if frameInvalid f then .error (causeInvalid, word off)
  else if bbit (recw w 1) 14 = false then .ok f
  else
    let n := leNat (winRead T (bfld (recw w 1) 35 15 / 4 * 4) 4)
    let e := f.extents.getD (dynDim f) 0
    if n ≤ e then .ok { f with dyn := some n }
    else if bbit (recw w 1) 13 then .error (causeInvalid, word off)
    else .ok { f with dyn := some e, clamped := true }

/-! ### Windows (R240 to R243) -/

/-- Positions of a window. -/
def windowCount (f : Frame) : Nat := f.extents.foldl (· * ·) 1

/-- The digits of a number in mixed bases, lowest first. -/
def digits : List Nat → Nat → List Nat
  | [], _ => []
  | e :: es, p => p % e :: digits es (p / e)

def swap01 {α : Type} : List α → List α
  | a :: b :: l => b :: a :: l
  | l => l

/-- The window position of a landing index (R242). -/
def positionOf (f : Frame) (p : Nat) : List Nat :=
  if f.transpose then swap01 (digits (swap01 f.extents) p) else digits f.extents p

/-- The signed entry of an index list for a window row (R256). -/
def indexEntry (T : Tile) (idx row : Nat) : Int := (BitVec.ofNat 32 (leNat (winRead T (idx / 4 * 4 + 4 * row) 4))).toInt

/-- A position that the dynamic count puts out of bounds (R241). -/
def beyondDyn (f : Frame) (ws : List Nat) : Bool :=
  match f.dyn with
  | some n => decide (n ≤ ws.getD (dynDim f) 0)
  | none => false

/-- The tensor index of a position (R240), with t1 from an index list where the word has one (R256). -/
def tensorIndex (T : Tile) (f : Frame) (idx : Option Nat) (ws : List Nat) : List Int :=
  let ts := List.zipWith (fun (o : Int) (w : Nat) => o + w) f.origins ws
  match idx with
  | none => ts
  | some i => ts.set 1 (indexEntry T i (ws.getD 1 0))

/-- Every index lies in the tensor. -/
def inTensor (f : Frame) (ts : List Int) : Bool :=
  (List.zipWith (fun (t : Int) (d : Nat) => decide (0 ≤ t ∧ t < d)) ts f.sizes).all id

/-- The address of a tensor element and, for NQ4, whether it is the high half (R34, R240). -/
def elementAddr (f : Frame) (ts : List Int) : Nat × Bool :=
  let t0 := (ts.headD 0).toNat
  let rest := (List.zipWith (fun (t : Int) (s : Nat) => t.toNat * s) ts.tail f.strides).sum
  if f.fmt = 5 then (f.base + t0 / 2 + rest, decide (t0 % 2 = 1))
  else (f.base + t0 * (fmtBits f.fmt / 8) + rest, false)

/-- Where a load takes an element: memory, or given bits. -/
inductive Source where
  | mem (addr : Nat) (hi : Bool)
  | bits (b : Nat)
  deriving DecidableEq, Repr

/-- The place of an in-bounds element; none out of bounds. -/
def placeOf (T : Tile) (f : Frame) (idx : Option Nat) (p : Nat) : Option (Nat × Bool) :=
  let ws := positionOf f p
  let ts := tensorIndex T f idx ws
  if beyondDyn f ws = false ∧ inTensor f ts then some (elementAddr f ts) else none

/-- The element that FILL 2 repeats (R240, R241). -/
def edgeSource (T : Tile) (f : Frame) (idx : Option Nat) (p : Nat) : Source :=
  let ws := positionOf f p
  let ws := match f.dyn with
    | some n => ws.set (dynDim f) (min (ws.getD (dynDim f) 0) (n - 1))
    | none => ws
  if f.dyn = some 0 ∨ f.sizes.any fun d => decide (d = 0) then .bits 0
  else
    let ts := List.zipWith (fun (t : Int) (d : Nat) => clampInt t 0 ((d : Int) - 1)) (tensorIndex T f idx ws) f.sizes
    .mem (elementAddr f ts).1 (elementAddr f ts).2

/-- What a load of position `p` takes (R240). -/
def sourceOf (T : Tile) (f : Frame) (idx : Option Nat) (p : Nat) : Source :=
  match placeOf T f idx p with
  | some (a, h) => .mem a h
  | none => match f.fill with
    | 1 => .bits (f.fillbits % 2 ^ fmtBits f.fmt)
    | 2 => edgeSource T f idx p
    | _ => .bits 0

/-- Bytes of an element in memory or the window; an NQ4 element lies in one. -/
def elemBytes (f : Frame) : Nat := if f.fmt = 5 then 1 else fmtBits f.fmt / 8

/-- The window offset of the first byte of landing index `p` (R242). -/
def landingOff (f : Frame) (p : Nat) : Nat := f.dest + (if f.fmt = 5 then p / 2 else p * elemBytes f)

/-- The scratchpad bytes of landing index `p` (R244). -/
def landingPlaces (T : Tile) (f : Frame) (p : Nat) : List Nat :=
  (List.range (elemBytes f)).map fun i => winAddrIn T f.interleave f.xormask (landingOff f p + i)

/-- The bytes that a window of `n` elements moves, of elements of `w` bits. -/
def bytesFor (n w : Nat) : Nat := n * w / 8

/-! ### Loop nests (R254, R255) -/

def nestReserved (w : List Word) : Bool :=
  decide (bfld (recw w 0) 63 40 ≠ 0 ∨ bfld (recw w 1) 63 60 ≠ 0) ||
    (List.range 6).any fun l => decide (bfld (recw w (2 + l)) 63 54 ≠ 0 ∨ bfld (recw w (2 + l)) 31 27 ≠ 0)
def nestDim (w : List Word) (l : Nat) : Nat := bfld (recw w (2 + l)) 26 24
def nestSizes (w : List Word) : List Nat := (List.range 6).map fun l => bfld (recw w 1) (10 * l + 9) (10 * l) + 1
def nestOut (w : List Word) : Bool := bbit (recw w 0) 21
def nestWaitEn (w : List Word) : Bool := bbit (recw w 0) 26
def nestWaitPeg (w : List Word) : Fin 16 := Fin.ofNat 16 (bfld (recw w 0) 25 22)
def nestWaitLag (w : List Word) : Nat := bfld (recw w 0) 39 32
def nestPostEn (w : List Word) : Bool := bbit (recw w 0) 31
def nestPostPeg (w : List Word) : Fin 16 := Fin.ofNat 16 (bfld (recw w 0) 30 27)

/-- The sum over levels of a step times its index. -/
def levelSum (js : List Nat) (step : Nat → Int) : Int :=
  ((List.range 6).map fun l => (js.getD l 0 : Int) * step l).foldl (· + ·) 0

/-- The copy of iteration `i`. -/
def nestFrame (f : Frame) (w : List Word) (i : Nat) : Frame :=
  let js := digits (nestSizes w) i
  let org (d : Nat) (o : Int) : Int :=
    o + levelSum js fun l => if nestDim w l = d then sField 24 (bfld (recw w (2 + l)) 23 0) else 0
  { f with
    origins := f.origins.mapIdx org
    dest := (((f.dest : Int) + levelSum js fun l => sField 22 (bfld (recw w (2 + l)) 53 32)) % (2 ^ 21 : Nat)).toNat }

/-- Read and check a nest record and its template (R254). -/
def readNest (T : Tile) (o : Word) : Except (Nat × Word) (Frame × List Word) :=
  let off := o.toNat / 32 * 32
  let w := winWords T off 8
  if nestReserved w then .error (causeReserved, word off)
  else if (List.range 6).any fun l => decide (nestDim w l = 5 ∨ nestDim w l = 6) then .error (causeInvalid, word off)
  else match readFrame T (word (bfld (recw w 0) 20 0)) with
    | .error e => .error e
    | .ok f =>
      if (List.range 6).any fun l => decide (nestDim w l ≤ 4 ∧ f.rank ≤ nestDim w l) then .error (causeInvalid, word off)
      else .ok (f, w)

/-! ### The walk of a command -/

/-- A copy within a command: its frame, whether it stores, and its index list. -/
structure CopyWalk where
  f : Frame
  out : Bool
  idx : Option Nat
  deriving DecidableEq, Repr

/-- Iteration `i` of a command that walks a window. -/
def walkOf (k : CmdKind) (i : Nat) : Option CopyWalk :=
  match k with
  | .copyin f _ => some ⟨f, false, none⟩
  | .copyout f _ => some ⟨f, true, none⟩
  | .nest f w _ => some ⟨nestFrame f w i, nestOut w, none⟩
  | .gath f idx _ => some ⟨f, false, some idx⟩
  | .scat f idx _ => some ⟨f, true, some idx⟩
  | .qstream f _ _ => some ⟨f, false, none⟩
  | .qdrain f _ => some ⟨f, true, none⟩
  | _ => none

/-- Iterations of a command; one for every word but NEST. -/
def iterations : CmdKind → Nat
  | .nest _ w _ => (nestSizes w).foldl (· * ·) 1
  | _ => 1

/-- Elements of each iteration. -/
def walkCount (k : CmdKind) : Nat :=
  match walkOf k 0 with
  | some w => windowCount w.f
  | none => 0

/-- Bits of an element as the command's advance counts it (R252): sink bits for QSTREAM. -/
def advanceBits (T : Tile) : CmdKind → Nat
  | .qstream _ q _ => snkBits (queueOf T q).fmt
  | k => match walkOf k 0 with
    | some w => fmtBits w.f.fmt
    | none => 0

/-- A command that moves window elements through the scratchpad. -/
def usesWindow : CmdKind → Bool
  | .qstream _ _ _ => false
  | .qdrain _ _ => false
  | _ => true

/-- MLR's and MST's descriptor (R259). -/
def groupCountOf (d : Word) : Nat := bfld d 47 32
def groupFmt (d : Word) : Nat := bfld d 24 21
def groupSpoff (d : Word) : Nat := bfld d 20 0

/-- The window offset and length of MLR's result. -/
def mlrBytes (d : Word) (bf : Bool) : Nat := groupCountOf d * (if bf then 2 else 4)

/-- Window bytes from an offset. -/
def winPlaces (T : Tile) (o n : Nat) : List Nat := (List.range n).map fun i => winAddr T (o + i)

/-- Scratchpad bytes that a command still writes apart from its window: results, counter and status words. -/
def fixedPlaces (T : Tile) (c : Cmd) : List Nat :=
  if c.landed then []
  else
    (match c.kind with
     | .mlr _ _ d bf => if c.iter = 0 then winPlaces T (groupSpoff d) (mlrBytes d bf) else []
     | .ctradd false loc _ => winPlaces T (loc.toNat / 8 * 8) 8
     | _ => []) ++
    (match counterSpec c.cspec with
     | .scratch o => winPlaces T o 16
     | _ => [])

/-- Some element that the command still has to move meets a test. -/
def remainingAny (c : Cmd) (test : CopyWalk → Nat → Bool) : Bool :=
  (List.range (iterations c.kind - c.iter)).any fun i => match walkOf c.kind (c.iter + i) with
    | none => false
    | some w =>
      let first := if i = 0 then c.pos else 0
      (List.range (windowCount w.f - first)).any fun j => test w (first + j)

/-- Two lists share a member. -/
def meets (a b : List Nat) : Bool := a.any fun x => b.contains x

/-- Virtual addresses of the bytes of an element in memory. -/
def addrBytes (f : Frame) (a : Nat) : List Nat := (List.range (elemBytes f)).map (a + ·)

/-- What stage 1 gives an address of a tile's task as things stand, whatever the rights. -/
def peekIpa (s : State) (t : TileId) (k : Task) (va : Nat) : Option Nat :=
  if 2 ^ 56 ≤ va then none
  else match expertAt s k.vf va with
    | some (_, e) => match expertXlat e va .read with
      | .ok i => some i
      | _ => none
    | none => match tlbFind (tileOf s t).tlb k.asid va with
      | some e => some (leafIpa e va)
      | none => match walk s (some (dieOf t)) k.vf k.asid va with
        | .leaf e => some (leafIpa e va)
        | _ => none

/-- A byte of global memory as a number: of a VF of a device at an address there, whatever name reached it; an address that
does not translate stands for itself. -/
def vaKey (s : State) (t : TileId) (k : Task) (va : Nat) : Nat :=
  match peekIpa s t k va with
  | some i => peerAddr s.purlinId k.vf.val i
  | none => 2 ^ 100 + va

/-- The members of a command's address group: as read at its start, or as they stand (R407). -/
def groupMembers (s : State) (k : Task) (c : Cmd) : List Member :=
  match c.members with
  | some ms => ms
  | none => match c.kind with
    | .mlr g _ _ _ => membersOf s k.part (g.toNat % 256)
    | .mst g _ _ => membersOf s k.part (g.toNat % 256)
    | _ => []

/-- The first byte of the group's entry that a command is about to read and ECC cannot correct (R407, R428). -/
def groupBadEntry (s : State) (k : Task) (c : Cmd) : Option Nat :=
  if c.members.isSome then none
  else match c.kind with
    | .mlr g _ _ _ => entryBad s k.part (g.toNat % 256)
    | .mst g _ _ => entryBad s k.part (g.toNat % 256)
    | _ => none

/-- The access that MLR or MST makes to each member: its entry, its offset and its bytes. -/
def groupAccess : CmdKind → Option (Nat × Nat × Nat)
  | .mlr g roff d _ => some (g.toNat % 256, roff.toNat, groupCountOf d * (fmtBits (groupFmt d) / 8))
  | .mst g roff d => some (g.toNat % 256, roff.toNat, groupCountOf d)
  | _ => none

/-- The bytes of global memory that MLR reads or MST stores. -/
def groupKeys (s : State) (k : Task) (c : Cmd) : List Nat :=
  match groupAccess c.kind with
  | some (_, roff, n) => (groupMembers s k c).flatMap fun m => (List.range n).map fun i => peerAddr m.dev m.rvf (m.base + roff + i)
  | none => []

/-- What one element of a command touches: scratchpad bytes, and bytes of global memory (R233). -/
structure Touch where
  spad : List Nat
  keys : List Nat
  deriving DecidableEq, Repr

/-- The touches of element `p` of a command's walk. -/
def touchOf (s : State) (t : TileId) (k : Task) (c : Cmd) (w : CopyWalk) (p : Nat) : Touch :=
  let T := tileOf s t
  let R := viewTile T c
  { spad := (if usesWindow c.kind then landingPlaces T w.f p else []) ++
      (match w.idx with
       | some i => winPlaces T (i / 4 * 4 + 4 * (positionOf w.f p).getD 1 0) 4
       | none => [])
    keys := ((if w.out then (match placeOf R w.f w.idx p with
        | some (a, _) => addrBytes w.f a
        | none => [])
      else match sourceOf R w.f w.idx p with
        | .mem a _ => addrBytes w.f a
        | .bits _ => []) ++
      (match c.kind with
       | .qstream f _ scale => if f.fmt = 5 then [scale.toNat + p / 64] else []
       | _ => [])).map (vaKey s t k) }

/-- Bytes of the scratchpad are among those that a command has read for it and not landed. -/
def meetsPend (places : List Nat) (d : Cmd) : Bool := places.any fun a => d.pend.any fun b => decide (b.off = a)

/-- A command still has to write what is touched: an element that it has to move or to land, or MST its stores. -/
def elementBlocks (s : State) (t : TileId) (k : Task) (x : Touch) (d : Cmd) : Bool :=
  let T := tileOf s t
  meetsPend x.spad d ||
  (match d.kind with
   | .mst _ _ _ => decide (d.iter = 0) && meets x.keys (groupKeys s k d)
   | _ => false) ||
  remainingAny d fun w p =>
    if w.out then (match placeOf (viewTile T d) w.f w.idx p with
      | some (a, _) => meets x.keys ((addrBytes w.f a).map (vaKey s t k))
      | none => false)
    else usesWindow d.kind && meets x.spad (landingPlaces T w.f p)

/-- Two commands on one side of one queue, the earlier not yet over. -/
def sameQueue (k : CmdKind) (d : Cmd) : Bool :=
  match k, d.kind with
  | .qstream _ q _, .qstream _ r _ => decide (q = r ∧ d.iter < 1)
  | .qdrain _ q, .qdrain _ r => decide (q = r ∧ d.iter < 1)
  | _, _ => false

/-- An earlier command still has to write what an element touches, or stands before it at a queue (R233). -/
def blockedBy (s : State) (t : TileId) (k : Task) (kind : CmdKind) (x : Touch) (d : Cmd) : Bool :=
  sameQueue kind d || meets x.spad (fixedPlaces (tileOf s t) d) || elementBlocks s t k x d

/-- The commands before one in its queue. -/
def earlierCmds (T : Tile) (onM : Bool) (id : Nat) : List Cmd := (cmdsOf T onM).takeWhile fun c => decide (c.id ≠ id)

/-- Some earlier command blocks a touch of a command. -/
def blocked (s : State) (t : TileId) (k : Task) (onM : Bool) (c : Cmd) (x : Touch) : Bool :=
  (earlierCmds (tileOf s t) onM c.id).any (blockedBy s t k c.kind x)

/-! ### Writing the scratchpad (R233, R249) -/

/-- Lay bytes over a scratchpad. -/
def layBytes (m : Memory) (bs : List StoreByte) : Memory := bs.foldl (fun m b => mset m b.off (mergeByte (mget m b.off) b)) m

/-- Whole bytes at scratchpad places. -/
def wholeBytes (as : List Nat) (bs : List Byte) : List StoreByte :=
  (as.zip bs).map fun p => { off := p.1, lo := true, hi := true, val := p.2 }

/-- A command writes the scratchpad; the commands of its queue that issued after it read what it wrote (R233). -/
def cmdWrite (T : Tile) (onM : Bool) (id : Nat) (bs : List StoreByte) : Tile :=
  let T := { T with spad := layBytes T.spad bs }
  setCmds T onM ((cmdsOf T onM).map fun c => if id < c.id then { c with view := c.view.map fun m => layBytes m bs } else c)

/-- A command writes a word of the window. -/
def cmdPutWord (T : Tile) (onM : Bool) (id o : Nat) (w : Word) : Tile :=
  cmdWrite T onM id (wholeBytes (winPlaces T o 8) (leBytes 8 w.toNat))

/-- A command adds to a scratchpad counter. -/
def spadAdd (T : Tile) (onM : Bool) (id o : Nat) (v : Word) : Tile := cmdPutWord T onM id o (winWord T o + v)

/-- The bank row of a scratchpad byte (R17, R249). -/
def rowOf (a : Nat) : Nat := a / 16

/-- What a command has read for a set of places lands. -/
def landWhere (T : Tile) (c : Cmd) (p : Nat → Bool) : Tile :=
  modCmd (cmdWrite T false c.id (c.pend.filter fun b => p b.off)) false c.id
    fun c => { c with pend := c.pend.filter fun b => !p b.off }

/-- Everything that a command has read lands. -/
def landAll (T : Tile) (onM : Bool) (c : Cmd) : Tile := if onM ∨ c.pend = [] then T else landWhere T c fun _ => true

/-! ### Memory and scratchpad, element by element -/

/-- The outcome of a piece of work. -/
inductive Got (α : Type) where
  | ok (a : α)
  | wait
  | fault (cause : Nat) (val : Word)

/-- A read of the word at a physical address observes the entries that have changed it: at once where it is an arrival
counter, with the bytes of the messages it counts (R395), else for the next acquire (R316). -/
def observeAt (s : State) (t : TileId) (pa : Nat) : State :=
  let ms := marksAt s pa
  let s := observe s t ms
  if (windowCtr s pa).isSome then seeAll s t fun x => x.overs.any fun o => decide (o.issuer = none) || marksSee ms o
  else s

/-- The same of every word of a granule. -/
def observeGranule (s : State) (t : TileId) (a : Nat) : State :=
  (List.range 8).foldl (fun s i => observeAt s t (a + 8 * i)) s

/-- Command `id` of a Porter reads a byte: every byte of a granule comes from the value that the command's first read of
it found (R319). -/
def commandByte (s : State) (t : TileId) (id : Nat) (ipa pa : Nat) : State × Byte :=
  let a := pa / 64 * 64
  match (findCmd (tileOf s t) false id).bind fun c => c.reads.find? fun r => decide (r.1 = a) with
  | some r => (s, ownByte s t ipa (r.2.getD (pa % 64) 0))
  | none =>
    let s := observeGranule s t a
    (modTile s t fun T => modCmd T false id fun c => { c with reads := (a, (List.range 64).map fun i => seenByte s t (a + i)) :: c.reads },
     taskByte s t ipa pa)

/-- What an access that does not translate comes to. -/
def xlatGot {α : Type} (va : Nat) : Xlat → Got α
  | .fault c => .fault c (word va)
  | .ecc a => .fault causeEcc (word a)
  | _ => .wait

/-- Translate for a command, or for the S stream (R237, R349). -/
def accessXlat (s : State) (t : TileId) (k : Task) (id : Option Nat) (va : Nat) (r : Right) : State × Except Xlat (Nat × Nat) :=
  match id with
  | some id => tileXlatFor s (.command t id) t k va r
  | none => tileXlat s t k va r

/-- Read a byte at a virtual address for a task, or for a command of its Porter (R233, R237, R319). -/
def vaByte (s : State) (t : TileId) (k : Task) (id : Option Nat) (va : Nat) : State × Got Byte :=
  match accessXlat s t k id va .read with
  | (s, .ok (ipa, pa)) => match badIn s pa 1, id with
    | some a, _ => (s, .fault causeEcc (word a))
    | none, none => (s, .ok (taskByte s t ipa pa))
    | none, some id => match commandByte s t id ipa pa with
      | (s, b) => (s, .ok b)
  | (s, .error x) => (s, xlatGot va x)

/-- Read bytes, lowest address first. -/
def vaRead (s : State) (t : TileId) (k : Task) (id : Option Nat) (va : Nat) : Nat → State × Got (List Byte)
  | 0 => (s, .ok [])
  | n + 1 => match vaByte s t k id va with
    | (s, .wait) => (s, .wait)
    | (s, .fault c v) => (s, .fault c v)
    | (s, .ok b) => match vaRead s t k id (va + 1) n with
      | (s, .ok bs) => (s, .ok (b :: bs))
      | x => x

/-- Half of a byte, or all of its element's bits. -/
def halfOf (f : Frame) (hi : Bool) (n : Nat) : Nat := if f.fmt = 5 then (if hi then n / 16 else n) % 16 else n

/-- The bits that a source gives. -/
def loadBits (s : State) (t : TileId) (k : Task) (id : Nat) (f : Frame) (src : Source) : State × Got Nat :=
  match src with
  | .bits b => (s, .ok b)
  | .mem a hi => match vaRead s t k (some id) a (elemBytes f) with
    | (s, .ok bs) => (s, .ok (halfOf f hi (leNat bs)))
    | (s, .wait) => (s, .wait)
    | (s, .fault c v) => (s, .fault c v)

/-- Buffer a byte of a command's store at a virtual address (R138, R253). -/
def storeVa (s : State) (t : TileId) (k : Task) (id va : Nat) (lo hi : Bool) (b : Byte) : State × Got Unit :=
  match accessXlat s t k (some id) va .write with
  | (s, .ok (ipa, _)) =>
    let T := tileOf s t
    if hasGranule T.stores .ipa ipa = false ∧ 8192 ≤ T.stores.length then (s, .fault causePublishFull (bufferedBytes T))
    else (setTile s t { T with stores := bufferPut (dropCovered s k.vf T.stores .ipa ipa lo hi) .ipa ipa lo hi b }, .ok ())
  | (s, .error x) => (s, xlatGot va x)

/-- Buffer whole bytes. -/
def storeVas (s : State) (t : TileId) (k : Task) (id va : Nat) : List Byte → State × Got Unit
  | [] => (s, .ok ())
  | b :: bs => match storeVa s t k id va true true b with
    | (s, .ok _) => storeVas s t k id (va + 1) bs
    | x => x

/-- Store an element's bits at its place; out of bounds nothing is stored. -/
def storeBits (s : State) (t : TileId) (k : Task) (id : Nat) (f : Frame) (place : Option (Nat × Bool)) (n : Nat) :
    State × Got Unit :=
  match place with
  | none => (s, .ok ())
  | some (a, hi) =>
    if f.fmt = 5 then storeVa s t k id a (!hi) hi (BitVec.ofNat 8 (n % 16 * 17))
    else storeVas s t k id a (leBytes (elemBytes f) n)

/-- The scratchpad bytes of an element's bits (R242, R253). -/
def landBits (T : Tile) (f : Frame) (p n : Nat) : List StoreByte :=
  let as := landingPlaces T f p
  if f.fmt = 5 then
    as.map fun a => { off := a, lo := decide (p % 2 = 0), hi := decide (p % 2 = 1), val := BitVec.ofNat 8 (n % 16 * 17) }
  else wholeBytes as (leBytes (elemBytes f) n)

/-- Take an element's bits from the window. -/
def takeBits (T : Tile) (f : Frame) (p : Nat) : Nat :=
  halfOf f (decide (p % 2 = 1)) (leNat ((landingPlaces T f p).map (mget T.spad)))

/-- QSTREAM's element: its bits, and its code byte for NQ4 (R257). -/
def streamElem (s : State) (t : TileId) (k : Task) (id : Nat) (w : CopyWalk) (q : Fin 4) (scale : Word) (p : Nat) : State × Got Unit :=
  let Q := queueOf (tileOf s t) q
  if 8 * sideBytes < (Q.inb.length + 1) * snkBits Q.fmt then (s, .wait)
  else match loadBits s t k id w.f (sourceOf (tileOf s t) w.f w.idx p) with
    | (s, .wait) => (s, .wait)
    | (s, .fault c v) => (s, .fault c v)
    | (s, .ok n) =>
      let push (s : State) (c : Byte) : State :=
        modTile s t fun T => modQueue T q fun Q => { Q with inb := Q.inb ++ [(BitVec.ofNat 32 n, c)] }
      if w.f.fmt = 5 then match vaByte s t k (some id) (scale.toNat + p / 64) with
        | (s, .ok c) => (push s c, .ok ())
        | (s, .wait) => (s, .wait)
        | (s, .fault c v) => (s, .fault c v)
      else (push s 0, .ok ())

/-- QDRAIN's element: taken, converted, and stored in bounds (R251, R258). Its flags are set as it moves, so that FPSRA may
show those of a later command before those of an earlier one that waits: the two run independently (R47, R233; DESIGN CHOICE,
log 67). -/
def drainElem (s : State) (t : TileId) (k : Task) (id : Nat) (w : CopyWalk) (q : Fin 4) (p : Nat) : State × Got Unit :=
  let T := tileOf s t
  let Q := queueOf T q
  match Q.outb with
  | [] => (s, .wait)
  | e :: es =>
    let g := drawsFor T.a.gen (qRm Q.fmt) 1
    let r := cvt (qSnk Q.fmt) e.toNat (qSrc Q.fmt) (qRm Q.fmt) (qSat Q.fmt) (g.1.headD 0)
    match storeBits s t k id w.f (placeOf T w.f w.idx p) r.1 with
    | (s, .ok _) =>
      (modTile s t fun T => modQueue { T with a := { T.a with gen := g.2, fpsr := raised T.a.fpsr r.2 } } q
        fun Q => { Q with outb := es }, .ok ())
    | x => x

/-- Move element `c.pos` of a command: a load's bytes wait to land. -/
def moveElem (s : State) (t : TileId) (k : Task) (c : Cmd) (w : CopyWalk) : State × Got Unit :=
  let R := viewTile (tileOf s t) c
  match c.kind with
  | .qstream _ q scale => streamElem s t k c.id w q scale c.pos
  | .qdrain _ q => drainElem s t k c.id w q c.pos
  | _ =>
    if w.out then storeBits s t k c.id w.f (placeOf R w.f w.idx c.pos) (takeBits R w.f c.pos)
    else match loadBits s t k c.id w.f (sourceOf R w.f w.idx c.pos) with
      | (s, .ok n) =>
        (modTile s t fun T => modCmd T false c.id fun d => { d with pend := (landBits T w.f c.pos n).foldl granulePut d.pend }, .ok ())
      | (s, .wait) => (s, .wait)
      | (s, .fault x v) => (s, .fault x v)

/-! ### Counters (R245 to R247, R336) -/

/-- Buffer an increment of a global counter (R138, R247, R336). -/
def bufferIncr (s : State) (t : TileId) (k : Task) (id : Option Nat) (va : Nat) (v : Word) : State × Got Unit :=
  match accessXlat s t k id va .write with
  | (s, .ok (ipa, _)) =>
    let T := tileOf s t
    if 256 ≤ T.effects.length then (s, .fault causePublishFull (bufferedBytes T))
    else (setTile s t { T with effects := T.effects ++ [.incr k.vf ipa v] }, .ok ())
  | (s, .error x) => (s, xlatGot va x)

/-- A command with PROG. -/
def isProg : CmdKind → Bool
  | .copyin _ p => p
  | .copyout _ p => p
  | .nest _ _ p => p
  | .gath _ _ p => p
  | .scat _ _ p => p
  | _ => false

/-- Bring a scratchpad counter up to `n` bytes of the command (R247). -/
def creditTo (T : Tile) (onM : Bool) (c : Cmd) (n : Nat) : Tile :=
  match counterSpec c.cspec with
  | .scratch o => modCmd (spadAdd T onM c.id o (word (n - c.credited))) onM c.id fun c => { c with credited := max c.credited n }
  | _ => T

/-- An earlier command still has to write where a command's counter stands: an element, a result, or a counter elsewhere
(R233). Advances of one counter may come in any order. -/
def counterBlocked (s : State) (t : TileId) (k : Task) (onM : Bool) (c : Cmd) : Bool :=
  match counterSpec c.cspec with
  | .scratch o =>
    let T := tileOf s t
    let places := winPlaces T o 16
    (earlierCmds T onM c.id).any fun d => elementBlocks s t k { spad := places, keys := [] } d ||
      meets places (fixedPlaces T (if counterSpec d.cspec = .scratch o then { d with cspec := 0 } else d))
  | _ => false

/-- The bytes that a command's counter advances by (R247, R252, R255). -/
def advanceOf (s : State) (t : TileId) (c : Cmd) : Nat :=
  match c.kind with
  | .mlr _ _ d bf => mlrBytes d bf
  | .mst _ _ d => groupCountOf d * c.pos
  | kind => iterations kind * bytesFor (walkCount kind) (advanceBits (tileOf s t) kind)

/-- Elements of the iteration in progress that are over, up to the first whose bytes have not landed. -/
def landedPrefix (T : Tile) (w : CopyWalk) (c : Cmd) : Nat :=
  if w.out then c.pos
  else ((List.range c.pos).takeWhile fun p => !meetsPend (landingPlaces T w.f p) c).length

/-- The progressive counter of command `id` gains what has landed; the last of the advance comes at its completion (R246,
R247). -/
def creditProg (s : State) (t : TileId) (k : Task) (id : Nat) : State :=
  match findCmd (tileOf s t) false id with
  | none => s
  | some c => match walkOf c.kind c.iter with
    | none => s
    | some w =>
      if isProg c.kind ∧ counterBlocked s t k false c = false then
        modTile s t fun T => creditTo T false c (min (advanceOf s t c - 1)
          (bytesFor (c.iter * windowCount w.f + landedPrefix T w c) (advanceBits T c.kind)))
      else s

/-! ### MLR and MST (R259 to R261) -/

/-- Each member's answer to a command's access. -/
def groupAnswers (s : State) (ms : List Member) (roff len : Nat) : List (Member × Answer) :=
  ms.map fun m => (m, if m.bad then .absent else answerOf s m.dev m.rvf m.key (m.base + roff) len)

/-- The mask of absent members; a retry-later answer counts once its ticks have run out (R406). -/
def absentMask (late : Bool) (as : List (Member × Answer)) : Nat :=
  (as.map fun a => if a.2 = .absent ∨ (a.2 = .later ∧ late = true) then 2 ^ a.1.m else 0).sum

/-- One element of MLR: the fold over members, and its result (R260). -/
def reduceElem (s : State) (t : TileId) (ms : List Member) (roff fmt : Nat) (bf : Bool) (e : Nat) : Nat × Flags :=
  let n := fmtBits fmt / 8
  let r := ms.foldl (fun (a : Nat × Flags) m =>
    let x := leNat ((List.range n).map fun i => memberByte s t m.dev m.rvf (m.base + roff + e * n + i))
    let v := rounded 0 0 false 0 (num2 (addNum 0) (widen 0 a.1) (widen fmt x))
    (v.1, a.2 ||| v.2)) (0, 0)
  if bf then
    let b := cvt 0 r.1 1 0 false 0
    (b.1, r.2 ||| b.2)
  else r

/-- The first byte of a member of this device that ECC cannot correct. -/
def groupBad (s : State) (ms : List Member) (roff len : Nat) : Option Nat :=
  ms.findSome? fun m =>
    if m.dev = s.purlinId then badIn s ((vfOf s (Fin.ofNat 128 m.rvf)).segBase + m.base + roff) len else none

/-- MLR's results, in ascending order, wait to land (R249, R260). -/
def landReduced (s : State) (t : TileId) (id : Nat) (ms : List Member) (roff d : Word) (bf : Bool) : State :=
  let rs := (List.range (groupCountOf d)).map (reduceElem s t ms roff.toNat (groupFmt d) bf)
  let bytes := rs.flatMap fun r => leBytes (if bf then 2 else 4) r.1
  modTile s t fun T =>
    let bs := wholeBytes (winPlaces T (groupSpoff d) (mlrBytes d bf)) bytes
    addFlagsT (modCmd T false id fun c => { c with pend := bs }) .A (allFlags rs)

/-- Buffer MST's bytes for one member. -/
def bufferMember (s : State) (v : VfId) (T : Tile) (entry : Nat) (m : Member) (a : Nat) : List Byte → Got Tile
  | [] => .ok T
  | b :: bs =>
    let d : StoreDest := .member entry m.m m.dev m.rvf m.key
    if hasGranule T.stores d a = false ∧ 8192 ≤ T.stores.length then .fault causePublishFull (bufferedBytes T)
    else bufferMember s v { T with stores := bufferPut (dropCovered s v T.stores d a true true) d a true true b } entry m (a + 1) bs

def bufferMembers (s : State) (v : VfId) (T : Tile) (entry roff : Nat) (bs : List Byte) : List Member → Got Tile
  | [] => .ok T
  | m :: ms => match bufferMember s v T entry m (m.base + roff) bs with
    | .ok T => bufferMembers s v T entry roff bs ms
    | x => x

/-- The effect of MLR or MST once its members have answered. MST buffers the whole store or nothing, so TVAL of its
PUBLISH_FULL counts what stood in the buffer before it (DEDUCED, log 42). -/
def groupEffect (s : State) (t : TileId) (k : Task) (c : Cmd) (ms : List Member) : State × Got Unit :=
  match c.kind with
  | .mlr _ roff d bf => match groupBad s ms roff.toNat (groupCountOf d * (fmtBits (groupFmt d) / 8)) with
    | some a => (s, .fault causeEcc (word a))
    | none => (landReduced s t c.id ms roff d bf, .ok ())
  | .mst g roff d =>
    let T := tileOf s t
    match bufferMembers s k.vf T (g.toNat % 256) roff.toNat (winRead (viewTile T c) (groupSpoff d) (groupCountOf d)) ms with
    | .ok T => (setTile s t T, .ok ())
    | .wait => (s, .wait)
    | .fault x _ => (s, .fault x (bufferedBytes T))
  | _ => (s, .ok ())

/-- The whole of MLR or MST: members are asked, and either all serve or the mask of absent members
is kept. `pos` then holds the number of members. -/
def runGroup (s : State) (t : TileId) (k : Task) (c : Cmd) (roff len : Nat) : State × Got Unit :=
  let ms := groupMembers s k c
  let finish (s : State) (mask : Nat) : State :=
    modTile s t fun T => modCmd T false c.id fun c =>
      { c with iter := 1, pos := ms.length, absent := some (BitVec.ofNat 32 mask) }
  if len = 0 then (finish s 0, .ok ())
  else
    let as := groupAnswers s ms roff len
    if as.any (fun a => decide (a.2 = .held)) then (s, .wait)
    else if as.any (fun a => decide (a.2 = .later)) && !c.retryOver then
      (modTile s t fun T => modCmd T false c.id fun c => { c with retryTicks := some (c.retryTicks.getD 0) }, .wait)
    else if absentMask c.retryOver as ≠ 0 then (finish s (absentMask c.retryOver as), .ok ())
    else match groupEffect s t k c (as.map Prod.fst) with
      | (s, .ok _) => (finish s 0, .ok ())
      | x => x

/-! ### Running commands (R207, R229, R232, R233) -/

/-- Words that wait until every earlier command of their stream has completed (R229). -/
def waitsForAll : CmdKind → Bool
  | .pegp _ => true
  | .ctradd _ _ _ => true
  | _ => false

/-- The accumulator blocks that a command writes, as a mask (R220, R226). -/
def blocksOf : CmdKind → Word
  | .mma _ _ b _ => 1 <<< b.val
  | .accz m => m &&& 0xFFFF
  | _ => 0

/-- A command of the M engine waits for an earlier one that is not complete: for its effects on an accumulator block or a
superscale register, or for its completion (R207, R227, R228). -/
def waitsOn (k : CmdKind) (d : Cmd) : Bool :=
  match k with
  | .mma _ _ b _ => !d.landed && (decide (blocksOf d.kind &&& (1 <<< b.val) ≠ 0) || (match d.kind with
      | .scaleset _ _ => true
      | _ => false))
  | .accz m => !d.landed && decide (blocksOf d.kind &&& m ≠ 0)
  | .accdrain m => decide (blocksOf d.kind &&& m ≠ 0)
  | .scaleset _ _ => !d.landed && (match d.kind with
      | .mma _ _ _ _ => true
      | .scaleset _ _ => true
      | _ => false)
  | _ => false

/-- A command may start: every earlier one has, and a Porter runs four at once, of which a PEGP or a CTRADD that waits is none
(R207, R232, R233). While the task is halted, or halting, none starts (R118). -/
def mayStart (T : Tile) (onM : Bool) (c : Cmd) : Bool :=
  let es := earlierCmds T onM c.id
  decide (T.debug = .none) && es.all Cmd.started &&
    (onM || waitsForAll c.kind || decide ((es.filter fun d => !waitsForAll d.kind).length < 4))

/-- A command may have its effects: it has started or may start, and those whose effects or completion it follows are over
(R207, R223, R227 to R229). -/
def mayRun (T : Tile) (onM : Bool) (c : Cmd) : Bool :=
  let es := earlierCmds T onM c.id
  !c.landed && (c.started || mayStart T onM c) &&
    (if waitsForAll c.kind then es.isEmpty else !(onM && es.any (waitsOn c.kind)))

/-- A NEST iteration waits for its peg (R255). -/
def nestWaits (T : Tile) (c : Cmd) : Bool :=
  match c.kind with
  | .nest _ w _ => nestWaitEn w && decide (nestWaitLag w ≤ c.iter ∧
      (vget T.pegs (nestWaitPeg w)).toNat < c.iter - nestWaitLag w + 1)
  | _ => false

/-- Post a peg (R323). -/
def postPeg (T : Tile) (p : Fin 16) : Tile := { T with pegs := vset T.pegs p (vget T.pegs p + 1) }

/-- The post of an iteration of a NEST (R255). -/
def postIteration (T : Tile) (c : Cmd) : Tile :=
  match c.kind with
  | .nest _ w _ => if nestPostEn w then postPeg T (nestPostPeg w) else T
  | _ => T

/-- An iteration completes: what it has read has landed, and a NEST's counter advances by it and its peg is posted; those of
the last come as the command lands (R246, R255). -/
def endIteration (T : Tile) (c : Cmd) (n : Nat) : Tile :=
  let T := modCmd (landAll T false c) false c.id fun c => { c with iter := c.iter + 1, pos := 0, reads := [], view := none }
  match c.kind with
  | .nest _ _ _ => if c.iter + 1 < iterations c.kind then postIteration (creditTo T false c n) c else T
  | _ => T

/-- PREF fills the TLB with the pages of its range that are present, at most as many as the TLB holds (R262). -/
def prefetchPages (s : State) (t : TileId) (k : Task) (va : Nat) : Nat → State
  | 0 => s
  | n + 1 =>
    let s := if va < 2 ^ 56 ∧ (tlbFind (tileOf s t).tlb k.asid va).isNone ∧ (expertAt s k.vf va).isNone then
      (match walk s (some (dieOf t)) k.vf k.asid va with
       | .leaf e => modTile s t fun T => { T with tlb := tlbAdd T.tlb e }
       | _ => s) else s
    prefetchPages s t k (va / 2 ^ 16 * 2 ^ 16 + 2 ^ 16) n

/-- Pages that a range covers. -/
def pageSpan (va len : Nat) : Nat := if len = 0 then 0 else (va + len - 1) / 2 ^ 16 - va / 2 ^ 16 + 1

/-- The window bytes that MLR writes or MST reads. -/
def groupPlaces (T : Tile) : CmdKind → List Nat
  | .mlr _ _ d bf => winPlaces T (groupSpoff d) (mlrBytes d bf)
  | .mst _ _ d => winPlaces T (groupSpoff d) (groupCountOf d)
  | _ => []

/-- A command reads the scratchpad as it goes on. -/
def readsSpad (c : Cmd) : Bool :=
  match c.kind with
  | .mma _ _ _ _ => true
  | .mst _ _ _ => true
  | k => usesWindow k && (walkOf k 0).any fun w => w.out || w.idx.isSome

/-- A command begins what it does next: it has started, with ACQ it acquires before its first read (R235), it reads its
group's entry (R407), and it will read the scratchpad as it stands (R221, R249). -/
def beginCmd (s : State) (t : TileId) (k : Task) (onM : Bool) (c : Cmd) : State × Cmd :=
  let c' : Cmd :=
    { c with started := true, acq := false
             members := if (groupAccess c.kind).isSome then some (groupMembers s k c) else none
             view := if c.view.isSome ∨ readsSpad c = false then c.view else some (tileOf s t).spad }
  (modTile (if c.acq then acquire s t c.scope else s) t fun T => modCmd T onM c.id fun _ => c', c')

/-- A command without a window is over. -/
def finishCmd (s : State) (t : TileId) (onM : Bool) (id : Nat) : State :=
  modTile s t fun T => modCmd T onM id fun c => { c with iter := 1 }

/-- One piece of a command that does not walk a window. -/
def atomicStep (s : State) (t : TileId) (k : Task) (onM : Bool) (c : Cmd) : State × Got Unit :=
  let fin (s : State) : State := finishCmd s t onM c.id
  match c.kind with
  | .mma a b blk _ =>
    if c.pos < groupCount a b then
      (modTile s t fun T => modCmd (groupStep T (viewTile T c) a b c.ahead blk c.pos) onM c.id
        fun c => { c with pos := c.pos + 1, ahead := fallBack c.ahead }, .ok ())
    else (fin s, .ok ())
  | .accz m => (fin (modTile s t fun T => zeroBlocks T m c.ahead), .ok ())
  | .scaleset b v => (fin (modTile s t fun T => if b then { T with ssb := v } else { T with ssa := v }), .ok ())
  | .pegp p => (fin (modTile s t fun T => postPeg T p), .ok ())
  | .ctradd false loc v => (fin (modTile s t fun T => spadAdd T onM c.id (loc.toNat / 8 * 8) v), .ok ())
  | .ctradd true loc v => match bufferIncr s t k (some c.id) loc.toNat v with
    | (s, .ok _) => (fin s, .ok ())
    | x => x
  | .pref a n => (fin (prefetchPages s t k a.toNat (min 1024 (pageSpan a.toNat n.toNat))), .ok ())
  | kind => match groupAccess kind with
    | some (_, r, n) => runGroup s t k c r n
    | none => (fin s, .ok ())

/-- What the one piece of MLR or MST touches. -/
def groupTouch (s : State) (t : TileId) (k : Task) (c : Cmd) : Touch :=
  { spad := groupPlaces (tileOf s t) c.kind, keys := groupKeys s k c }

/-! ### Landing (R235, R245 to R247) -/

/-- The frame of a command. -/
def frameOfKind (k : CmdKind) : Option Frame :=
  match k with
  | .nest f _ _ => some f
  | k => (walkOf k 0).map CopyWalk.f

/-- A completed command's status word (R246). -/
def statusWord (c : Cmd) : Word :=
  match c.absent with
  | some m => if m = 0 then 0 else word (2 + m.toNat * 2 ^ 32)
  | none => if (frameOfKind c.kind).any Frame.clamped then 1 else 0

/-- Earlier commands no longer write the status word at `o + 8` (R233). -/
def coverEarlier (T : Tile) (onM : Bool) (id o : Nat) : Tile :=
  (earlierCmds T onM id).foldl (fun T d =>
    if counterSpec d.cspec = .scratch o then modCmd T onM d.id fun d => { d with covered := true } else T) T

/-- The status word, then the counter's final advance (R246). -/
def landCounter (s : State) (t : TileId) (k : Task) (onM : Bool) (c : Cmd) : State × Got Unit :=
  let n := advanceOf s t c
  match counterSpec c.cspec with
  | .scratch o =>
    if counterBlocked s t k onM c then (s, .wait)
    else
      (modTile s t fun T =>
        let T := if c.covered then T else cmdPutWord T onM c.id (o + 8) (statusWord c)
        coverEarlier (spadAdd T onM c.id o (word (n - c.credited))) onM c.id o, .ok ())
  | .glob va => bufferIncr s t k (some c.id) va (word n)
  | _ => (s, .ok ())

/-- A command whose work is over lands, with the post of a NEST's last iteration; with REL it stays until its release has
completed (R235, R255). -/
def landCmd (s : State) (t : TileId) (k : Task) (onM : Bool) (c : Cmd) : State × Got Unit :=
  match landCounter (modTile s t fun T => landAll T onM c) t k onM c with
  | (s, .ok _) =>
    let s := modTile s t fun T => postIteration T c
    if c.rel then
      (beginPublish (modTile s t fun T => modCmd T onM c.id fun c => { c with landed := true }) t k (.release onM c.id) c.scope,
       .ok ())
    else (modTile s t fun T => dropCmd T onM c.id, .ok ())
  | x => x

/-! ### Steps of a command -/

/-- The next element of the copy in progress: it waits for what an earlier command still writes (R233). -/
def walkStep (s : State) (t : TileId) (k : Task) (onM : Bool) (c : Cmd) (w : CopyWalk) : State × Got Unit :=
  if blocked s t k onM c (touchOf s t k c w c.pos) then (s, .wait)
  else
    let b := beginCmd s t k onM c
    match moveElem b.1 t k b.2 w with
    | (s, .ok _) =>
      let s := modTile s t fun T => modCmd T onM c.id fun c => { c with pos := c.pos + 1 }
      (if w.out then creditProg s t k c.id else s, .ok ())
    | r => r

/-- The iteration in progress ends, once a NEST's counter may be written (R233, R255). -/
def closeIteration (s : State) (t : TileId) (k : Task) (onM : Bool) (c : Cmd) (w : CopyWalk) : State × Got Unit :=
  let isNest : Bool := match c.kind with
    | .nest _ _ _ => true
    | _ => false
  if isNest && counterBlocked s t k onM c then (s, .wait)
  else
    let b := beginCmd s t k onM c
    (modTile b.1 t fun T =>
      endIteration T b.2 ((c.iter + 1) * bytesFor (windowCount w.f) (advanceBits T c.kind)), .ok ())

/-- One piece of a command: an element, the end of an iteration, a group step, or its landing. -/
def stepCmd (s : State) (t : TileId) (k : Task) (onM : Bool) (c : Cmd) : State × Got Unit :=
  if iterations c.kind ≤ c.iter then landCmd s t k onM c
  else match walkOf c.kind c.iter with
    | none => match groupBadEntry s k c with
      | some a => (s, .fault causeEcc (word a))
      | none =>
        if (groupAccess c.kind).isSome ∧ blocked s t k onM c (groupTouch s t k c) = true then (s, .wait)
        else
          let b := beginCmd s t k onM c
          atomicStep b.1 t k onM b.2
    | some w =>
      if c.pos = 0 ∧ nestWaits (tileOf s t) c = true then (s, .wait)
      else if c.pos < windowCount w.f then walkStep s t k onM c w
      else closeIteration s t k onM c w

/-- A command's cause: the elements before it have landed (R248), and it ends the task, or is held while the task is halted
and the command goes no further (R111). -/
def cmdFault (s : State) (t : TileId) (onM : Bool) (c : Cmd) (cause : Nat) (val : Word) : State :=
  let s := modTile s t fun T => landAll T onM ((findCmd T onM c.id).getD c)
  let held := decide ((tileOf s t).debug ≠ .none)
  let s := tileTrapAt s t (if onM then 2 else 3) cause c.pc val c.issued
  if held then modTile s t fun T => dropCmd T onM c.id else s

/-- Up to `n` pieces of a command, as long as `go` holds of it. -/
def runCmd (go : Cmd → Bool) (s : State) (t : TileId) (onM : Bool) (id : Nat) : Nat → State
  | 0 => s
  | n + 1 => match (tileOf s t).task, findCmd (tileOf s t) onM id with
    | some k, some c =>
      if mayRun (tileOf s t) onM c && go c then
        match stepCmd s t k onM c with
        | (s, .ok _) => runCmd go s t onM id n
        | (s, .wait) => s
        | (s, .fault cause v) => cmdFault s t onM c cause v
      else s
    | _, _ => s

/-! ### What the order of turns chooses (R199, R221, R224, R233, R249) -/

/-- A command starts, or a NEST's next iteration does: those after it may start too, and it will read the scratchpad as it
stands, row by row as the turns choose (R221, R232, R233, R249). An iteration that waits for its peg has not begun to read. -/
def startCmd (s : State) (t : TileId) (onM : Bool) (id : Nat) : State :=
  match (tileOf s t).task, findCmd (tileOf s t) onM id with
  | some k, some c =>
    if c.landed = false ∧ (c.started ∨ mayStart (tileOf s t) onM c) ∧ c.iter < iterations c.kind ∧ groupBadEntry s k c = none then
      if nestWaits (tileOf s t) c then modTile s t fun T => modCmd T onM id fun c => { c with started := true }
      else (beginCmd s t k onM c).1
    else s
  | _, _ => s

/-- A turn of a command: up to `n` pieces, or its start alone. -/
def workTurn (s : State) (t : TileId) (onM : Bool) (id n : Nat) : State :=
  if n = 0 then startCmd s t onM id else runCmd (fun _ => true) s t onM id n

/-- Some element that the iteration in progress has still to move lands in a bank row. -/
def rowAwaits (T : Tile) (c : Cmd) (w : CopyWalk) (r : Nat) : Bool :=
  (List.range (windowCount w.f - c.pos)).any fun i => (landingPlaces T w.f (c.pos + i)).any fun a => decide (rowOf a = r)

/-- The bytes that a load has read for a bank row, or MLR's results there, land whole, ahead of its other rows (R249). -/
def rowTurn (s : State) (t : TileId) (id r : Nat) : State :=
  match (tileOf s t).task, findCmd (tileOf s t) false id with
  | some k, some c =>
    if (walkOf c.kind c.iter).any fun w => rowAwaits (tileOf s t) c w r then s
    else creditProg (modTile s t fun T => landWhere T c fun a => decide (rowOf a = r)) t k id
  | _, _ => s

/-- Scratchpad bytes that element `p` of a walk reads: a store's element, and the entry of an index list. -/
def readPlaces (T : Tile) (w : CopyWalk) (p : Nat) : List Nat :=
  (if w.out then landingPlaces T w.f p else []) ++
  (match w.idx with
   | some i => winPlaces T (i / 4 * 4 + 4 * (positionOf w.f p).getD 1 0) 4
   | none => [])

/-- A command has already read from a bank row. -/
def rowUsed (T : Tile) (c : Cmd) (r : Nat) : Bool :=
  let inRow (as : List Nat) : Bool := as.any fun a => decide (rowOf a = r)
  match c.kind with
  | .mma a b _ _ =>
    (List.range (c.pos + (c.ahead.map Prod.snd).foldl max 0)).any fun g => inRow (stepPlaces T a b g)
  | _ => match walkOf c.kind c.iter with
    | some w => (List.range c.pos).any fun p => inRow (readPlaces T w p)
    | none => false

/-- A command will read bank row `r` as it now stands, if it has not read from it (R221, R249). -/
def rowReadTurn (s : State) (t : TileId) (onM : Bool) (id r : Nat) : State :=
  modTile s t fun T => match findCmd T onM id with
    | none => T
    | some c =>
      if rowUsed T c r then T
      else modCmd T onM id fun c => { c with view := c.view.map fun m => mwrite m (16 * r) (mread T.spad (16 * r) 16) }

/-- Element `n` of the block of a running MMA takes its next group step ahead of the others (R199); that of a running ACCZ,
counted through the blocks, becomes +0 (R226). -/
def elementTurn (s : State) (t : TileId) (id n : Nat) : State :=
  modTile s t fun T => match findCmd T true id with
    | none => T
    | some c => match c.kind with
      | .mma a b blk _ =>
        let g := c.pos + tget 0 c.ahead n
        if mayRun T true c ∧ c.view.isSome ∧ g < groupCount a b ∧ inProduct a b n = true ∧ n < 8192 then
          modCmd (elementStep T (viewTile T c) a b blk g n) true id
            fun c => { c with ahead := tset 0 c.ahead n (tget 0 c.ahead n + 1) }
        else T
      | .accz m =>
        if mayRun T true c ∧ c.started ∧ c.iter = 0 ∧ n < 131072 ∧ m.getLsbD (n / 8192) ∧ tget 0 c.ahead n = 0 then
          modCmd (zeroElement T n) true id fun c => { c with ahead := tset 0 c.ahead n 1 }
        else T
      | _ => T

/-- The two computations of the next group step of an MMA with RED differ (R224): no element takes it or a later one. -/
def mismatchTurn (s : State) (t : TileId) (id : Nat) : State :=
  match findCmd (tileOf s t) true id with
  | none => s
  | some c => match c.kind with
    | .mma a b blk true =>
      if c.view.isSome ∧ c.ahead = [] ∧ c.pos < groupCount a b ∧ mayRun (tileOf s t) true c = true then
        cmdFault s t true c causeRedundant (word (blk.val + c.pos * 2 ^ 32))
      else s
    | _ => s

/-- A command reads a store of its tile as it runs: operands, scales and accumulators for an MMA, and on the Porter the
scratchpad, a counter there, or the publish buffer that a read of memory looks into (R230, R263). -/
def readsStores (c : Cmd) : Bool :=
  (match counterSpec c.cspec with
   | .scratch _ => true
   | _ => false) ||
  match c.kind with
  | .accz _ => false
  | .accdrain _ => false
  | .scaleset _ _ => false
  | .pegp _ => false
  | .ctradd isGlobal _ _ => !isGlobal
  | .pref _ _ => false
  | _ => true

/-- A running command reads a store of its tile that ECC cannot correct (R230, R263, R428). -/
def eccCommandTurn (s : State) (t : TileId) (onM : Bool) (id : Nat) (addr : Word) : State :=
  match findCmd (tileOf s t) onM id with
  | none => s
  | some c => if c.started ∧ c.landed = false ∧ readsStores c then cmdFault s t onM c causeEcc addr else s

/-! ### Steps of the device -/

/-- Pieces that a whole command takes at most. -/
def piecesOf (c : Cmd) : Nat :=
  iterations c.kind * (walkCount c.kind + 1) + 2 + (match c.kind with
    | .mma a b _ _ => groupCount a b
    | _ => 0)

/-- A command runs to its completion, or as far as it gets (R207, R235). -/
def execCommandCompletion (t : TileId) (onM : Bool) (id : Nat) (s : State) : Result :=
  match findCmd (tileOf s t) onM id with
  | none => .next s
  | some c => .next (runCmd (fun _ => true) s t onM id (piecesOf c))

/-- The iteration in progress of a NEST completes (R255). -/
def execNestIteration (t : TileId) (id : Nat) (s : State) : Result :=
  match findCmd (tileOf s t) false id with
  | none => .next s
  | some c =>
    if c.iter < iterations c.kind ∧ (walkOf c.kind 0).isSome then
      .next (runCmd (fun d => decide (d.iter = c.iter)) s t false id (walkCount c.kind + 1))
    else .next s

/-- The retry-later answers of an MLR or MST have run out: the members that gave them are absent (R406). -/
def execPurlinRetryExpiry (t : TileId) (id : Nat) (s : State) : Result :=
  match findCmd (tileOf s t) false id with
  | none => .next s
  | some c =>
    if c.started ∧ 10000 ≤ c.retryTicks.getD 0 then
      .next (modTile s t fun T => modCmd T false id fun c => { c with retryOver := true })
    else .next s

/-! ### Launch words (R252 to R262) -/

/-- A word that reads a frame record: the record's checks, then the counter specifier's. -/
def frameWord (T : Tile) (o spec : Word) (mk : Frame → Except (Nat × Word) CmdKind) : Except (Nat × Word) Launch :=
  match readFrame T o with
  | .error e => .error e
  | .ok f => match mk f with
    | .error e => .error e
    | .ok k => specChecked spec { kind := k, clamped := f.clamped }

/-- COPYIN. -/
def execCopyin (q r : Bool) (sc : Fin 4) (p : Bool) (s : State) : Result :=
  onStream s (.copyin q r sc p) .A fun t _ => command s (.copyin q r sc p) t .A 2 q r sc fun as =>
    frameWord (tileOf s t) (recw as 1) (recw as 0) fun f => .ok (.copyin f p)

/-- COPYOUT. -/
def execCopyout (q r : Bool) (sc : Fin 4) (p : Bool) (s : State) : Result :=
  onStream s (.copyout q r sc p) .A fun t _ => command s (.copyout q r sc p) t .A 2 q r sc fun as =>
    frameWord (tileOf s t) (recw as 1) (recw as 0) fun f => .ok (.copyout f p)

/-- NEST. -/
def execNest (q r : Bool) (sc : Fin 4) (p : Bool) (s : State) : Result :=
  onStream s (.nest q r sc p) .A fun t _ => command s (.nest q r sc p) t .A 2 q r sc fun as =>
    match readNest (tileOf s t) (recw as 1) with
    | .error e => .error e
    | .ok (f, w) => specChecked (recw as 0) { kind := .nest f w p, clamped := f.clamped }

/-- The frame of GATH and SCAT has RANK 2 or more (R256). -/
def indexed (f : Frame) (k : CmdKind) : Except (Nat × Word) CmdKind :=
  if f.rank < 2 then .error (causeInvalid, word f.off) else .ok k

/-- GATH. -/
def execGath (q r : Bool) (sc : Fin 4) (p : Bool) (s : State) : Result :=
  onStream s (.gath q r sc p) .A fun t _ => command s (.gath q r sc p) t .A 3 q r sc fun as =>
    frameWord (tileOf s t) (recw as 2) (recw as 0) fun f => indexed f (.gath f (recw as 1).toNat p)

/-- SCAT. -/
def execScat (q r : Bool) (sc : Fin 4) (p : Bool) (s : State) : Result :=
  onStream s (.scat q r sc p) .A fun t _ => command s (.scat q r sc p) t .A 3 q r sc fun as =>
    frameWord (tileOf s t) (recw as 2) (recw as 0) fun f => indexed f (.scat f (recw as 1).toNat p)

/-- QSTREAM: the frame's format is the queue's source format (R250, R257). -/
def execQstream (q r : Bool) (sc : Fin 4) (n : Fin 4) (s : State) : Result :=
  onStream s (.qstream q r sc n) .A fun t _ => command s (.qstream q r sc n) t .A 3 q r sc fun as =>
    let T := tileOf s t
    let m := (queueOf T n).fmt
    frameWord T (recw as 2) (recw as 0) fun f =>
      if qStreamOk m ∧ f.fmt = qSrc m then .ok (.qstream f n (recw as 1)) else .error (causeQueueFormat, word n.val)

/-- QDRAIN (R250, R258). -/
def execQdrain (q r : Bool) (sc : Fin 4) (n : Fin 4) (s : State) : Result :=
  onStream s (.qdrain q r sc n) .A fun t _ => command s (.qdrain q r sc n) t .A 2 q r sc fun as =>
    let T := tileOf s t
    let m := (queueOf T n).fmt
    frameWord T (recw as 1) (recw as 0) fun f =>
      if qDrainOk m ∧ f.fmt = qSrc m then .ok (.qdrain f n) else .error (causeQueueFormat, word n.val)

/-- The entry that a group operand selects has no member (R259, R407). -/
def freeGroup (s : State) (k : Task) (g : Word) : Bool := (membersOf s k.part (g.toNat % 256)).isEmpty

/-- MLR: the group, the descriptor, roff, and the specifier are checked (R259). -/
def execMlr (q r : Bool) (sc : Fin 4) (b : Bool) (s : State) : Result :=
  onStream s (.mlr q r sc b) .A fun t k => command s (.mlr q r sc b) t .A 4 q r sc fun as =>
    let g := recw as 3
    let roff := recw as 2
    let d := recw as 1
    if freeGroup s k g then .error (causeInvalid, g)
    else if bfld d 63 48 ≠ 0 ∨ bfld d 31 25 ≠ 0 ∨ 5 ≤ groupFmt d then .error (causeInvalid, d)
    else if roff.toNat % (fmtBits (groupFmt d) / 8) ≠ 0 then .error (causeMisaligned, roff)
    else specChecked (recw as 0) { kind := .mlr g roff d b }

/-- MST (R259). -/
def execMst (q r : Bool) (sc : Fin 4) (s : State) : Result :=
  onStream s (.mst q r sc) .A fun t k => command s (.mst q r sc) t .A 4 q r sc fun as =>
    let g := recw as 3
    let d := recw as 1
    if freeGroup s k g then .error (causeInvalid, g)
    else if bfld d 63 48 ≠ 0 ∨ bfld d 31 25 ≠ 0 ∨ groupFmt d ≠ 0 then .error (causeInvalid, d)
    else specChecked (recw as 0) { kind := .mst g (recw as 2) d }

/-- PREF (R262). -/
def execPref (q r : Bool) (sc : Fin 4) (s : State) : Result :=
  onStream s (.pref q r sc) .A fun t _ => command s (.pref q r sc) t .A 2 q r sc fun as =>
    .ok { kind := .pref (recw as 1) (recw as 0) }

end Sys2Proof.Machine
end

