-- ==== Sys2Proof/Machine/Barrier.lean ====
section
/-! DEFINITION. Starting, joining and ending streams, commit points, checkpoints, pegs, barriers, fences, counter waits
and counter additions (05 R133 to R145; 07 R229; 10 R297, R298; 11 R321 to R338). -/

namespace Sys2Proof.Machine

/-! ### FORK, JOIN and END (R133 to R136) -/

/-- A stream of the forked set: started and not yet collected. -/
def forked (T : Tile) (st : Stream) : Bool := decide ((strm T st).run ≠ .idle)

/-- The forked set is empty. -/
def noneForked (T : Tile) : Bool := !forked T .V && !forked T .M && !forked T .A

/-- The streams that FORK's mask names: bit 0 V, bit 1 M, bit 2 A. -/
def forkStreams (m : Fin 8) : List Stream :=
  (if m.val % 2 = 1 then [.V] else []) ++ (if m.val / 2 % 2 = 1 then [.M] else []) ++ (if m.val / 4 = 1 then [.A] else [])

/-- Where a stream's offset stands after xa. -/
def forkIndex : Stream → Nat
  | .M => 1
  | .A => 2
  | _ => 0

/-- The start address of a stream. -/
def forkTarget (T : Tile) (k : Task) (a : XReg) (st : Stream) : Word :=
  k.entry + xget T.x (Fin.ofNat 64 (a.val + forkIndex st))

/-- The alignment of a stream's words. -/
def forkAlign : Stream → Nat
  | .V => 4
  | _ => 2

/-- Start one stream (R133): its pc, its FPCR copy, its generator, empty stack and counters; V's bypass names are dead,
and M's superscales are 1.0 (R58). -/
def startStream (T : Tile) (st : Stream) (pc : Word) : Tile :=
  let c := strm T st
  let T := setStrm T st { c with pc := pc, run := .running, fpcr := T.s.fpcr, gen := seeded T.s.fpcr st, stack := [],
                                 l0 := 0, l1 := 0, stall := none }
  match st with
  | .V => { T with bypass := [], vloops := [] }
  | .M => { T with ssa := 0x3F800000, ssb := 0x3F800000 }
  | _ => T

/-- FORK (R133). -/
def execFork (a : XReg) (m : Fin 8) (s : State) : Result :=
  onTileS s (.fork a m) fun t k => checked s (.fork a m)
    (let T := tileOf s t
     let sts := forkStreams m
     if sts.any (forked T) then illegal s (.fork a m)
     else match sts.find? fun st => decide ((forkTarget T k a st).toNat % forkAlign st ≠ 0) with
       | some st => raise s causeMisaligned (forkTarget T k a st)
       | none => done4 (setTile s t (sts.foldl (fun U st => startStream U st (forkTarget T k a st)) T)))

/-- A stream leaves the forked set. -/
def collect (T : Tile) (st : Stream) : Tile := modStrm T st fun c => { c with run := .idle }

/-- JOIN (R134): it waits until every stream of the forked set has ended. -/
def execJoin (s : State) : Result :=
  onTileS s .join fun t _ =>
    let T := tileOf s t
    if [Stream.V, .M, .A].all fun st => !forked T st || decide ((strm T st).run = .ended) then
      done4 (setTile s t (collect (collect (collect T .V) .M) .A))
    else .next s

/-- Change what the S stream of a tile waits for. -/
def setWait (s : State) (t : TileId) (w : SWait) : State := modTile s t fun T => { T with sWait := w }

/-- END on the S stream (R136): a commit point at SYSTEM scope. Elements left in the queues are discarded. -/
def execTaskEnd (s : State) : Result :=
  onTileS s .taskEnd fun t k =>
    if noneForked (tileOf s t) then
      let s1 := setWait (beginPublish s t k .taskEnd 3) t .ended
      done4 (modTile s1 t fun T => { T with queues := T.queues.map fun q => { fmt := q.fmt } })
    else illegal s .taskEnd

/-- END of an M or A stream (R135). -/
def execEngineEnd (s : State) : Result :=
  onEngine s .engineEnd fun t st _ => done2 (modTile s t fun T => modStrm T st fun c => { c with run := .ending })

/-- A stream whose END has issued, and whose commands have completed, has ended (R135). -/
def execStreamEnd (t : TileId) (st : Stream) (s : State) : Result :=
  let T := tileOf s t
  let left := match st with
    | .M => T.cmdsM
    | .A => T.cmdsA
    | _ => []
  if (strm T st).run = .ending ∧ left = [] then
    .next (modTile s t fun T => modStrm T st fun c => { c with run := .ended })
  else .next s

/-! ### Checkpoints (R140 to R145, R298) -/

/-- The live-range table at an offset: the header and its range words (R141). -/
def ckptTable (T : Tile) (o : Nat) : List Word := winWords T o (1 + ckptRanges (winWord T o))

/-- A reserved bit of the table is set. -/
def ckptReserved (ws : List Word) : Bool :=
  let h := recw ws 0
  decide (bfld h 63 40 ≠ 0 ∨ bfld h 23 17 ≠ 0 ∨ bfld h 15 6 ≠ 0) || ws.tail.any fun r => decide (bfld r 63 43 ≠ 0)

/-- The table is invalid for a task (R140). -/
def ckptInvalid (k : Task) (ws : List Word) : Bool :=
  let h := recw ws 0
  decide (32 < ckptRanges h) || ws.tail.any (fun r => decide (2 ^ k.log2 < bfld r 42 21)) ||
    (allFin 16).any fun c => (ckptAcc h).testBit c.val && !k.acc.getLsbD c.val

/-- CKPT (R140, R142): after its checks it publishes at SYSTEM scope. -/
def execCkpt (a : XReg) (i : BitVec 13) (s : State) : Result :=
  onTileS s (.ckpt a i) fun t k =>
    let T := tileOf s t
    let o := ((rx s a + sx i).toNat / 8 * 8) % 2 ^ k.log2
    let ws := ckptTable T o
    if noneForked T = false then illegal s (.ckpt a i)
    else if ckptReserved ws then raise s causeReserved (word o)
    else if ckptInvalid k ws then raise s causeInvalid (word o)
    else done4 (setWait (beginPublish s t k (.ckpt ws) 3) t .publish)

/-- What the member on a tile has saved in step 2; not while its task is halted (R118). -/
def ckptReady (s : State) (t : TileId) : Option Checkpoint :=
  let T := tileOf s t
  match T.sWait, T.debug with
  | .saved c, .none => some c
  | _, _ => none

/-- The member goes on after its checkpoint: a new region begins (R142). -/
def afterCkpt (s : State) : List TileId → State
  | [] => s
  | t :: ts => afterCkpt (acquire (modTile s t fun T =>
      { T with sWait := .none, task := T.task.map fun k => { k with irrevocable := false } }) t 3) ts

/-- Step 3 in every member (R142, R298). With PREQ pending the gang leaves its tiles (R145). -/
def execCheckpointCommit (gang : Nat) (s : State) : Result :=
  match gangOf s gang with
  | none => .next s
  | some g =>
    if g.state = .running ∧ g.tiles.all fun t => (ckptReady s t).isSome then
      let s1 := modGang (afterCkpt s g.tiles) gang fun x => { x with ckpts := g.tiles.filterMap (ckptReady s) }
      if g.preq then
        .next (modGang (clearTiles s1 g.tiles) gang (requeued s1))
      else .next s1
    else .next s

/-! ### Phases, barriers and fences (R332 to R335) -/

/-- PHASE (R334). -/
def execPhase (sc : Fin 4) (s : State) : Result :=
  onTileS s (.phase sc) fun t k => done4 (setWait (beginPublish s t k .phase sc) t .publish)

/-- BAR (R332): it publishes first where P is set, and then arrives at the next generation. -/
def execBar (p : Bool) (sc : Fin 4) (s : State) : Result :=
  onTileS s (.bar p sc) fun t k => checked s (.bar p sc)
    (if p then done4 (setWait (beginPublish s t k .bar sc) t .publish)
     else done4 (modTile s t fun T => { T with sWait := .bar 1, task := some { k with barGen := k.barGen + 1 } }))

/-- The scope of the acquire with which a member's BAR ends, beside that at GANG, while it waits there. -/
def barScope (s : State) (t : TileId) : Option (Fin 4) :=
  match (tileOf s t).sWait with
  | .bar sc => some sc
  | _ => none

/-- A member waits at BAR. -/
def atBar (s : State) (t : TileId) : Bool := (barScope s t).isSome

/-- A member does not hold the barrier back: it waits there or has ENDED, and is not halted (R333). -/
def barReady (s : State) (t : TileId) : Bool :=
  (atBar s t || (tileOf s t).task.any Task.hasEnded) && decide ((tileOf s t).debug = .none)

/-- Members that wait go on, each with an acquire at GANG; one of BAR.P begins a phase with an acquire at its scope (R318). -/
def releaseBar (s : State) : List TileId → State
  | [] => s
  | t :: ts => releaseBar (match barScope s t with
      | some sc => acquire (acquire (setWait s t .none) t sc) t 1
      | none => s) ts

/-- The barrier completes in every waiting member (R332, R333). -/
def execBarComplete (gang : Nat) (s : State) : Result :=
  match gangOf s gang with
  | none => .next s
  | some g => if g.state = .running ∧ g.tiles.all (barReady s) then .next (releaseBar s g.tiles) else .next s

/-- FENCE (R335): a tile's S stream acquires at the scope. A thread's accesses are readable as they are made (R320). -/
def execFence (sc : Fin 4) (s : State) : Result :=
  scalar s (.fence sc) (match s.cur with
    | .tile t _ => done4 (acquire s t sc)
    | .thread _ => done4 s)

/-- The engine FENCE waits for the stream's commands, and acquires (R337). -/
def execEngineFence (sc : Fin 4) (s : State) : Result :=
  onEngine s (.engineFence sc) fun t st _ => if cmdsOf (tileOf s t) (isM st) = [] then done2 (acquire s t sc) else .next s

/-! ### Pegs and WAITC (R323, R327, R331, R337) -/

/-- PEGP. -/
def execPegp (p : Fin 16) (s : State) : Result :=
  onTileS s (.pegp p) fun t _ => done4 (modTile s t fun T => postPeg T p)

/-- PEGW. -/
def execPegw (a : XReg) (p : Fin 16) (s : State) : Result :=
  onTileS s (.pegw a p) fun t _ => if (rx s a).toNat ≤ (vget (tileOf s t).pegs p).toNat then done4 s else .next s

/-- WAITC on the S stream counts both engines (R326). -/
def execWaitc (l sf c o : Fin 16) (s : State) : Result :=
  onTileS s (.waitc l sf c o) fun t _ =>
    let T := tileOf s t
    let n (x : Nat) : Nat := outstanding T.cmdsM x + outstanding T.cmdsA x
    if n 0 ≤ l.val ∧ n 1 ≤ sf.val ∧ n 2 ≤ c.val ∧ n 3 ≤ o.val then done4 s else .next s

/-- The engine PEGP is a command (R229). -/
def execEnginePegp (p : Fin 16) (s : State) : Result :=
  onEngine s (.enginePegp p) fun t st _ => command s (.enginePegp p) t st 0 false false 0 fun _ => .ok { kind := .pegp p }

/-- The engine PEGW waits with its count on the stack (R229). -/
def execEnginePegw (p : Fin 16) (s : State) : Result :=
  onEngine s (.enginePegw p) fun t st _ => withStack s (.enginePegw p) t st 1 fun as ws =>
    if (recw as 0).toNat ≤ (vget (tileOf s t).pegs p).toNat then done2 (setStack s t st ws) else .next s

/-- The engine WAITC counts its own stream's commands (R229). -/
def execEngineWaitc (c : Fin 4) (n : Fin 16) (s : State) : Result :=
  onEngine s (.engineWaitc c n) fun t st _ =>
    if outstanding (cmdsOf (tileOf s t) (isM st)) c.val ≤ n.val then done2 s else .next s

/-! ### CTRADD (R229, R336, R337) -/

/-- CTRADD.LOCAL of an engine stream. -/
def execEngineCtraddLocal (q r : Bool) (sc : Fin 4) (s : State) : Result :=
  onEngine s (.engineCtraddLocal q r sc) fun t st _ => command s (.engineCtraddLocal q r sc) t st 2 q r sc fun as =>
    .ok { kind := .ctradd false (recw as 1) (recw as 0) }

/-- CTRADD.GLOBAL of an engine stream: the location is checked at issue (R337). -/
def execEngineCtraddGlobal (q r : Bool) (sc : Fin 4) (s : State) : Result :=
  onEngine s (.engineCtraddGlobal q r sc) fun t st _ => command s (.engineCtraddGlobal q r sc) t st 2 q r sc fun as =>
    let loc := recw as 1
    if loc.toNat % 8 ≠ 0 then .error (causeMisaligned, loc)
    else if 2 ^ 56 ≤ loc.toNat then .error (causePermission, loc)
    else .ok { kind := .ctradd true loc (recw as 0) }

/-- CTRADD.LOCAL (R336). -/
def execCtraddLocal (a b : XReg) (s : State) : Result :=
  scalar s (.ctraddLocal a b)
    (let o := (rx s a).toNat / 8 * 8
     done4 (localWrite s o (leBytes 8 (word (leNat (localRead s o 8)) + rx s b).toNat)))

/-- A thread's addition at a physical address, at once (R320, R325). -/
def threadAdd (s : State) (th : ThreadId) (va w : Word) (pa : Nat) : Result :=
  match windowCtr s pa with
  | some (c, _) => if ctrHeld s c then .next s else done4 (addCounter (atomicSeen s th pa) c w)
  | none => match spaceRead s th pa 8 with
    | none => raise s causeSegment va
    | some v => match spaceWrite (atomicSeen s th pa) th pa 8 (word v + w).toNat with
      | none => raise s causeSegment va
      | some s1 => done4 s1

/-- CTRADD.GLOBAL (R336): a tile buffers the increment; a thread applies it. -/
def execCtraddGlobal (a b : XReg) (s : State) : Result :=
  let i : Instr := .ctraddGlobal a b
  let va := rx s a
  scalar s i
    (if va.toNat % 8 ≠ 0 then raise s causeMisaligned va
     else if 2 ^ 56 ≤ va.toNat then raise s causePermission va
     else match s.cur with
       | .thread _ => globalAccess s i va 8 .write false fun th s1 pa => threadAdd s1 th va (rx s1 b) pa
       | .tile t _ => match (tileOf s t).task with
         | none => .next s
         | some k => match bufferIncr s t k none va.toNat (rx s b) with
           | (s1, .ok _) => done4 s1
           | (s1, .wait) => .next s1
           | (s1, .fault c v) => raise s1 c v)

/-! ### WAITV (R328 to R330) -/

/-- No time-out. -/
def noTimeout : Nat := 0xFFFFFFFFFFFF

/-- The conditions that a mask enables in a block's words. -/
def waitConds (ws : List Word) (m : Nat) : List WaitCond :=
  (List.range 4).filterMap fun i =>
    if m.testBit i then
      let spec := recw ws (1 + 2 * i)
      let g := decide (spec.toNat % 4 = 2)
      some { bit := i, isGlobal := g, loc := if g then bfld spec 55 3 * 8 else bfld spec 20 3 * 8,
             target := recw ws (2 + 2 * i) }
    else none

/-- The enabled specifiers of a block. -/
def waitSpecs (ws : List Word) (m : Nat) : List Word :=
  (List.range 4).filterMap fun i => if m.testBit i then some (recw ws (1 + 2 * i)) else none

/-- The counter of a condition (R319, R324): the task observes what has changed a global one (R316, R395). -/
def condValue (s : State) (t : TileId) (k : Task) (c : WaitCond) : State × Got Nat :=
  if c.isGlobal then match vaRead s t k none c.loc 8 with
    | (s, .ok bs) => ((match peekIpa s t k c.loc with
        | some ipa => (match stage2 s k.vf ipa with
          | .ok pa => observeAt s t pa
          | _ => s)
        | none => s), .ok (leNat bs))
    | (s, .wait) => (s, .wait)
    | (s, .fault x v) => (s, .fault x v)
  else (s, .ok (winWord (tileOf s t) c.loc).toNat)

/-- The mask of the conditions that hold. -/
def condsMet (s : State) (t : TileId) (k : Task) : List WaitCond → State × Got Nat
  | [] => (s, .ok 0)
  | c :: cs => match condValue s t k c with
    | (s, .ok v) => match condsMet s t k cs with
      | (s, .ok m) => (s, .ok (if c.target.toNat ≤ v then 2 ^ c.bit + m else m))
      | x => x
    | x => x

/-- The conditions that hold end the wait. -/
def waitOver (all : Bool) (mask m : Nat) : Bool := if all then decide (m = mask) else decide (m ≠ 0)

/-- WAITV returns. -/
def waitReturn (s : State) (t : TileId) (d : XReg) (w : Nat) : State :=
  modTile s t fun T => { T with x := xset T.x d (word w), sWait := .none, s := { T.s with pc := T.s.pc + 4 } }

/-- What WAITV answers where `m` of its conditions hold and `ticks` have counted, if it returns: at the tick that ends the
time-out the conditions come first, and later it has timed out (R330). -/
def waitAnswer (all : Bool) (mask timeout ticks m : Nat) : Option Nat :=
  if waitOver all mask m = true ∧ (timeout = noTimeout ∨ ticks ≤ timeout) then some m
  else if timeout ≤ ticks ∧ timeout ≠ noTimeout then some (m + 0x100)
  else none

/-- WAITV looks at its conditions: it returns, times out, or goes on waiting. Its return with a global condition acquires
at DEVICE. -/
def waitLook (s : State) (t : TileId) (k : Task) (d : XReg) (all : Bool) (mask : Nat) (cs : List WaitCond)
    (timeout ticks : Nat) : State :=
  match condsMet s t k cs with
  | (s1, .fault c v) => tileTrap s1 t 0 c (tileOf s1 t).s.pc v
  | (s1, .wait) => setWait s1 t (.waitv d all mask cs timeout ticks)
  | (s1, .ok m) => match waitAnswer all mask timeout ticks m with
    | some w => waitReturn (if cs.any WaitCond.isGlobal then acquire s1 t 2 else s1) t d w
    | none => setWait s1 t (.waitv d all mask cs timeout ticks)

/-- WAITV (R328 to R330). The pc stays at the word until it returns. -/
def execWaitv (d a : XReg) (l : Bool) (m : Fin 16) (s : State) : Result :=
  let i : Instr := .waitv d a l m
  onTileS s i fun t k => checked s i
    (let o := (rx s a).toNat / 8 * 8
     let ws := winWords (tileOf s t) o 9
     let specs := waitSpecs ws m.val
     if bfld (recw ws 0) 63 48 ≠ 0 then raise s causeReserved (word o)
     else if specs.any (fun w => decide (w.toNat % 4 = 0 ∨ w.toNat % 4 = 3)) then raise s causeInvalid (word o)
     else match specs.find? fun w => decide (w.toNat % 4 = 2 ∧ bfld w 63 56 ≠ 0) with
       | some w => raise s causePermission (w &&& ~~~(7 : Word))
       | none => .next (waitLook s t k d l m.val (waitConds ws m.val) (bfld (recw ws 0) 47 0) 0))

/-- The WAITV of a tile looks again; not while its task is halted (R118). -/
def waitAgain (t : TileId) (s : State) : Result :=
  let T := tileOf s t
  match T.task, T.sWait with
  | some k, .waitv d all mask cs timeout ticks =>
    if T.debug = .none then .next (waitLook s t k d all mask cs timeout ticks) else .next s
  | _, _ => .next s

/-- An enabled counter has changed: WAITV returns if its conditions hold (R330). -/
def execWaitvReturn (t : TileId) (s : State) : Result := waitAgain t s
/-- WAITV's ticks have run out (R330). -/
def execWaitvTimeout (t : TileId) (s : State) : Result := waitAgain t s

end Sys2Proof.Machine
end

