-- ==== Sys2Proof/Machine/Context.lean ====
section
/-! DEFINITION. CSRs, TRAP and SRET, partitions and virtual functions, debug halts and tear-down
(04 R92 to R125; 13 R414). -/

namespace Sys2Proof.Machine

/-! ### Creating a partition (R94) -/

/-- A reserved bit of a partition record is set. -/
def partReserved (w : List Word) : Bool :=
  decide (bfld (recw w 1) 63 48 ≠ 0 ∨ bfld (recw w 2) 63 48 ≠ 0 ∨ bfld (recw w 3) 63 48 ≠ 0 ∨ bfld (recw w 4) 63 48 ≠ 0 ∨
    bfld (recw w 5) 63 50 ≠ 0 ∨ bfld (recw w 5) 31 27 ≠ 0 ∨ bfld (recw w 5) 15 11 ≠ 0 ∨ bfld (recw w 6) 31 17 ≠ 0 ∨
    bfld (recw w 7) 63 58 ≠ 0 ∨ bfld (recw w 7) 31 17 ≠ 0)

/-- The partition that a record describes. -/
def partOfRecord (w : List Word) : Partition :=
  { state := 1, bays := recw w 0, carveBase := bfld (recw w 1) 47 0, carveSize := bfld (recw w 2) 47 0,
    loanBase := bfld (recw w 3) 47 0, loanSize := bfld (recw w 4) 47 0, jqShare := bfld (recw w 5) 49 32,
    thrCount := bfld (recw w 5) 26 16, thrFirst := bfld (recw w 5) 10 0, vfFirst := bfld (recw w 6) 63 57,
    vfCount := bfld (recw w 6) 56 49, ctrShare := bfld (recw w 6) 48 32, bkShare := bfld (recw w 6) 16 0,
    stewCount := bfld (recw w 7) 57 48, lodgeShare := bfld (recw w 7) 47 32, parlShare := bfld (recw w 7) 16 0 }

/-- A count lies between two bounds. -/
def within (lo hi n : Nat) : Bool := decide (lo ≤ n ∧ n ≤ hi)

/-- Sizes, bases and counts of a partition are in range (R94). -/
def partRanges (q : Partition) : Bool :=
  decide (q.bays ≠ 0 ∧ q.carveBase % frameSize = 0 ∧ q.carveSize % frameSize = 0 ∧ q.carveSize ≠ 0 ∧
    q.loanBase % frameSize = 0 ∧ q.loanSize % frameSize = 0 ∧ q.carveBase + q.carveSize ≤ hbmEnd ∧
    q.loanBase + q.loanSize ≤ hbmEnd ∧ q.vfFirst + q.vfCount ≤ 128 ∧ q.thrFirst + q.thrCount ≤ 1024) &&
  within 1 131072 q.jqShare && within 1 1008 q.thrCount && within 16 1023 q.thrFirst && within 1 128 q.vfCount &&
  within 1 65536 q.ctrShare && within 0 65536 q.bkShare && within 1 q.thrCount q.stewCount &&
  within 0 32768 q.lodgeShare && within 0 65536 q.parlShare && !overlaps q.carveBase q.carveSize q.loanBase q.loanSize

/-- Two partitions share a bay, a byte, a thread or a VF number (R93, R94). -/
def partClash (q r : Partition) : Bool :=
  decide (q.bays &&& r.bays ≠ 0) || overlaps q.carveBase q.carveSize r.carveBase r.carveSize ||
  overlaps q.carveBase q.carveSize r.loanBase r.loanSize || overlaps q.loanBase q.loanSize r.carveBase r.carveSize ||
  overlaps q.loanBase q.loanSize r.loanBase r.loanSize || overlaps q.thrFirst q.thrCount r.thrFirst r.thrCount ||
  overlaps q.vfFirst q.vfCount r.vfFirst r.vfCount

/-- The partitions that stand. -/
def liveParts (s : State) : List Partition := ((allFin 40).map (partOf s)).filter fun q => decide (q.state ≠ 0)

/-- The shares of every partition, and of one more, stay within the counts of R21. -/
def sharesFit (s : State) (q : Partition) : Bool :=
  let total (f : Partition → Nat) : Nat := f q + ((liveParts s).map f).sum
  decide (total (·.jqShare) ≤ 131072 ∧ total (·.ctrShare) ≤ 65536 ∧ total (·.bkShare) ≤ 65536 ∧
    total (·.lodgeShare) ≤ 32768 ∧ total (·.parlShare) ≤ 65536)

/-- The lowest run of `n` counters that no partition's share holds (DESIGN CHOICE, log 16): it starts at 0 or right after a
share. A share is one run, since R385 numbers its counters from a first one on. -/
def freeRun (rs : List (Nat × Nat)) (n : Nat) : Option Nat :=
  let ok (a : Nat) : Bool := decide (a + n ≤ 65536) && rs.all fun r => !overlaps a n r.1 r.2
  let starts := (0 :: rs.map fun r => r.1 + r.2).filter ok
  match starts with
  | [] => none
  | a :: as => some (as.foldl min a)

/-- The free runs between shares that ascend from `a` on. -/
def gapsFrom (a : Nat) : List (Nat × Nat) → List (Nat × Nat)
  | [] => [(a, 65536 - a)]
  | r :: rs => (a, r.1 - a) :: gapsFrom (r.1 + r.2) rs

/-- The first `n` numbers of some runs. -/
def takeRuns : List (Nat × Nat) → Nat → List (Nat × Nat)
  | [], _ => []
  | r :: rs, n =>
    if n = 0 then [] else if r.2 = 0 then takeRuns rs n else (r.1, min r.2 n) :: takeRuns rs (n - r.2)

/-- The lowest `n` bookings that no partition's share holds (DESIGN CHOICE, log 16). -/
def freeBookings (s : State) (n : Nat) : List (Nat × Nat) :=
  takeRuns (gapsFrom 0 (((liveParts s).flatMap Partition.bkRuns).insertionSort fun a b => a.1 ≤ b.1)) n

/-- Fresh contexts of a partition's threads: held, at their home levels (R93, R101, R379). -/
def freshThreads (s : State) (q : Partition) : List ThreadId → State
  | [] => s
  | n :: ns =>
    let l := if n.val < q.thrFirst + q.stewCount then 1 else 0
    freshThreads (setThr s n { level := l, home := l }) q ns

/-- Zero a run of counters and forget a run of bookings. -/
def clearShares (s : State) (q : Partition) : State :=
  { s with
    counters := s.counters.filter fun e => decide (e.1 < q.ctrFirst ∨ q.ctrFirst + q.ctrShare ≤ e.1)
    bookings := s.bookings.filter fun e => !inRuns q.bkRuns e.1 }

/-- PARTCTL CREATE of an ABSENT partition from a record; none rejects it (R94, R426). -/
def createPart (s : State) (p : PartId) (w : List Word) : Option State :=
  let q := partOfRecord w
  if partReserved w = true ∨ partRanges q = false ∨ (liveParts s).any (partClash q) = true ∨ sharesFit s q = false then none
  else (freeRun ((liveParts s).map fun r => (r.ctrFirst, r.ctrShare)) q.ctrShare).map fun c =>
    let q := { q with ctrFirst := c, bkRuns := freeBookings s q.bkShare, mr2 := extendMr 0 (sm3 (wordBytes w)) }
    clearShares (freshThreads (setPart s p q) q (threadsOf q)) q

/-! ### Creating a virtual function (R96, R97) -/

/-- A reserved bit of a VF record is set. -/
def vfReserved (w : List Word) : Bool :=
  decide (bfld (recw w 0) 63 48 ≠ 0 ∨ bfld (recw w 1) 63 48 ≠ 0 ∨ bfld (recw w 2) 31 18 ≠ 0 ∨ bfld (recw w 2) 63 50 ≠ 0 ∨
    bfld (recw w 4) 31 26 ≠ 0 ∨ bfld (recw w 4) 63 48 ≠ 0 ∨ bfld (recw w 5) 15 11 ≠ 0 ∨ bfld (recw w 5) 63 27 ≠ 0 ∨
    recw w 6 ≠ 0 ∨ recw w 7 ≠ 0)

/-- The VF that a record describes, in CREATED. -/
def vfOfRecord (p : PartId) (w : List Word) : Vf :=
  { state := 1, part := p, segBase := bfld (recw w 0) 47 0, segSize := bfld (recw w 1) 47 0, jqGuar := bfld (recw w 2) 17 0,
    jqBurst := bfld (recw w 2) 49 32, frGuar := bfld (recw w 3) 31 0, frBurst := bfld (recw w 3) 63 32,
    asidFirst := bfld (recw w 4) 7 0, asidCount := bfld (recw w 4) 15 8, faultThr := bfld (recw w 4) 25 16,
    weight := bfld (recw w 4) 47 32, gtFirst := bfld (recw w 5) 10 0, gtCount := bfld (recw w 5) 26 16 }

/-- The fields of a VF record are in range for its partition (R94 to R97). -/
def vfRanges (q : Partition) (f : Vf) : Bool :=
  decide (f.segBase % frameSize = 0 ∧ f.segSize % frameSize = 0 ∧ f.segSize ≠ 0 ∧ f.asidFirst + f.asidCount ≤ 255 ∧
    f.weight ≠ 0 ∧ q.thrFirst + q.stewCount ≤ f.gtFirst ∧ f.gtFirst + f.gtCount ≤ q.thrFirst + q.thrCount) &&
  inCarve q f.segBase f.segSize && within 1 1007 f.gtCount && ownsThread f f.faultThr

/-- Two VFs share a byte, a thread or an ASID (R94 to R97). -/
def vfClash (f g : Vf) : Bool :=
  overlaps f.segBase f.segSize g.segBase g.segSize || overlaps f.gtFirst f.gtCount g.gtFirst g.gtCount ||
  overlaps f.asidFirst (f.asidCount + 1) g.asidFirst (g.asidCount + 1)

/-- VFCTL CREATE of an ABSENT VF from a record; none rejects it (R96, R426). A FAULTED partition creates none (R117), nor
does one whose DELETE runs (R125), and breakpoints stay armed (R119). -/
def createVf (s : State) (p : PartId) (v : VfId) (w : List Word) : Option State :=
  let q := partOf s p
  let f := vfOfRecord p w
  let live := ((allFin 128).map (vfOf s)).filter fun g => decide (g.state ≠ 0)
  let guar := ((vfsOf s p).map fun o => (vfOf s o).jqGuar).sum
  if q.state ≠ 1 ∨ q.deleting.isSome ∨ vfReserved w = true ∨ vfRanges q f = false ∨ live.any (vfClash f) = true ∨
     q.jqShare < guar + f.jqGuar then none
  else some (setVf s v { f with mr4 := extendMr 0 (sm3 (wordBytes w)), breakpoints := (vfOf s v).breakpoints })

/-! ### Freezing (R99, R414) -/

/-- The result field of VFSTAT or PARTSTAT with its number. -/
def statWord (result num : Nat) : Word := word (result * 2 ^ 8 + num)

/-- A command in progress has completed: RESULT reads 0 while VFSTAT still names it. -/
def vfDone (s : State) (v : VfId) (n : Option ThreadId) : State :=
  match n with
  | none => s
  | some n => modThr s n fun h => if h.vfstat = statWord 2 v.val then { h with vfstat := statWord 0 v.val } else h

/-- A bound message that is not complete is abandoned: not every byte of it is placed or read (R389, R414). The bytes of a
launch packet are placed as it completes. -/
def abandoned (v : VfId) (m : InMessage) : Bool := decide (m.vf = v) && (m.launch || decide (m.received < m.total))

/-- The message that an accepted packet belongs to is abandoned. -/
def abandonedPacket (ms : List InMessage) (a : Nat × Nat × Nat) : Bool :=
  ms.any fun m => match m.context with
    | some (c, k, purlin) => decide (a.1 = 2 * c + (if purlin then 1 else 0) ∧ a.2.2 = k)
    | none => false

/-- Bound messages of a VF are abandoned, and their packets leave the receive state (R414). A launch packet has no sender to
repeat it: it is kept, to be matched again at UNFREEZE (R416, DEDUCED, log 33). -/
def abandonMessages (s : State) (v : VfId) : State :=
  let gone := (s.inbound.map Prod.snd).filter (abandoned v)
  { modVf s v fun f => { f with relaunch := f.relaunch ++ gone.filterMap InMessage.packet } with
    inbound := s.inbound.filter fun m => !abandoned v m.2
    accepted := s.accepted.filter fun a => !abandonedPacket gone a }

/-- FREEZE of a READY VF begins (R414): its tasks are pre-empted. -/
def freezeVf (s : State) (v : VfId) (n : ThreadId) (ctr : Option Nat) : State :=
  let s1 := modVf (abandonMessages s v) v fun f => { f with freezeCtr := some ctr, cmdThread := some n }
  preemptAll s1 true (s1.gangs.filter fun g => decide (g.2.vf = v))

/-- No task of the VF is on a tile and no handler of its Guest threads is active (R414). A complete message has been counted
by then, so that none is left for after the freeze (R416, DEDUCED, log 33). -/
def quiet (s : State) (v : VfId) : Bool :=
  s.gangs.all (fun g => decide (g.2.vf ≠ v) || g.2.tiles.isEmpty) && ((guestsOf s v).all fun n => (thrOf s n).handler.isNone) &&
    s.inbound.all fun m => decide (m.2.vf ≠ v)

/-- The VF becomes FROZEN (R99, R414). -/
def execFreezeComplete (vf : VfId) (s : State) : Result :=
  let f := vfOf s vf
  match f.freezeCtr with
  | none => .next s
  | some c =>
    if f.state = 2 ∧ quiet s vf then
      .next (addDone (vfDone (setVf s vf { f with state := 3, freezeCtr := none }) vf f.cmdThread) c)
    else .next s

/-- Links of each Lodging entry of a list re-enter (R367). -/
def reenterLodgings (s : State) : List (Nat × Lodging) → State
  | [] => s
  | e :: es => reenterLodgings (reenterParlour s e.1) es

/-- Changes of counters, one after another. -/
def addCounters (s : State) : List (Nat × Word) → State
  | [] => s
  | (c, w) :: cs => addCounters (addCounter s c w) cs

/-- Launch packets are matched again, in order. -/
def matchLaunches (s : State) (v : VfId) : List Msg → State
  | [] => s
  | m :: ms => matchLaunches (launchMessage s v m) v ms

/-- UNFREEZE (R99): the VF is READY. The changes of its counters that were held come (R414, R416), its abandoned launch
packets are matched again, and the links of its RESIDENT experts re-enter in order (R367). -/
def unfreezeVf (s : State) (v : VfId) : State :=
  let mine (c : Nat × Word) : Bool := decide (vfOfCtr s c.1 = some v)
  let s1 := { modVf s v fun f => { f with state := 2, relaunch := [] } with
    heldCounts := s.heldCounts.filter fun c => !mine c }
  let s2 := matchLaunches (addCounters s1 (s.heldCounts.filter mine)) v (vfOf s v).relaunch
  freedLinks (reenterLodgings s2 (lodgingsOf s2 v)) (vfOf s2 v).part

/-! ### Tear-down (R122 to R125) -/

/-- A VF's gangs leave the machine; none is requeued. -/
def dropGangs (s : State) : List (Nat × Gang) → State
  | [] => s
  | (id, g) :: gs => dropGangs (dropGang (clearTiles s g.tiles) id) gs

/-- Guest threads are ended without records, their queues emptied (R122 step 2). -/
def endGuests (s : State) : List ThreadId → State
  | [] => s
  | n :: ns =>
    endGuests (modThr (parkThread s n) n fun h => { h with queue := [], waiting := [] }) ns

/-- A piece of work at the JQ port that belongs to a VF: a put in its quota, or a launch of one of its bookings. -/
def portWorkOf (v : VfId) (a : Arrival) : Bool :=
  match a.work with
  | .put p => decide (p.unitVf = v)
  | .launch _ w _ _ _ _ => decide (w = v)
  | .reentry _ => false

/-- A booking's launch of the VF waits at the port. -/
def launchOf (v : VfId) (a : Arrival) : Bool :=
  match a.work with
  | .launch _ w _ _ _ _ => decide (w = v)
  | _ => false

/-- Work at the JQ port is discarded with the units that it reserved (R122). -/
def dropArrivals (s : State) (v : VfId) (p : Arrival → Bool) : State :=
  { s with arrivals := s.arrivals.filter fun a => !p a
           reserved := (s.arrivals.filter p).foldl (fun r _ => r.erase v) s.reserved }

/-- The launches that a tear-down discards: those that wait, those that reach the dispatchers in this port cycle (R311), and
the bookings' that wait at the port. A READY write of the same Innkeeper cycle is ignored: it let none through (R419). -/
def launchesGone (s : State) (v : VfId) : Nat :=
  if (vfOf s v).readyAt = some s.ik then 0
  else (vfOf s v).launches + launchesNow s v + (s.arrivals.filter (launchOf v)).length

/-- Steps 1 and 2 of R122, with the launches discarded. A FREEZE in progress ends: its state change never completes, so its
counter never advances and its writer's RESULT stays 2 (DEDUCED, log 49). -/
def tearVfGone (s : State) (v : VfId) (n : Option ThreadId) (ctr : Option Nat) (gone : Nat) : State :=
  let s1 := modVf (dropArrivals s v (launchOf v)) v fun f =>
    { f with state := 4, tearCtr := some ctr, freezeCtr := none, cmdThread := n, breakpoints := none,
             discarded := gone, launches := 0, relaunch := [] }
  let s2 := { s1 with bookings := s1.bookings.map fun b => if b.2.vf = some v then (b.1, { b.2 with armed := false }) else b
                      inbound := s1.inbound.filter fun m => decide (m.2.vf ≠ v) }
  let s3 := dropGangs s2 (s2.gangs.filter fun g => decide (g.2.vf = v))
  let s4 := endGuests s3 (guestsOf s3 v)
  let ts := guestsOf s v
  modVf { s4 with timers := s4.timers.filter fun t => !ts.contains t.2.thread } v fun f => { f with gtCount := 0 }

/-- The tear-down of one VF (R122). -/
def tearVf (s : State) (v : VfId) (n : Option ThreadId) (ctr : Option Nat) : State :=
  tearVfGone s v n ctr (launchesGone s v)

/-- A publish of the VF has begun and is not yet accepted: it is never cut short (R315). -/
def publishesLeft (s : State) (v : VfId) : Bool :=
  (allFin 256).any fun t => (tileOf s t).publishes.any fun p => decide (p.vf = v)

/-- Sends of the VF are cancelled, with ABORTED to a Steward that is to be told (R403). -/
def abortSends (s : State) (v : VfId) : List (Nat × OutSend) → State
  | [] => s
  | (id, o) :: os =>
    let s1 :=
      if o.send.vf = some v then
        let s0 := { s with outbound := tdel s.outbound id }
        match o.send.notify with
        | some n => if isStewardOf s o.send.part n then
            sendEvent s0 n (msgComplete 3 v.val (bfld o.send.handle 11 0) o.send.cookie []) else s0
        | none => s0
      else s
    abortSends s1 v os

/-- A class or handle of the VF is removed; the handle's generation advances (log 34). -/
def dropClasses (q : Partition) (v : VfId) : Partition :=
  let mine := (q.classes.filter fun c => decide (c.2.vf = v)).map Prod.fst
  { q with
    classes := q.classes.filter fun c => decide (c.2.vf ≠ v)
    handles := q.handles.map fun h => if h.2.used ∧ (h.2.vf = v ∨ mine.contains h.2.cls) then (h.1, freeSlot h.2) else h }

/-- The entries of the VF's classes become FREE (R122 step 3). -/
def freeEntries (s : State) : List (Nat × JqEntry) → State
  | [] => s
  | e :: es => freeEntries (freeEntry s e.1) es

/-- Zero the loan frames of a VF and free them (R122 step 5): a zeroing of a change of owner that still ran is over (R341). -/
def freeLoans (s : State) : List (Nat × BitVec 8) → State
  | [] => s
  | e :: es =>
    freeLoans { zeroRange (dropDrovers s fun d => decide (d.kind = .frame e.1)) (e.1 * frameSize) frameSize with
      owners := tset 0 s.owners e.1 0, zeroing := s.zeroing.filter (· ≠ e.1) } es

/-- Drop TLB entries from every tile. -/
def dropAllTlb (s : State) (f : TlbEntry → Bool) : List TileId → State
  | [] => s
  | t :: ts => dropAllTlb (modTile s t fun T => { T with tlb := T.tlb.filter fun e => !f e }) f ts

/-- Steps 3 to 5 of R122: the VF's work, tables and memory. -/
def reclaimVf (s : State) (v : VfId) : State :=
  let f := vfOf s v
  let q := partOf s f.part
  let s1 := dropArrivals (abortSends s v s.outbound) v (portWorkOf v)
  let s2 := dropDrovers (freeEntries s1 (entriesOf s1 v)) fun d =>
    decide (d.vf = some v ∨ d.kind = .exportState v ∨ d.kind = .importState v)
  let s3 := { dropHolds s2 (fun h => decide (h.vf = v)) with
    kept := s2.kept.filter fun k => !ownsAsid f k.asid
    heldCounts := s2.heldCounts.filter fun c => decide (vfOfCtr s c.1 ≠ some v)
    lodging := s2.lodging.filter fun e => decide (e.2.vf ≠ v)
    bookings := s2.bookings.filter fun b => decide (b.2.vf ≠ some v)
    counters := s2.counters.filter fun c => decide (c.1 < q.ctrFirst) || !ctrOfVf f (c.1 - q.ctrFirst) }
  let s4 := dropAllTlb s3 (fun e => ownsAsid f e.asid) (allFin 256)
  let s5 := freeLoans s4 (s4.owners.filter fun e => decide (e.2.toNat = v.val + 1))
  freedLinks (modPart (zeroRange s5 f.segBase f.segSize) f.part fun q => dropClasses q v) f.part

/-- The last completion entry waits for room; a VF whose host set no ring has none (R122 step 6, R411). -/
def lastEntryWaits (f : Vf) : Bool := decide (4 ≤ f.cplLog2) && (ringFull f || !f.cplWaiting.isEmpty)

/-- The last entry of the host's ring: CONTEXT_GONE and the count of launches discarded (R122 step 6, R411). -/
def lastEntry (s : State) (v : VfId) : State :=
  let f := vfOf s v
  if f.cplLog2 < 4 then s else writeCompletion s v [0, 5, word f.discarded, 0]

/-- The partition of a piece of work at the JQ port. -/
def arrivalPart (s : State) (a : Arrival) : Option PartId :=
  match a.work with
  | .put p => some p.part
  | .launch p _ _ _ _ _ => some p
  | .reentry id => (tfind s.entries id).map JqEntry.part

/-- What a deleted partition held is gone (R125): memory, threads, shares and every request of its threads. -/
def finishDelete (s : State) (p : PartId) : State :=
  let q := partOf s p
  match q.deleting with
  | none => s
  | some c =>
    if vfsOf s p ≠ [] then s
    else
      let ts := threadsOf q
      let s0 := dropDrovers (clearShares s q) fun x => decide (x.part = some p)
      let s1 := { zeroRange (zeroRange s0 q.carveBase q.carveSize) q.loanBase q.loanSize with
        arrivals := s.arrivals.filter fun a => decide (arrivalPart s a ≠ some p)
        contexts := s.contexts.filter fun c => decide (c.2 ≠ p)
        accepted := s.accepted.filter fun a => decide (a.1 % 2 = 1 ∨ tfind s.contexts (a.1 / 2) ≠ some p)
        owners := s.owners.filter fun e =>
          decide (e.1 * frameSize < q.loanBase ∨ q.loanBase + q.loanSize ≤ e.1 * frameSize)
        zeroing := s.zeroing.filter fun f => decide (f * frameSize < q.loanBase ∨ q.loanBase + q.loanSize ≤ f * frameSize)
        entries := s.entries.filter fun e => decide (e.2.part ≠ p)
        lodging := s.lodging.filter fun e => decide (e.2.part ≠ p)
        outbound := s.outbound.filter fun o => decide (o.2.send.part ≠ p)
        timers := s.timers.filter fun t => !ts.contains t.2.thread
        snapshots := (zeroRange (zeroRange s0 q.carveBase q.carveSize) q.loanBase q.loanSize).snapshots.filter
          fun x => decide (x.scope ≠ .partition p) }
      let s2 := ts.foldl (fun s n => setThr s n {}) s1
      let s3 := setPart s2 p {}
      let s4 := match q.deleteThread with
        | none => s3
        | some n => modThr s3 n fun h => if h.partstat = statWord 2 p.val then { h with partstat := statWord 0 p.val } else h
      addDone s4 c

/-- Tear-down ends (R122 steps 3 to 6); a partition that is being deleted goes with its last VF (R125). -/
def execTeardownComplete (vf : VfId) (s : State) : Result :=
  let f := vfOf s vf
  match f.tearCtr with
  | none => .next s
  | some c =>
    if f.state ≠ 4 ∨ publishesLeft s vf ∨ lastEntryWaits f then .next s
    else
      let s1 := setVf (lastEntry (reclaimVf s vf) vf) vf {}
      .next (finishDelete (addDone (vfDone s1 vf f.cmdThread) c) f.part)

/-! ### VFCTL and PARTCTL (R94, R96, R99, R104) -/

/-- A command of VFCTL or PARTCTL: CMD, counter, ARG. The low three bits of the offset are dropped, as those of every other
record offset are; R104 does not say so (DESIGN CHOICE, log 67). -/
def ctlCmd (x : Word) : Nat := bfld x 10 8
def ctlCtr (x : Word) : Nat := bfld x 31 16
def ctlArg (x : Word) : Nat := bfld x 63 32 / 8 * 8

/-- A command is rejected where the table does not allow it or its record fails: RESULT reads 1, and its counter
advances all the same (R99). -/
def vfRejected (s : State) (n : ThreadId) (v : VfId) (ctr : Nat) : State :=
  addDone (modThr s n fun h => { h with vfstat := statWord 1 v.val }) (some ctr)

/-- A command completes at once. -/
def vfAccepted (s : State) (n : ThreadId) (v : VfId) (ctr : Nat) : State :=
  addDone (modThr s n fun h => { h with vfstat := statWord 0 v.val }) (some ctr)

/-- A command goes on: RESULT reads 2. -/
def vfStarted (s : State) (n : ThreadId) (v : VfId) : State := modThr s n fun h => { h with vfstat := statWord 2 v.val }

/-- A VFCTL command for VF `v` of partition `p` (R99). -/
def vfCommand (s : State) (n : ThreadId) (p : PartId) (v : VfId) (x : Word) : State :=
  let f := vfOf s v
  let c := (partOf s p).ctrFirst + ctlCtr x
  if stewardCtr s p (ctlCtr x) = false then modThr s n fun h => { h with vfstat := statWord 1 v.val }
  else match ctlCmd x with
    | 1 => match (if f.state = 0 then createVf s p v (storeWords (thrOf s n) (ctlArg x) 8) else none) with
      | none => vfRejected s n v c
      | some s1 => vfAccepted s1 n v c
    | 2 => if f.state = 2 ∧ f.freezeCtr = none then vfStarted (freezeVf s v n (some c)) n v else vfRejected s n v c
    | 3 => if f.state = 3 then vfAccepted (unfreezeVf s v) n v c else vfRejected s n v c
    | _ => if 1 ≤ f.state ∧ f.state ≤ 3 then vfStarted (tearVf s v (some n) (some c)) n v else vfRejected s n v c

/-- A write of VFCTL; none raises PRIVILEGE (R104). -/
def vfctl (s : State) (n : ThreadId) (x : Word) : Option State :=
  let v : VfId := Fin.ofNat 128 (bfld x 6 0)
  match partOfThread s n with
  | none => none
  | some p =>
    if partOfVf s v ≠ some p then none
    else if 1 ≤ ctlCmd x ∧ ctlCmd x ≤ 4 then some (vfCommand s n p v x)
    else some s

/-- Tear down every VF of a list at once: what each discards is what reaches the dispatchers in `s0` (R117, R125, R311). -/
def tearAllAt (s0 s : State) : List VfId → State
  | [] => s
  | v :: vs => tearAllAt s0 (if vfStands s v then tearVfGone s v none none (launchesGone s0 v) else s) vs
def tearAll (s : State) (vs : List VfId) : State := tearAllAt s s vs

/-- A PARTCTL command for partition `p` (R94, R125). -/
def partCommand (s : State) (n : ThreadId) (p : PartId) (x : Word) : State :=
  let q := partOf s p
  let set (s : State) (r : Nat) : State := modThr s n fun h => { h with partstat := statWord r p.val }
  let c := ctlCtr x
  if ctlCmd x = 1 then
    match (if q.state = 0 then createPart s p (storeWords (thrOf s n) (ctlArg x) 8) else none) with
    | none => addDone (set s 1) (some c)
    | some s1 => addDone (set s1 0) (some c)
  else if q.state = 0 ∨ q.deleting.isSome then addDone (set s 1) (some c)
  else
    let s1 := tearAll (setPart (set s 2) p { q with deleting := some (some c), deleteThread := some n }) (vfsOf s p)
    finishDelete s1 p

/-- A write of PARTCTL (R104): PART 40 to 63 and a counter of another level are rejected. -/
def partctl (s : State) (n : ThreadId) (x : Word) : State :=
  let k := bfld x 5 0
  if ctlCmd x ≠ 1 ∧ ctlCmd x ≠ 2 then s
  else if keeperCtr s (ctlCtr x) = false then modThr s n fun h => { h with partstat := statWord 1 k }
  else if 40 ≤ k then addDone (modThr s n fun h => { h with partstat := statWord 1 k }) (some (ctlCtr x))
  else partCommand s n (Fin.ofNat 40 k) x

/-- An uncorrectable error in Innkeeper state: the partition is FAULTED, its VFs are torn down, and Keeper thread 0 has a
record, whose source, pc and value the manual does not state (R117, log 6). -/
def execPartitionFault (p : PartId) (s : State) : Result :=
  if (partOf s p).state ≠ 1 then .next s
  else
    let a := fresh s
    let b := fresh a.2
    let s1 := modPart (tearAll b.2 (vfsOf s p)) p fun q => { q with state := 2 }
    .next (sendEvent s1 0 (faultEvent (faultRecord s 0 0 0 0 (Config.unstated a.1 % 8) 0 causeEcc
      (word (Config.unstated (a.1 + 1))) (word (Config.unstated b.1)) p.val 0 0 0 0 0) 0))

/-! ### Debug (R118 to R121) -/

/-- The record of a halt (R118, R119). -/
def haltRecord (s : State) (t : TileId) (cause : Nat) (pc val : Word) : List Word :=
  match (tileOf s t).task with
  | some k => tileRecord s t k 0 0 0 cause pc val
  | none => faultRecord s t.val 0 0 0 0 0 cause pc val 0 0 0 0 0 0

/-- HALT of a tile (R118). -/
def haltTile (s : State) (t : TileId) (n : ThreadId) : State :=
  let T := tileOf s t
  match T.task with
  | none => sendEvent s n (faultEvent (haltRecord s t causeHalt 0 1) 0)
  | some _ => if T.debug = .none then setTile s t { T with debug := .halting n causeHalt T.s.pc } else s

/-- Every command that has started has landed (R118). -/
def commandsLanded (T : Tile) : Bool := (T.cmdsM ++ T.cmdsA).all fun c => !c.started || c.landed

/-- The halt is reported once the last issued command has landed (R118, R119). -/
def execHaltReport (t : TileId) (s : State) : Result :=
  let T := tileOf s t
  match T.debug, T.task with
  | .halting n cause pc, some k =>
    if commandsLanded T then
      let val := if cause = causeBreakpoint then pc else 0
      .next (sendEvent (setTile s t { T with debug := .halted }) n
        (faultEvent (haltRecord s t cause pc val) k.vf.val))
    else .next s
  | _, _ => .next s

/-- A member's task moves to RUNNING once more (R126). -/
def countResume (s : State) (k : Task) : State :=
  modGang s k.gang fun g => { g with resumes := tput g.resumes k.rank (tget 0 g.resumes k.rank + 1) }

/-- RESUME of a halted tile: the task moves to RUNNING, and a held trap is taken (R111, R121, R126). -/
def resumeTile (s : State) (t : TileId) : State :=
  let T := tileOf s t
  match T.debug, T.task with
  | .halted, some k =>
    let s1 := countResume (setTile s t (saveMember { T with debug := .none, heldTrap := none })) k
    match T.heldTrap with
    | none => s1
    | some h => tileTrapAt s1 t h.src h.cause h.pc h.val h.issued
  | _, _ => s

/-- ABORT of a halted tile: its gang is aborted and requeued, whatever its region holds (R121, R146). -/
def abortTile (s : State) (t : TileId) : State :=
  let T := tileOf s t
  match T.debug, T.task with
  | .halted, some k => abortGang s k.gang
  | _, _ => s

/-- A DBGCTL command; none raises PRIVILEGE (R104). A thread without a partition has no target. -/
def dbgctl (s : State) (n : ThreadId) (x : Word) : Option State :=
  match partOfThread s n with
  | none => if 1 ≤ ctlCmd x ∧ ctlCmd x ≤ 5 then none else some s
  | some p =>
    let t : TileId := Fin.ofNat 256 (bfld x 7 0)
    let v : VfId := Fin.ofNat 128 (bfld x 6 0)
    match ctlCmd x with
    | 1 => if tileInPart (partOf s p) t then some (haltTile s t n) else none
    | 2 => if tileInPart (partOf s p) t then some (resumeTile s t) else none
    | 3 => if tileInPart (partOf s p) t then some (abortTile s t) else none
    | 4 => if partOfVf s v = some p then some (modVf s v fun f => { f with breakpoints := some n }) else none
    | 5 => if partOfVf s v = some p then some (modVf s v fun f => { f with breakpoints := none }) else none
    | _ => some s

/-- DBGSEL's fields. -/
def selTile (w : Word) : TileId := Fin.ofNat 256 (bfld w 7 0)
def selSpace (w : Word) : Nat := bfld w 11 8
def selOffset (w : Word) : Nat := bfld w 52 32

/-- The task of the selected tile is halted and reported (R104, R120). A Keeper thread may look at every tile, a Steward at
those of its partition (DEDUCED, log 51). -/
def debugOpen (s : State) (n : ThreadId) : Bool :=
  let t := selTile (thrOf s n).dbgsel
  (partOfThread s n).all (fun p => tileInPart (partOf s p) t) && decide ((tileOf s t).debug = .halted)

/-- Size of a debug space in bytes. The layouts of spaces 5 and 6 are the model's own (log 35). -/
def spaceSize (T : Tile) (sp : Nat) : Nat :=
  match sp with
  | 0 => 2 ^ (winOf T).2
  | 1 => 512
  | 2 => 65536
  | 3 => 32
  | 4 => 524288
  | 5 => 160
  | 6 => 64
  | _ => 2 ^ 21

/-- Byte `o` of a word. -/
def byteOf (w : Word) (o : Nat) : Byte := BitVec.ofNat 8 (w.toNat / 2 ^ (8 * (o % 8)))
/-- The word with byte `o` replaced. -/
def withByte (w : Word) (o : Nat) (b : Byte) : Word := patchWord w (o % 8) 1 b.toNat
/-- Byte `o` of a lane. -/
def laneByte (x : Lane) (o : Nat) : Byte := BitVec.ofNat 8 (x.toNat / 2 ^ (8 * (o % 4)))
def withLaneByte (x : Lane) (o : Nat) (b : Byte) : Lane := (withByte (x.setWidth 64) (o % 4) b).setWidth 32

/-- The task owns the accumulator block. -/
def ownsBlock (T : Tile) (c : Nat) : Bool :=
  match T.task with
  | some k => k.acc.getLsbD c
  | none => false

/-- Words of space 5: the stacks of M and A, top first, then l0 and l1 of each. -/
def stackWords (T : Tile) : List Word :=
  (List.range 8).map (recw T.m.stack) ++ (List.range 8).map (recw T.a.stack) ++ [T.m.l0, T.m.l1, T.a.l0, T.a.l1]

/-- Put a word of space 5; a place beyond a stack's depth takes none. -/
def putStackWord (T : Tile) (i : Nat) (w : Word) : Tile :=
  if i < 8 then { T with m := { T.m with stack := T.m.stack.set i w } }
  else if i < 16 then { T with a := { T.a with stack := T.a.stack.set (i - 8) w } }
  else match i with
    | 16 => { T with m := { T.m with l0 := w } }
    | 17 => { T with m := { T.m with l1 := w } }
    | 18 => { T with a := { T.a with l0 := w } }
    | _ => { T with a := { T.a with l1 := w } }

/-- The stream of number `i`: S, V, M, A. -/
def streamNo (i : Nat) : Stream :=
  match i % 4 with
  | 0 => .S
  | 1 => .V
  | 2 => .M
  | _ => .A

/-- Words of space 6: the four program counters, then the four FPSRs, whose bits [63:6] are reserved (R47). -/
def pcWord (T : Tile) (i : Nat) : Word :=
  if i < 4 then (strm T (streamNo i)).pc else (strm T (streamNo i)).fpsr
def putPcWord (T : Tile) (i : Nat) (w : Word) : Tile :=
  modStrm T (streamNo i) fun c => if i < 4 then { c with pc := w } else { c with fpsr := w &&& 0x3F }

/-- A byte of a debug space (R120). -/
def debugByte (T : Tile) (sp o : Nat) : Byte :=
  match sp with
  | 0 => mget T.spad (winAddr T o)
  | 1 => byteOf (xget T.x (Fin.ofNat 64 (o / 8))) o
  | 2 => laneByte ((vget T.v (Fin.ofNat 16 (o / 4096))).toArray.getD (o % 4096 / 4) 0) o
  | 3 => laneByte (vget T.k (Fin.ofNat 8 (o / 4))) o
  | 4 => if ownsBlock T (o / 32768) then laneByte ((vget T.acc (Fin.ofNat 16 (o / 32768))).toArray.getD (o % 32768 / 4) 0) o
    else 0
  | 5 => byteOf (recw (stackWords T) (o / 8)) o
  | 6 => byteOf (pcWord T (o / 8)) o
  | _ => 0

/-- Write a byte of a debug space (R120). -/
def putDebugByte (T : Tile) (sp o : Nat) (b : Byte) : Tile :=
  match sp with
  | 0 => { T with spad := mset T.spad (winAddr T o) b }
  | 1 =>
    let r : XReg := Fin.ofNat 64 (o / 8)
    { T with x := xset T.x r (withByte (xget T.x r) o b) }
  | 2 =>
    let r : VReg := Fin.ofNat 16 (o / 4096)
    let i : Fin 1024 := Fin.ofNat 1024 (o % 4096 / 4)
    { T with v := vset T.v r (vset (vget T.v r) i (withLaneByte (vget (vget T.v r) i) o b)) }
  | 3 =>
    let r : Fin 8 := Fin.ofNat 8 (o / 4)
    { T with k := vset T.k r (withLaneByte (vget T.k r) o b) }
  | 4 =>
    let c : Fin 16 := Fin.ofNat 16 (o / 32768)
    let i : Fin 8192 := Fin.ofNat 8192 (o % 32768 / 4)
    if ownsBlock T c.val then
      { T with acc := vset T.acc c (vset (vget T.acc c) i (withLaneByte (vget (vget T.acc c) i) o b)) }
    else T
  | 5 => putStackWord T (o / 8) (withByte (recw (stackWords T) (o / 8)) o b)
  | 6 => putPcWord T (o / 8) (withByte (pcWord T (o / 8)) o b)
  | _ => T

def putDebugBytes (T : Tile) (sp size o : Nat) : List Byte → Tile
  | [] => T
  | b :: bs => putDebugBytes (putDebugByte T sp (o % size) b) sp size (o + 1) bs

/-- The 8 bytes at the selection (R120); 0 where the tile is not halted. -/
def debugWord (s : State) (n : ThreadId) : Word :=
  let w := (thrOf s n).dbgsel
  let T := tileOf s (selTile w)
  if debugOpen s n then
    word (leNat ((List.range 8).map fun i => debugByte T (selSpace w) ((selOffset w + i) % spaceSize T (selSpace w))))
  else 0

/-- Write the 8 bytes at the selection (R120). -/
def putDebugWord (s : State) (n : ThreadId) (x : Word) : State :=
  let w := (thrOf s n).dbgsel
  if debugOpen s n then
    modTile s (selTile w) fun T =>
      putDebugBytes T (selSpace w) (spaceSize T (selSpace w)) (selOffset w) (leBytes 8 x.toNat)
  else s

/-- After an access OFFSET rises by 8 within the space, and ERR says whether it found its tile halted (R104, R120). -/
def debugTouched (s : State) (n : ThreadId) : State :=
  let h := thrOf s n
  let w := h.dbgsel
  let o := (selOffset w + 8) % spaceSize (tileOf s (selTile w)) (selSpace w)
  setThr s n { h with dbgsel := word (o * 2 ^ 32 + selSpace w * 2 ^ 8 + (selTile w).val), dbgErr := !debugOpen s n }

/-- A write of DBGSEL (R104). -/
def setDbgsel (s : State) (n : ThreadId) (x : Word) : State :=
  modThr s n fun h => { h with dbgsel := x &&& 0x001FFFFF00000FFF, dbgErr := false }

/-! ### CSRs (R102 to R105) -/

/-- A CSR that R103 assigns and that is available where the word runs. -/
def csrHere (onTile : Bool) (c : Nat) : Bool :=
  [0x001, 0x002, 0x200, 0x201, 0x206, 0x207, 0x208].contains c ||
  (if onTile then [0x202, 0x203, 0x204, 0x205, 0x209].contains c
   else decide ((0x400 ≤ c ∧ c ≤ 0x408) ∨ c = 0x600 ∨ c = 0x601 ∨ (0x800 ≤ c ∧ c ≤ 0x805) ∨ c = 0xA00))

/-- The level of the agent in turn (R98). -/
def curLevel (s : State) : Nat :=
  match s.cur with
  | .tile _ _ => 0
  | .thread n => levelOf s n

def curOnTile (s : State) : Bool :=
  match s.cur with
  | .tile _ _ => true
  | .thread _ => false

/-- A trap register of a set (R104). -/
def trapCsr (r : TrapRegs) (i : Nat) : Word :=
  match i with
  | 0 => r.tstat
  | 1 => r.tepc
  | 2 => r.tcause
  | 3 => r.tval
  | _ => r.tvec

/-- SELF, VFINFO, WINDOW, the FPSRs, CYCLE, VTICK and PREQ of a tile's task (R103, R104). -/
def tileCsr (s : State) (t : TileId) (c : Nat) : Word :=
  let T := tileOf s t
  match T.task with
  | none => 0
  | some k => match c with
    | 0x001 => T.s.fpcr
    | 0x002 => T.s.fpsr
    | 0x200 => word t.val
    | 0x201 => word (k.cls * 2 ^ 24 + k.asid * 2 ^ 16 + k.part.val * 2 ^ 8 + k.vf.val)
    | 0x202 => word (k.acc.toNat * 2 ^ 16 + k.log2)
    | 0x203 => T.vs.fpsr
    | 0x204 => T.m.fpsr
    | 0x205 => T.a.fpsr
    | 0x206 => word (acOf s t - k.startCycle)
    | 0x207 => word (tickOf s)
    | 0x208 => word (vfOf s k.vf).vtick
    | _ => flagWord k.preq

/-- VFINFO of a thread (R104). A Guest thread that belongs to no VF reads VF 0 and ASID 0: the manual gives its VF's values
only (DESIGN CHOICE, log 67). -/
def threadInfo (s : State) (n : ThreadId) : Word :=
  let part := (partOfThread s n).elim 63 (·.val)
  match (if (thrOf s n).home = 0 then vfOfThread s n else none) with
  | some v => word ((vfOf s v).asidFirst * 2 ^ 16 + part * 2 ^ 8 + v.val)
  | none => word (part * 2 ^ 8)

/-- The CSRs of a thread (R103, R104). VTICK of a Guest thread that belongs to no VF reads TICK, and CYCLE of a thread without
an EVGET since its release counts from the release: the manual states neither (DESIGN CHOICE, log 67). -/
def threadCsr (s : State) (n : ThreadId) (c : Nat) : Word :=
  let h := thrOf s n
  match c with
  | 0x001 => h.fpcr
  | 0x002 => h.fpsr
  | 0x200 => word (2 ^ 15 + h.level * 2 ^ 10 + n.val)
  | 0x201 => threadInfo s n
  | 0x206 => word (s.ik - h.startCycle)
  | 0x207 => word (tickOf s)
  | 0x208 => match (if h.home = 0 then vfOfThread s n else none) with
    | some v => word (vfOf s v).vtick
    | none => word (tickOf s)
  | 0x407 => h.dbgsel
  | 0x408 => debugWord s n
  | 0x600 => h.vfstat ||| word ((vfOf s (Fin.ofNat 128 (bfld h.vfstat 6 0))).state * 2 ^ 12)
  | 0x601 => word ((if h.dbgErr then 2 else 0) + (if debugOpen s n then 1 else 0))
  | 0xA00 => h.partstat ||| word (if bfld h.partstat 5 0 < 40 then
      (partOf s (Fin.ofNat 40 (bfld h.partstat 5 0))).state * 2 ^ 12 else 0)
  | _ =>
    if 0x400 ≤ c ∧ c ≤ 0x404 then trapCsr h.steward (c - 0x400)
    else if 0x800 ≤ c ∧ c ≤ 0x804 then trapCsr h.keeper (c - 0x800)
    else 0

/-- read(csr) (R105). -/
def csrRead (s : State) (c : Nat) : Word :=
  match s.cur with
  | .tile t _ => tileCsr s t c
  | .thread n => threadCsr s n c

/-- The variants of a CSR write (R105). -/
inductive CsrWrite where
  | write | clear | set
  deriving DecidableEq, Repr

/-- What an RW field takes. -/
def rwNext (k : CsrWrite) (old x : Word) : Word :=
  match k with
  | .write => x
  | .clear => old &&& ~~~x
  | .set => old ||| x

/-- A trap register after a write (R104). -/
def trapPut (r : TrapRegs) (i : Nat) (k : CsrWrite) (x : Word) : TrapRegs :=
  match i with
  | 0 =>
    let w := rwNext k r.tstat x
    { r with tstat := word (bfld w 3 2 * 4 + (if bfld w 1 0 = 3 then tstatPl r.tstat else bfld w 1 0)) }
  | 1 => { r with tepc := rwNext k r.tepc x &&& ~~~(3 : Word) }
  | 2 => { r with tcause := rwNext k r.tcause x &&& 0xFFFF }
  | 3 => { r with tval := rwNext k r.tval x }
  | _ => { r with tvec := rwNext k r.tvec x &&& ~~~(3 : Word) }

/-- Clear FPSR bits: RW1C for a write and a clear; a set leaves them (R47, R105). -/
def fpsrNext (k : CsrWrite) (old x : Word) : Word := if k = .set then old else old &&& ~~~x

/-- A write of a Guest-level CSR. -/
def guestPut (s : State) (c : Nat) (k : CsrWrite) (x : Word) : State :=
  match c with
  | 0x001 => writeFpcr s (rwNext k (fpcrOf s) x)
  | 0x002 => match s.cur with
    | .tile t _ => modTile s t fun T => { T with s := { T.s with fpsr := fpsrNext k T.s.fpsr x } }
    | .thread n => modThr s n fun h => { h with fpsr := fpsrNext k h.fpsr x }
  | _ => s

/-- A write of a thread's CSR; none raises PRIVILEGE (R104). A command starts only at a plain write (R105). -/
def threadPut (s : State) (n : ThreadId) (c : Nat) (k : CsrWrite) (x : Word) : Option State :=
  match c with
  | 0x405 => if k = .write then vfctl s n x else some s
  | 0x406 => if k = .write then dbgctl s n x else some s
  | 0x407 => some (setDbgsel s n (rwNext k (thrOf s n).dbgsel x))
  | 0x408 => some (debugTouched (putDebugWord s n (rwNext k (debugWord s n) x)) n)
  | 0x805 => some (if k = .write then partctl s n x else s)
  | _ =>
    if 0x400 ≤ c ∧ c ≤ 0x404 then some (modThr s n fun h => { h with steward := trapPut h.steward (c - 0x400) k x })
    else if 0x800 ≤ c ∧ c ≤ 0x804 then some (modThr s n fun h => { h with keeper := trapPut h.keeper (c - 0x800) k x })
    else some (guestPut s c k x)

/-- write, clear or set (R105). -/
def csrPut (s : State) (c : Nat) (k : CsrWrite) (x : Word) : Option State :=
  match s.cur with
  | .tile _ _ => some (guestPut s c k x)
  | .thread n => threadPut s n c k x

/-- The checks of R102, in order. -/
def csrCheck (s : State) (i : Instr) (c : Nat) (writes : Bool) (f : Result) : Result :=
  scalar s i
    (if csrHere (curOnTile s) c = false then illegal s i
     else if curLevel s < c / 1024 then privilege s i
     else if writes ∧ c / 512 % 2 = 1 then illegal s i
     else f)

/-- A read of DBGDATA is an access of its own (R120). -/
def csrReadDone (s : State) (c : Nat) : State :=
  match s.cur with
  | .thread n => if c = 0x408 then debugTouched s n else s
  | .tile _ _ => s

/-- A CSR word that writes: the old value to xd, the pc moved on, and then the write; PRIVILEGE where the write has no
right to its target (R104, R105). -/
def csrWord (s : State) (i : Instr) (d : XReg) (c : Nat) (k : CsrWrite) (x : Word) : Result :=
  csrCheck s i c true
    (match csrPut (wx (advance s 4) d (csrRead s c)) c k x with
     | none => privilege s i
     | some s1 => .next s1)

/-- CSRR (R105). -/
def execCsrr (d : XReg) (c : BitVec 12) (s : State) : Result :=
  csrCheck s (.csrr d c) c.toNat false (wr (csrReadDone s c.toNat) d (csrRead s c.toNat))
/-- CSRW (R105). -/
def execCsrw (a : XReg) (c : BitVec 12) (s : State) : Result := csrWord s (.csrw a c) 0 c.toNat .write (rx s a)
/-- CSRW.C (R105). -/
def execCsrwC (a : XReg) (c : BitVec 12) (s : State) : Result := csrWord s (.csrwC a c) 0 c.toNat .clear (rx s a)
/-- CSRX (R105). -/
def execCsrx (d a : XReg) (c : BitVec 12) (s : State) : Result := csrWord s (.csrx d a c) d c.toNat .write (rx s a)
/-- CSRX.S (R105). -/
def execCsrxS (d a : XReg) (c : BitVec 12) (s : State) : Result := csrWord s (.csrxS d a c) d c.toNat .set (rx s a)

/-! ### TRAP and SRET (R106, R107) -/

/-- Breakpoints are armed for the VF of a tile's task, and to whom they report (R119). -/
def breakpointTo (s : State) (t : TileId) : Option ThreadId :=
  match (tileOf s t).task with
  | some k => (vfOf s k.vf).breakpoints
  | none => none

/-- The value of a trap that TRAP raises (R108). -/
def trapVal (s : State) (c : BitVec 8) : Word := if c = 0x13 then pcOf s else rx s 1

/-- TRAP (R106). A breakpoint's report goes to the Steward of the latest BPARM at the TRAP, even where another BPARM comes
before the report (DESIGN CHOICE, log 70). -/
def execTrap (c : BitVec 8) (s : State) : Result :=
  scalar s (.trap c)
    (if c ≠ 0x13 ∧ c.toNat < 0x80 then illegal s (.trap c)
     else match s.cur with
       | .thread n => .next (threadTrap s n c.toNat true (pcOf s) (pcOf s + 4) (trapVal s c))
       | .tile t _ => match decide (c = 0x13), breakpointTo s t with
         | true, some n =>
           .next (modTile (advance s 4) t fun T => { T with debug := .halting n causeBreakpoint (pcOf s) })
         | _, _ => raise s c.toNat (trapVal s c))

/-- SRET (R107). -/
def execSret (s : State) : Result :=
  onThread s .sret fun n =>
    let h := thrOf s n
    if h.level = 0 then privilege s .sret
    else if tstatAct (trapRegs h h.level).tstat = false then illegal s .sret
    else .next (setThr s n (trapReturn h))

/-! ### CSR writes as steps of their own -/

/-- A VFCTL command of one code. -/
def vfctlStep (th : ThreadId) (cmd : Nat) (x : Word) (s : State) : Result :=
  if ctlCmd x = cmd ∧ 1 ≤ levelOf s th then .next ((vfctl s th x).getD s) else .next s
/-- A DBGCTL command of one code. -/
def dbgctlStep (th : ThreadId) (cmd : Nat) (x : Word) (s : State) : Result :=
  if ctlCmd x = cmd ∧ 1 ≤ levelOf s th then .next ((dbgctl s th x).getD s) else .next s
/-- A PARTCTL command of one code. -/
def partctlStep (th : ThreadId) (cmd : Nat) (x : Word) (s : State) : Result :=
  if ctlCmd x = cmd ∧ 2 ≤ levelOf s th then .next (partctl s th x) else .next s

def execVfctlCreate (th : ThreadId) (value : BitVec 64) (s : State) : Result := vfctlStep th 1 value s
def execVfctlFreeze (th : ThreadId) (value : BitVec 64) (s : State) : Result := vfctlStep th 2 value s
def execVfctlUnfreeze (th : ThreadId) (value : BitVec 64) (s : State) : Result := vfctlStep th 3 value s
def execVfctlTear (th : ThreadId) (value : BitVec 64) (s : State) : Result := vfctlStep th 4 value s
def execPartctlCreate (th : ThreadId) (value : BitVec 64) (s : State) : Result := partctlStep th 1 value s
def execPartctlDelete (th : ThreadId) (value : BitVec 64) (s : State) : Result := partctlStep th 2 value s
def execDbgctlHalt (th : ThreadId) (value : BitVec 64) (s : State) : Result := dbgctlStep th 1 value s
def execDbgctlResume (th : ThreadId) (value : BitVec 64) (s : State) : Result := dbgctlStep th 2 value s
def execDbgctlAbort (th : ThreadId) (value : BitVec 64) (s : State) : Result := dbgctlStep th 3 value s
def execDbgctlBparm (th : ThreadId) (value : BitVec 64) (s : State) : Result := dbgctlStep th 4 value s
def execDbgctlBpdisarm (th : ThreadId) (value : BitVec 64) (s : State) : Result := dbgctlStep th 5 value s

/-- A read of DBGDATA by a thread (R120): what it reads goes to the reader's register; the selection moves on. -/
def execDbgdataRead (th : ThreadId) (s : State) : Result :=
  if 1 ≤ levelOf s th then .next (debugTouched s th) else .next s
/-- A write of DBGDATA (R120). -/
def execDbgdataWrite (th : ThreadId) (value : BitVec 64) (s : State) : Result :=
  if 1 ≤ levelOf s th then .next (debugTouched (putDebugWord s th value) th) else .next s
/-- A write of DBGSEL (R104). -/
def execDbgselWrite (th : ThreadId) (value : BitVec 64) (s : State) : Result :=
  if 1 ≤ levelOf s th then .next (setDbgsel s th value) else .next s
/-- A write of FPCR by the agent in turn (R41, R46). -/
def execFpcrWrite (value : BitVec 64) (s : State) : Result := .next (writeFpcr s value)

end Sys2Proof.Machine
end

