-- ==== Sys2Proof/Machine/Device.lean ====
section
/-! DEFINITION. Bring-up, firmware slots, attestation, soft errors, power and clocks, and writes of registers without a
behaviour of their own (13 R409; 14 R418 to R432). -/

namespace Sys2Proof.Machine

/-! ### Reads by the host (R7, R409, R418, R427) -/

/-- READYCTL: the state, and READY in READY and FROZEN (R418). -/
def readyctlWord (state : Nat) : Word := word (state * 2 ^ 8 + (if state = 2 ∨ state = 3 then 1 else 0))

/-- ATTSTAT: DONE and BUSY (R427). -/
def attstatWord (f : Vf) : Word := word ((if f.attDone then 1 else 0) + (if f.attReport.isSome then 2 else 0))

/-- A register of a VF's page as the host reads it: a write-only register and the rest of the page read 0 (R7). -/
def vfPageWord (f : Vf) (off : Nat) : Word :=
  match off with
  | 0x040 => f.lastSeq.setWidth 64
  | 0x080 => f.cplBase
  | 0x088 => word f.cplLog2
  | 0x090 => f.cplHead
  | 0x098 => f.cplNext
  | 0x0A0 => f.msix
  | 0x0C0 => readyctlWord f.state
  | 0x120 => f.attAddr
  | 0x130 => attstatWord f
  | _ => 0

/-- What the host reads from a function's page; none is the physical function. -/
def hostRead (s : State) (vf : Option VfId) (off : Nat) : Word :=
  match vf with
  | some v => vfPageWord (vfOf s v) off
  | none => if off = 0x0C0 then readyctlWord s.pfState else 0

/-- The value of a host read leaves the device (log 64). -/
def answerHost (s : State) (vf : Option VfId) (off : Nat) : State :=
  { s with wire := s.wire ++ [.hostValue vf off (hostRead s vf off)] }

/-! ### READY (R419) -/

/-- A host write of READYCTL: 1 to READY moves a CREATED function to READY. -/
def execReadyctl (vf : Option VfId) (value : BitVec 64) (s : State) : Result :=
  match vf with
  | none => .next (if bbit value 0 ∧ s.pfState = 1 then { s with pfState := 2 } else s)
  | some v => .next (if bbit value 0 ∧ (vfOf s v).state = 1 then modVf s v fun f => { f with state := 2, readyAt := some s.ik } else s)

/-! ### Boot (R420 to R425) -/

def slotSize : Nat := 24 * 2 ^ 20
/-- Base of slot A or B in the flash. -/
def slotBase (b : Bool) : Nat := if b then 0x1900000 else 0x100000
/-- Base of marker copy M0 or M1. -/
def markerBase (m1 : Bool) : Nat := if m1 then 0x10000 else 0

/-- An image's parts: body, stored hash, signature. Its length stands first, in 8 bytes (PRESUMED, log 36). -/
def imageBody (img : List Byte) : List Byte := (img.drop 8).take (leNat (img.take 8))
def imageHash (img : List Byte) : List Byte := ((img.drop 8).drop (leNat (img.take 8))).take 32
def imageSig (img : List Byte) : List Byte := ((img.drop 40).drop (leNat (img.take 8))).take 64

/-- An image verifies (R420). -/
def imageVerifies (img : List Byte) : Bool :=
  decide (leNat (img.take 8) + 104 ≤ img.length ∧ img.length ≤ slotSize ∧
    sm3 (imageBody img) = BitVec.ofNat 256 (leNat (imageHash img))) &&
  Config.sm2Verifies (sm3 (imageBody img)) (imageSig img)

/-- The image of a slot: as many bytes as its length says, within the slot. -/
def slotImage (s : State) (b : Bool) : List Byte :=
  mread s.flash (slotBase b) (min slotSize (leNat (mread s.flash (slotBase b) 8) + 104))

/-- The words of a marker copy (R421). -/
def markerWords (s : State) (m1 : Bool) : List Word := (List.range 8).map fun i => mword s.flash (markerBase m1 + 8 * i)

def markerMagic : Nat := 0x4B52414D

/-- A marker copy is valid (R421). -/
def markerValid (s : State) (m1 : Bool) : Bool :=
  let w := markerWords s m1
  decide (recw w 0 = word markerMagic ∧ bfld (recw w 2) 63 1 = 0 ∧ recw w 3 = 0 ∧
    sm3 (wordBytes (w.take 4)) = BitVec.ofNat 256 (leNat (wordBytes (w.drop 4))))

/-- SEQ and SLOT of a marker copy. -/
def markerSeq (s : State) (m1 : Bool) : Word := recw (markerWords s m1) 1
def markerSlot (s : State) (m1 : Bool) : Bool := bbit (recw (markerWords s m1) 2) 0

/-- The valid markers by descending SEQ; equal ones M0 first (R422). -/
def candidates (s : State) : List Bool :=
  match markerValid s false, markerValid s true with
  | true, true => if (markerSeq s false).toNat < (markerSeq s true).toNat then [true, false] else [false, true]
  | true, false => [false]
  | false, true => [true]
  | false, false => []

/-- The slot that boots, with the SEQ of its marker (R422, R427); none runs the recovery loader. -/
def chosenSlot (s : State) : Option (Bool × Word) :=
  match (candidates s).find? fun m => imageVerifies (slotImage s (markerSlot s m)) with
  | some m => some (markerSlot s m, markerSeq s m)
  | none => ([false, true].find? fun b => imageVerifies (slotImage s b)).map fun b => (b, 0)

/-- Keeper threads start at offset 0 of the image, with the registers of R379 (R425). -/
def startKeepers (s : State) : List ThreadId → State
  | [] => s
  | n :: ns => startKeepers (setThr s n (startThread { level := 2, home := 2 } n s.ik)) ns

/-- A slot boots: measured, and its firmware started (R425, R426). -/
def bootSlot (s : State) (b : Bool) (seq : Word) : State :=
  let body := imageBody (slotImage s b)
  startKeepers { s with power := .booted, bootSlot := b, bootSeq := seq, firmware := mwrite [] 0 body,
                        firmwareSize := body.length, mr0 := extendMr 0 Config.romDigest,
                        mr1 := extendMr 0 (sm3 body), pfState := 1 } ((allFin 1024).take 16)

/-- The boot ROM chooses and verifies an image, or runs the recovery loader (R422). -/
def execBoot (s : State) : Result :=
  if s.power ≠ .bootPending then .next s
  else match chosenSlot s with
    | some (b, seq) => .next (bootSlot s b seq)
    | none => .next { s with power := .recovery }

/-- A device reset keeps the flash, and everything that is not the device's own: the memory outside HBM, the drives, the
peers, what the package draws, and the answers that have left (log 37). -/
def resetDevice (s : State) (flash : Memory) (p : Power) : State :=
  { State.reset with
    agenda := s.agenda, cur := s.cur, freeCtr := s.freeCtr, seq := s.seq, power := p, flash := flash,
    mem := s.mem.filter fun c => decide (hbmEnd ≤ c.1), nvme := s.nvme,
    namespaces := s.namespaces, peers := s.peers, drawn := s.drawn, wire := s.wire }

/-- A marker record (R421). -/
def markerBytes (seq : Word) (slot : Bool) : List Byte :=
  let ws := [word markerMagic, seq, flagWord slot, 0]
  wordBytes ws ++ leBytes 32 (sm3 (wordBytes ws)).toNat

/-- 1 + the highest SEQ of any valid marker, or 1 (R424). -/
def nextMarker (s : State) : Word :=
  match candidates s with
  | [] => 1
  | m :: _ => markerSeq s m + 1

/-! ### Flash writes (R423, R424) -/

/-- The marker copy that an update rewrites: not the one by which the device booted, which names the running slot; after a
fallback boot the invalid copy, or the one whose SEQ is lower (R423). -/
def updateCopy (s : State) : Bool :=
  let chosen (m : Bool) : Bool := markerValid s m && decide (markerSlot s m = s.bootSlot ∧ markerSeq s m = s.bootSeq)
  if chosen false then true
  else if chosen true then false
  else if markerValid s false = false then false
  else !markerValid s true || decide ((markerSeq s true).toNat < (markerSeq s false).toNat)

/-- Keeper firmware begins to write a new image into the slot that is not running (R423 step 1). -/
def updateImage (s : State) (image : List Byte) : State :=
  if s.power = .booted ∧ s.flashWrites = [] ∧ image.length ≤ slotSize then
    { s with flashWrites := [{ offset := slotBase !s.bootSlot, bytes := image }] }
  else s

/-- Once the new slot verifies, Keeper firmware begins to rewrite a marker copy (R423 step 2). -/
def updateMarker (s : State) : State :=
  if s.power = .booted ∧ s.flashWrites = [] ∧ imageVerifies (slotImage s !s.bootSlot) then
    { s with flashWrites := [{ offset := markerBase (updateCopy s), bytes := markerBytes (nextMarker s) !s.bootSlot }] }
  else s

/-- The flash write in progress goes on by up to `n` bytes, and the next begins when it ends. The recovery loader resets the
device after its last one (R424). -/
def flashStep (s : State) (n : Nat) : State :=
  match s.flashWrites with
  | [] => s
  | w :: ws =>
    let f := mwrite s.flash w.offset (w.bytes.take n)
    let left := if w.bytes.length ≤ n then ws else { offset := w.offset + n, bytes := w.bytes.drop n } :: ws
    if left = [] ∧ s.power = .recovery then resetDevice s f .bootPending else { s with flash := f, flashWrites := left }

/-- The host writes the recovery loader's staging buffer, 24 MiB at the start of HBM (R424; its place is a DESIGN CHOICE,
log 66). -/
def stageImage (s : State) (off : Nat) (bs : List Byte) : State :=
  if s.power = .recovery ∧ off + bs.length ≤ slotSize then { s with mem := mwrite s.mem off bs } else s

/-- The host hands the recovery loader the image that it has staged: a verified one goes to slot A and then both markers are
written, M0 first; the device is reset when they are (R424). -/
def execRecoveryImage (length : Nat) (s : State) : Result :=
  if s.power = .recovery ∧ s.flashWrites = [] ∧ length ≤ slotSize then
    let image := mread s.mem 0 length
    if imageVerifies image then
      let m := markerBytes (nextMarker s) false
      .next { s with flashWrites := [{ offset := slotBase false, bytes := image }, { offset := markerBase false, bytes := m },
                                     { offset := markerBase true, bytes := m }] }
    else .next s
  else .next s

/-! ### Power and clocks (R423, R430, R431) -/

/-- Rails rise in order, or the device is held in reset (R430). -/
def execPowerOn (railsInOrder : Bool) (s : State) : Result :=
  if s.power = .off then .next { s with power := if railsInOrder then .bootPending else .heldInReset } else .next s

/-- The bytes that a power loss leaves torn lie in the flash write in progress (R423). -/
def tornInside (s : State) (c : FlashCut) : Bool :=
  s.flashWrites.head?.any fun w => decide (w.offset ≤ c.offset ∧ c.offset + c.bytes.length ≤ w.offset + w.bytes.length)

/-- Power is lost: a flash write in progress leaves what it had reached, torn bytes among it (R423). -/
def execPowerLoss (cut : Option FlashCut) (s : State) : Result :=
  let f := match cut with
    | some c => if tornInside s c then mwrite s.flash c.offset c.bytes else s.flash
    | none => s.flash
  .next (resetDevice s f .off)

/-- A die's arithmetic clock steps by 50 MHz, between 400 and 800: down while the package draws more than the power limit, and
back up when it does not (R431). -/
def execClockStep (die : Fin 4) (up : Bool) (s : State) : Result :=
  let c := vget s.dies die
  let m := if up then min 800 (c.mhz + 50) else max 400 (c.mhz - 50)
  if up = decide (s.drawn ≤ s.powerLimit) then .next { s with dies := vset s.dies die { c with mhz := m } } else .next s

/-! ### What the Keeper sets (R405, R412, R431) -/

/-- A decoder's range is a run of 4 KiB granules of the CXL range, interleaved over 1, 2 or 4 ports (R339, R412). -/
def decoderOk (d : Decoder) : Bool :=
  decide (cxlBase ≤ d.base ∧ d.base + d.size ≤ cxlEnd ∧ d.base % 4096 = 0 ∧ d.size % 4096 = 0 ∧ d.ports.Nodup ∧
    (d.ports.length = 1 ∨ d.ports.length = 2 ∨ d.ports.length = 4))

/-- Keeper firmware sets a device parameter: no register of the manual holds it (DESIGN CHOICE, log 5). -/
def keeperSet (s : State) (k : KeeperSetting) : State :=
  if s.power ≠ .booted then s
  else match k with
    | .purlinId n => { s with purlinId := n.toNat }
    | .route dev ports => { s with routes := tset 0 s.routes dev.toNat ports }
    | .powerLimit w => if w ≤ 2400 then { s with powerLimit := w } else s
    | .decoders ds => if ds.all decoderOk then { s with decoders := ds } else s

/-! ### Soft errors (R428, R429) -/

/-- The scrubber reads a granule. A corrected value equals what stands there, so its write-back changes nothing; an
uncorrectable granule raises ECC_UNCORRECTABLE in its readers. -/
def execScrub (granule : Nat) (upset : Upset) (s : State) : Result :=
  if hbmEnd ≤ 64 * granule then .next s
  else match upset with
    | .none => .next s
    | .corrected => .next { s with scrubFixed := s.scrubFixed + 1 }
    | .uncorrectable =>
      .next { s with scrubLost := s.scrubLost + 1, bad := if s.bad.contains granule then s.bad else granule :: s.bad }

/-! ### Attestation (R427) -/

/-- The report but for its signature. -/
def reportBody (s : State) (v : VfId) : List Byte :=
  let f := vfOf s v
  let q := partOf s f.part
  wordBytes [1, word (f.part.val * 2 ^ 32 + v.val)] ++ leBytes 32 f.attNonce.toNat ++
    [s.mr0, s.mr1, q.mr2, q.mr3, f.mr4].flatMap (fun m => leBytes 32 m.toNat) ++
    wordBytes [s.bootSeq ||| (if s.bootSlot then 0x8000000000000000 else 0)] ++ List.replicate 232 0

/-- The signed report. -/
def report (s : State) (v : VfId) : List Byte :=
  let b := reportBody s v
  b ++ leBytes 64 (Config.sm2Sign (sm3 b)).toNat

/-- A write of ATTGO starts a report request, unless one is BUSY (R427). -/
def execAttgo (vf : VfId) (value : BitVec 64) (s : State) : Result :=
  let f := vfOf s vf
  if f.state = 0 ∨ f.attReport.isSome ∨ value ≠ 1 then .next s
  else .next (setVf s vf { f with attReport := some (report s vf), attDone := false })

/-- The report is written to ATTADDR and DONE is set (R427). -/
def execAttestationReport (vf : VfId) (s : State) : Result :=
  let f := vfOf s vf
  match f.attReport with
  | none => .next s
  | some r => .next (setVf (physWrite s (hostBase + f.attAddr.toNat) r) vf { f with attReport := none, attDone := true })

/-! ### Registers without a behaviour of their own (R7, R409) -/

/-- A word of ATTNONCE replaced. -/
def nonceWord (n : BitVec 256) (i : Nat) (x : Word) : BitVec 256 :=
  let sh := 64 * i
  (n &&& ~~~((2 ^ 64 - 1 : BitVec 256) <<< sh)) ||| (x.setWidth 256 <<< sh)

/-- A host write of a VF's register page (R409, R427). A CPLLOG2 outside 4 to 16 is not taken (log 38). CPLBASE and ATTADDR
are 4 KiB aligned: a write keeps their low 12 bits 0, which the manual does not state (DESIGN CHOICE, log 67). -/
def hostWrite (f : Vf) (off : Nat) (x : Word) : Vf :=
  match off with
  | 0x080 => { f with cplBase := x &&& ~~~(0xFFF : Word) }
  | 0x088 => if 4 ≤ x.toNat ∧ x.toNat ≤ 16 then { f with cplLog2 := x.toNat } else f
  | 0x0A0 => { f with msix := x &&& 0x7FF }
  | 0x100 => { f with attNonce := nonceWord f.attNonce 0 x }
  | 0x108 => { f with attNonce := nonceWord f.attNonce 1 x }
  | 0x110 => { f with attNonce := nonceWord f.attNonce 2 x }
  | 0x118 => { f with attNonce := nonceWord f.attNonce 3 x }
  | 0x120 => { f with attAddr := x &&& ~~~(0xFFF : Word) }
  | _ => f

/-- The CSRs whose write has no behaviour of its own: FPSR and the trap sets. -/
def plainCsr (c : Nat) : Bool := decide (c = 0x002 ∨ (0x400 ≤ c ∧ c ≤ 0x404) ∨ (0x800 ≤ c ∧ c ≤ 0x804))

/-- The configuration words whose write has a behaviour of its own. -/
def plainConfig : CfgReg → Bool
  | .code _ 1 => false
  | .slot _ _ _ => false
  | .none => false
  | _ => true

/-- A write of a register with no behaviour of its own (R7). -/
def execRegisterWrite (target : RegTarget) (value : BitVec 64) (s : State) : Result :=
  match target with
  | .csr num =>
    let c := num.toNat
    if plainCsr c ∧ csrHere (curOnTile s) c ∧ c / 1024 ≤ curLevel s then .next ((csrPut s c .write value).getD s)
    else .next s
  | .config th addr =>
    if inConfig addr ∧ addr % 8 = 0 ∧ plainConfig (cfgReg addr) ∧ (tagFrame addr).isNone then
      .next ((cfgWrite s th (cfgReg addr) value).getD s)
    else .next s
  | .hostPage vf off => if (vfOf s vf).state = 0 then .next s else .next (modVf s vf fun f => hostWrite f off value)

end Sys2Proof.Machine
end

