-- ==== Sys2Proof/Machine/Transcend.lean ====
section
/-! DEFINITION. The transcendental functions of the vector stream (06 R183, R184). Each value is enclosed in an interval
of 256-bit fixed point, computed with integers; where the interval settles 40 leading bits, rounding is exact. -/

namespace Sys2Proof.Machine

/-- The functions of R183. -/
inductive Fun where
  | exp2 | log2 | rcp | rsq | tanh | erf
  deriving DecidableEq, Repr

def Fun.code : Fun → Nat
  | .exp2 => 0
  | .log2 => 1
  | .rcp => 2
  | .rsq => 3
  | .tanh => 4
  | .erf => 5

/-- Fraction bits of the fixed point, and how far a computed value may lie from the exact one, in its last place. -/
def fxBits : Nat := 256
def fxOne : Nat := 2 ^ 256
def fxSlack : Nat := 2 ^ 40

/-- ln 2 and 2/sqrt(pi), rounded down. -/
def fxLn2 : Nat := 80260960185991308862233904206310070533990667611589946606122867505419956976171
def fxErf : Nat := 130657381209852114387528029350014196574164286124850014242073919076264802271585

/-- The product of two fixed-point numbers. -/
def fxMul (a b : Nat) : Nat := a * b / fxOne

/-- e^f for f below 1: the terms f^n/n!, the nth being `t`. -/
def expTerms (f : Nat) : Nat → Nat → Nat → Nat
  | 0, _, _ => 0
  | fuel + 1, n, t => t + expTerms f fuel (n + 1) (fxMul t f / (n + 1))

def fxExp (f : Nat) : Nat := expTerms f 80 0 fxOne

/-- e^-y for y of 0 or more. -/
def fxExpNeg (y : Nat) : Nat := fxExp (fxLn2 - y % fxLn2) / 2 ^ (y / fxLn2 + 1)

/-- atanh z for z up to 1/3: the terms z^(2n+1)/(2n+1), with z^(2n+1) in `t`. -/
def atanhTerms (z2 : Nat) : Nat → Nat → Nat → Nat
  | 0, _, _ => 0
  | fuel + 1, n, t => t / (2 * n + 1) + atanhTerms z2 fuel (n + 1) (fxMul t z2)

/-- log2 of a fixed-point number from 1 up to 2. -/
def fxLog2 (r : Nat) : Nat :=
  let z := (r - fxOne) * fxOne / (r + fxOne)
  2 * atanhTerms (fxMul z z) 96 0 z * fxOne / fxLn2

/-- The sum of (2q)^n / (2n+1)!!, the nth term being `t`. -/
def erfTerms (q2 : Nat) : Nat → Nat → Nat → Nat
  | 0, _, _ => 0
  | fuel + 1, n, t => t + erfTerms q2 fuel (n + 1) (fxMul t q2 / (2 * n + 3))

/-- How far the computed erf(x)/x may lie from the exact one: for q below 36, e^-q comes within 2^2 last places, and the sum,
below 2^50, magnifies that; the sum's own terms come within 2^62, which e^-q brings down again. -/
def fxErfSlack : Nat := 2 ^ 72

/-- erf(x)/x for x^2 = q below 36. -/
def fxErfOver (q : Nat) : Nat := fxMul fxErf (fxMul (fxExpNeg q) (erfTerms (2 * q) 256 0 fxOne))

/-- The value that lies strictly between the ends, times 2^e: its leading bits, where the ends agree on them; else the
end that a free value takes (log 8). -/
def enclosed (free : Bool) (neg : Bool) (lo hi : Nat) (e : Int) : Num :=
  let k := bitLen (lo ^^^ hi)
  if 40 ≤ bitLen (lo / 2 ^ k) then .fin neg (lo / 2 ^ k) (e + k) true
  else .fin neg (if free then hi else lo) e true

/-- A computed fixed-point value, times 2^e. -/
def nearly (free neg : Bool) (v : Nat) (e : Int) : Num := enclosed free neg (v - fxSlack) (v + fxSlack) (e - fxBits)

/-- Strictly below m x 2^e, by less than 2^-47 of it. -/
def justBelow (neg : Bool) (m : Nat) (e : Int) : Num :=
  let k := 48 - bitLen m
  .fin neg (m * 2 ^ k - 1) (e - k) true

/-- m x 2^e in fixed point, rounded down. -/
def fxOf (m : Nat) (e : Int) : Nat :=
  if 0 ≤ e + fxBits then m * 2 ^ (e + fxBits).toNat else m / 2 ^ (-(e + fxBits)).toNat

/-- m x 2^e reaches 2^k. -/
def reaches (m : Nat) (e k : Int) : Bool := decide (k < e + bitLen m)

/-- 2^x of a finite value. -/
def exp2Fin (free neg : Bool) (m : Nat) (e : Int) : Num :=
  if m = 0 then .exact false 1 0
  else if reaches m e 16 then .fin false 1 (if neg then -70000 else 70000) true
  else
    let p := m * 2 ^ (e + fxBits).toNat
    let v : Int := if neg then -(p : Int) else p
    let f := (v % (fxOne : Int)).toNat
    if f = 0 then .exact false 1 (v / (fxOne : Int))
    else nearly free false (fxExp (fxMul f fxLn2)) (v / (fxOne : Int))

/-- log2 of a finite value above 0. -/
def log2Fin (free : Bool) (m : Nat) (e : Int) : Num :=
  let b := bitLen m - 1
  let i := e + b
  if m = 2 ^ b then Num.ofInt i
  else
    let v : Int := i * (fxOne : Int) + fxLog2 (m * 2 ^ (fxBits - b))
    nearly free (decide (v < 0)) v.natAbs 0

/-- 1/sqrt x of a finite value above 0. -/
def rsqFin (m : Nat) (e : Int) : Num :=
  let odd := decide (e % 2 ≠ 0)
  let m' := if odd then 2 * m else m
  let r := isqrt (2 ^ 256 / m')
  .fin false r (-((if odd then e - 1 else e) / 2) - 128) (decide (r * r * m' ≠ 2 ^ 256))

/-- tanh of a finite value. -/
def tanhFin (free neg : Bool) (m : Nat) (e : Int) : Num :=
  if m = 0 then .exact neg 0 0
  else if !reaches m e (-30) then justBelow neg m e
  else if reaches m e 5 then justBelow neg 1 0
  else
    let t := fxExpNeg (2 * fxOf m e)
    nearly free neg ((fxOne - t) * fxOne / (fxOne + t)) 0

/-- erf of a finite value. -/
def erfFin (free neg : Bool) (m : Nat) (e : Int) : Num :=
  if m = 0 then .exact neg 0 0
  else if reaches m e 3 ∨ 6 * fxOne ≤ fxOf m e then justBelow neg 1 0
  else
    let v := fxErfOver (fxOf (m * m) (2 * e))
    enclosed free neg (m * (v - fxErfSlack)) (m * (v + fxErfSlack)) (e - fxBits)

/-- The function's exact value at an operand that is not NaN, with its flags (R184). -/
def funNum (free : Bool) (f : Fun) (x : Num) : Num × Flags :=
  match f, x with
  | .rcp, x => divNum (.exact false 1 0) x
  | .exp2, .inf n => (if n then .exact false 0 0 else .inf false, 0)
  | .exp2, .fin n m e _ => (exp2Fin free n m e, 0)
  | .log2, .inf n => if n then (.dnan, fInvalid) else (.inf false, 0)
  | .log2, .fin n m e _ =>
    if m = 0 then (.inf true, fDivzero) else if n then (.dnan, fInvalid) else (log2Fin free m e, 0)
  | .rsq, .inf n => if n then (.dnan, fInvalid) else (.exact false 0 0, 0)
  | .rsq, .fin n m e _ =>
    if m = 0 then (.inf n, fDivzero) else if n then (.dnan, fInvalid) else (rsqFin m e, 0)
  | .tanh, .inf n => (.exact n 1 0, 0)
  | .tanh, .fin n m e _ => (tanhFin free n m e, 0)
  | .erf, .inf n => (.exact n 1 0, 0)
  | .erf, .fin n m e _ => (erfFin free n m e, 0)
  | _, x => (x, 0)

/-- A transcendental function of an encoding, rounded once (R183, R184). -/
def fFun (f : Fun) (code mode : Nat) (sat : Bool) (draw a : Nat) : Nat × Flags :=
  let free := decide (Config.transcendental f.code code mode draw a % 2 = 1)
  rounded code mode sat draw (num1 (funNum free f) (widen code a))

end Sys2Proof.Machine
end

