-- ==== Sys2Proof/Machine/Vector.lean ====
section
/-! DEFINITION. The vector stream (06 R164 to R205). -/

namespace Sys2Proof.Machine

/-! ### Images and elements (R164, R165) -/

/-- The number format of a lane type (R69). -/
def typeFmt (t : Fin 8) : Nat :=
  match t.val with
  | 5 => 9
  | 6 => 8
  | 7 => 6
  | n => n

/-- The `m` sub-elements of `w` bits of a lane, least significant first (R31). -/
def subs (w : Nat) (l : Nat) : Nat → List Nat
  | 0 => []
  | m + 1 => l % 2 ^ w :: subs w (l / 2 ^ w) m

/-- The elements of an image, in ascending order. -/
def elems (w : Nat) (v : Image) : List Nat := v.toList.flatMap fun l => subs w l.toNat (32 / w)

/-- A lane of sub-elements. -/
def joined (w : Nat) : List Nat → Nat
  | [] => 0
  | e :: es => e % 2 ^ w + 2 ^ w * joined w es

/-- `n` lanes of `m` sub-elements each; a missing one is 0. -/
def laneList (w m : Nat) : Nat → List Nat → List Lane
  | 0, _ => []
  | n + 1, es => BitVec.ofNat 32 (joined w (es.take m)) :: laneList w m n (es.drop m)

theorem laneList_length (w m n : Nat) (es : List Nat) : (laneList w m n es).length = n := by
  induction n generalizing es with
  | zero => rfl
  | succ n ih => simp [laneList, ih]

/-- The image that holds elements of `w` bits. -/
def image (w : Nat) (es : List Nat) : Image := ⟨(laneList w (32 / w) 1024 es).toArray, by simp [laneList_length]⟩

/-- The lane at a row and column. -/
def laneAt (v : Image) (row c : Nat) : Lane := vget v (Fin.ofNat 1024 (row * 64 + c))

/-- The image whose lane at a row and column is given. -/
def imageBy (f : Nat → Nat → Nat) : Image := image 32 ((List.range 1024).map fun l => f (l / 64) (l % 64))

def zeroImage : Image := Vector.replicate 1024 0

/-- The image of 4096 bytes, and its bytes (R165). -/
def imageOfBytes (bs : List Byte) : Image := image 8 (bs.map BitVec.toNat)
def bytesOfImage (v : Image) : List Byte := (elems 8 v).map (BitVec.ofNat 8)

/-! ### Operands (R168 to R174) -/

/-- The queue that an operand code names. -/
def queueCode (c : VOpnd) : Option (Fin 4) := if 16 ≤ c.val ∧ c.val ≤ 19 then some (Fin.ofNat 4 (c.val - 16)) else none

/-- The code names a dead bypass slot (R170). -/
def deadBypass (T : Tile) (c : VOpnd) : Bool := decide (20 ≤ c.val ∧ c.val ≤ 22 ∧ T.bypass.length ≤ c.val - 20)

/-- The queue's sink format serves a word of sub-element width `w`, or of any width (R173). -/
def sinkServes (T : Tile) (w : Option Nat) (q : Fin 4) : Bool :=
  let f := (queueOf T q).fmt
  qPopOk f && match w with
    | some w => decide (snkBits f = w)
    | none => decide (snkBits f = 8 ∨ snkBits f = 16 ∨ snkBits f = 32)

/-- The first queue among the codes whose format does not serve. -/
def badSink (T : Tile) (w : Option Nat) : List VOpnd → Option (Fin 4)
  | [] => none
  | c :: cs => match queueCode c with
    | some q => if sinkServes T w q then badSink T w cs else some q
    | none => badSink T w cs

/-- Elements that a pop of 4096 bytes takes. -/
def popCount (T : Tile) (q : Fin 4) : Nat := 32768 / snkBits (queueOf T q).fmt

/-- Every queue among the codes holds what the word's pops need, with no S pop before them. -/
def popsReady (T : Tile) (cs : List VOpnd) : Bool :=
  (cs.filterMap queueCode).all fun q =>
    firstInLine (queueOf T q) .V &&
      decide (((cs.filterMap queueCode).filter fun r => r = q).length * popCount T q ≤ (queueOf T q).inb.length)

/-- The V stream's word takes its place at its queues (R174). -/
def joinLines (T : Tile) (ac : Nat) : List (Fin 4) → Tile
  | [] => T
  | q :: qs => joinLines (modQueue T q fun Q => joinLine Q .V ac) ac qs

/-- It gives its places up. -/
def leaveLines (T : Tile) : List (Fin 4) → Tile
  | [] => T
  | q :: qs => leaveLines (modQueue T q fun Q => leaveLine Q .V) qs

/-- The image of an operand that pops nothing. -/
def plainOpnd (T : Tile) (c : VOpnd) : Image :=
  if c.val < 16 then vget T.v (Fin.ofNat 16 c.val)
  else if 20 ≤ c.val ∧ c.val ≤ 22 then T.bypass.getD (c.val - 20) zeroImage
  else if 24 ≤ c.val then Vector.replicate 1024 (vget T.k (Fin.ofNat 8 (c.val - 24)))
  else zeroImage

/-- Read an operand, popping its queue. -/
def takeOpnd (T : Tile) (c : VOpnd) : Tile × Image :=
  match queueCode c with
  | some q =>
    let r := popRun T .V q (popCount T q)
    (r.1, image (snkBits (queueOf T q).fmt) r.2)
  | none => (T, plainOpnd T c)

/-- Read operands in order. -/
def takeOpnds (T : Tile) : List VOpnd → Tile × List Image
  | [] => (T, [])
  | c :: cs =>
    let a := takeOpnd T c
    let r := takeOpnds a.1 cs
    (r.1, a.2 :: r.2)

/-! ### Issue -/

/-- The end of a body's last word, innermost loop first (R204): the next address and the loops still active. -/
def loopEnd (pc : Word) : List VLoop → Word × List VLoop
  | [] => (pc + 4, [])
  | l :: ls =>
    if l.last = pc then
      if 1 < l.count.toNat then (l.first, { l with count := l.count - 1 } :: ls) else loopEnd pc ls
    else (pc + 4, l :: ls)

/-- The word has issued without a taken branch. -/
def vNext (T : Tile) : Tile :=
  let r := loopEnd T.vs.pc T.vloops
  { T with vloops := r.2, vs := { T.vs with pc := r.1 } }

/-- A V word: its form and operands are checked, it waits for its queues and for room, and then has its effect
(R167, R170, R173, R205). A dead bypass name comes before a queue of the wrong format (DESIGN CHOICE, log 67), and the pops' draws
before those of the results (DEDUCED, log 28). -/
def vWord (s : State) (i : Instr) (w : Option Nat) (cs : List VOpnd) (room : Tile → Bool)
    (f : Tile → List Image → Tile) : Result :=
  onTileV s i fun t _ =>
    let T := tileOf s t
    if wellFormed i = false ∨ cs.any (deadBypass T) then illegal s i
    else match badSink T w cs with
      | some q => raise s causeQueueFormat (word q.val)
      | none =>
        if popsReady T cs && room T then
          let r := takeOpnds (leaveLines T (cs.filterMap queueCode)) cs
          .next (setTile s t (vNext (f r.1 r.2)))
        else .next (setTile s t (joinLines T (acOf s t) (cs.filterMap queueCode)))

def anyRoom (_ : Tile) : Bool := true

/-- A producing word's result: into the bypass window, and into vd unless NW (R169, R171). -/
def produce (T : Tile) (d : VReg) (nw : Bool) (v : Image) : Tile :=
  { T with v := if nw then T.v else vset T.v d v, bypass := (v :: T.bypass).take 3 }

/-- A word whose result is a function of one or two operand images. -/
def vMove (s : State) (i : Instr) (w : Option Nat) (cs : List VOpnd) (d : VReg) (nw : Bool)
    (f : Tile → Image → Image → Image) : Result :=
  vWord s i w cs anyRoom fun T vs => produce T d nw (f T (vs.getD 0 zeroImage) (vs.getD 1 zeroImage))

/-! ### Element by element (R175 to R182) -/

/-- A function of a draw and the elements of va, vb and vd. -/
abbrev ElemFn := Nat → Nat → Nat → Nat → Nat × Flags

def elementwise (f : ElemFn) : List Nat → List Nat → List Nat → List Nat → List (Nat × Flags)
  | r :: rs, x :: xs, y :: ys, z :: zs => f r x y z :: elementwise f rs xs ys zs
  | _, _, _, _ => []

/-- Results with their flags, given one draw each in SR: FPSR, generator, window and vd (R42, R175). -/
def vResults (T : Tile) (d : VReg) (nw : Bool) (w mode : Nat) (f : List Nat → List (Nat × Flags)) : Tile :=
  let g := drawsFor T.vs.gen mode (32768 / w)
  let rs := f g.1
  produce { T with vs := { T.vs with gen := g.2, fpsr := raised T.vs.fpsr (orFlags rs) } } d nw
    (image w (rs.map Prod.fst))

/-- An element-wise word. -/
def vElem (s : State) (i : Instr) (t : Fin 8) (cs : List VOpnd) (d : VReg) (nw : Bool) (mode : Tile → Nat)
    (f : Nat → ElemFn) : Result :=
  let w := typeWidth t
  vWord s i (some w) cs anyRoom fun T vs =>
    vResults T d nw w (mode T) fun rs =>
      elementwise (f (mode T)) rs (elems w (vs.getD 0 zeroImage)) (elems w (vs.getD 1 zeroImage)) (elems w (vget T.v d))

/-- The rounding mode of a word (R175). -/
def vMode (m : Fin 8) (y : Bool) (T : Tile) : Nat := if y then fpcrRm T.vs.fpcr else m.val
def noMode (_ : Tile) : Nat := 0

/-- A signed element, and an integer result that wraps or saturates (R175). -/
def sInt (w x : Nat) : Int := (BitVec.ofNat w x).toInt
def intResult (w : Nat) (sat : Bool) (v : Int) : Nat × Flags :=
  let c := clampInt v (-(2 ^ (w - 1) : Nat)) ((2 ^ (w - 1) : Nat) - 1)
  if sat then (intBits w c, flagIf (decide (c ≠ v)) fClamped) else (intBits w v, 0)

/-- An arithmetic word in a floating or integer type (R177). -/
def arith (t : Fin 8) (sat : Bool) (ff : Nat → Nat → Bool → Nat → Nat → Nat → Nat × Flags) (fi : Int → Int → Int)
    (mode : Nat) : ElemFn := fun r x y _ =>
  if intType t then intResult (typeWidth t) sat (fi (sInt (typeWidth t) x) (sInt (typeWidth t) y))
  else ff (typeFmt t) mode sat r x y

/-- Minimum and maximum (R177). -/
def vMinMax (t : Fin 8) (mx number : Bool) : ElemFn := fun _ x y _ =>
  if intType t then
    let a := sInt (typeWidth t) x
    let b := sInt (typeWidth t) y
    (if (if mx then decide (a < b) else decide (b < a)) then y else x, 0)
  else minMax (typeFmt t) mx number x y

/-- FCMP's predicate number (R161) for a code of VCMP (R71). -/
def vPred (p : Nat) : Nat :=
  match p with
  | 0 => 0
  | 1 => 4
  | 2 => 1
  | 3 => 2
  | _ => 3

/-- An integer comparison. -/
def intHolds (p : Nat) (a b : Int) : Bool :=
  match p with
  | 0 => decide (a = b)
  | 1 => decide (a ≠ b)
  | 2 => decide (a < b)
  | _ => decide (a ≤ b)

/-- All ones where the predicate holds (R178). -/
def vCompare (t p : Fin 8) (u : Bool) : ElemFn := fun _ x y _ =>
  let w := typeWidth t
  let ones := fun (b : Bool) => if b then 2 ^ w - 1 else 0
  if intType t then
    (ones (if u then intHolds p.val x y else intHolds p.val (sInt w x) (sInt w y)), 0)
  else
    let a := widen (typeFmt t) x
    let b := widen (typeFmt t) y
    (ones (fcmpHolds (vPred p.val) a b), flagIf (fcmpInvalid (vPred p.val) a b) fInvalid)

/-- The shift amount: the low log2(w) bits (R180). -/
def shiftBy (w y : Nat) : Nat := y % w

/-- A conversion between types of one width (R181). -/
def vConvert (t e : Fin 8) (sat : Bool) (mode : Nat) : ElemFn := fun r x _ _ =>
  if t = e then
    if intType t then (x, 0)
    else
      let a := widen (typeFmt t) x
      (if a.isNan then quietBits (typeFmt t) x else x, snanFlag a)
  else cvt (typeFmt t) x (typeFmt e) mode sat r

/-- VADD (R177). -/
def execVadd (d : VReg) (a b : VOpnd) (t m : Fin 8) (y sat n : Bool) (s : State) : Result :=
  vElem s (.vadd d a b t m y sat n) t [a, b] d n (vMode m y) (arith t sat fAdd (· + ·))
/-- VSUB (R177). -/
def execVsub (d : VReg) (a b : VOpnd) (t m : Fin 8) (y sat n : Bool) (s : State) : Result :=
  vElem s (.vsub d a b t m y sat n) t [a, b] d n (vMode m y) (arith t sat fSub (· - ·))
/-- VMUL (R177). -/
def execVmul (d : VReg) (a b : VOpnd) (t m : Fin 8) (y sat n : Bool) (s : State) : Result :=
  vElem s (.vmul d a b t m y sat n) t [a, b] d n (vMode m y) (arith t sat fMul (· * ·))
/-- VFMA: va x vb + vd (R177). -/
def execVfma (d : VReg) (a b : VOpnd) (t m : Fin 8) (y sat n : Bool) (s : State) : Result :=
  vElem s (.vfma d a b t m y sat n) t [a, b] d n (vMode m y) fun mode r x y z => fFma (typeFmt t) mode sat r x y z
/-- VFMS: vd - va x vb (R177). -/
def execVfms (d : VReg) (a b : VOpnd) (t m : Fin 8) (y sat n : Bool) (s : State) : Result :=
  vElem s (.vfms d a b t m y sat n) t [a, b] d n (vMode m y) fun mode r x y z => fFms (typeFmt t) mode sat r x y z
/-- VDIV (R177). -/
def execVdiv (d : VReg) (a b : VOpnd) (t m : Fin 8) (y sat n : Bool) (s : State) : Result :=
  vElem s (.vdiv d a b t m y sat n) t [a, b] d n (vMode m y) fun mode r x y _ => fDiv (typeFmt t) mode sat r x y
/-- VSQRT (R177). -/
def execVsqrt (d : VReg) (a : VOpnd) (t m : Fin 8) (y sat n : Bool) (s : State) : Result :=
  vElem s (.vsqrt d a t m y sat n) t [a] d n (vMode m y) fun mode r x _ _ => fSqrt (typeFmt t) mode sat r x
/-- VMIN (R177). -/
def execVmin (d : VReg) (a b : VOpnd) (t : Fin 8) (n : Bool) (s : State) : Result :=
  vElem s (.vmin d a b t n) t [a, b] d n noMode fun _ => vMinMax t false false
/-- VMAX (R177). -/
def execVmax (d : VReg) (a b : VOpnd) (t : Fin 8) (n : Bool) (s : State) : Result :=
  vElem s (.vmax d a b t n) t [a, b] d n noMode fun _ => vMinMax t true false
/-- VMINN (R177). -/
def execVminn (d : VReg) (a b : VOpnd) (t : Fin 8) (n : Bool) (s : State) : Result :=
  vElem s (.vminn d a b t n) t [a, b] d n noMode fun _ => vMinMax t false true
/-- VMAXN (R177). -/
def execVmaxn (d : VReg) (a b : VOpnd) (t : Fin 8) (n : Bool) (s : State) : Result :=
  vElem s (.vmaxn d a b t n) t [a, b] d n noMode fun _ => vMinMax t true true
/-- VABS (R177). -/
def execVabs (d : VReg) (a : VOpnd) (t : Fin 8) (sat n : Bool) (s : State) : Result :=
  vElem s (.vabs d a t sat n) t [a] d n noMode fun _ _ x _ _ =>
    if intType t then intResult (typeWidth t) sat (sInt (typeWidth t) x).natAbs else (x % 2 ^ (typeWidth t - 1), 0)
/-- VNEG (R177). -/
def execVneg (d : VReg) (a : VOpnd) (t : Fin 8) (sat n : Bool) (s : State) : Result :=
  vElem s (.vneg d a t sat n) t [a] d n noMode fun _ _ x _ _ =>
    if intType t then intResult (typeWidth t) sat (-(sInt (typeWidth t) x)) else (x ^^^ 2 ^ (typeWidth t - 1), 0)
/-- VCMP (R178). -/
def execVcmp (d : VReg) (a b : VOpnd) (t p : Fin 8) (n u : Bool) (s : State) : Result :=
  vElem s (.vcmp d a b t p n u) t [a, b] d n noMode fun _ => vCompare t p u
/-- VSEL: vd chooses, bit by bit (R179). -/
def execVsel (d : VReg) (a b : VOpnd) (t : Fin 8) (n : Bool) (s : State) : Result :=
  vElem s (.vsel d a b t n) t [a, b] d n noMode fun _ _ x y z => ((x &&& z) ||| (y &&& (z ^^^ (2 ^ typeWidth t - 1))), 0)
/-- VAND (R179). -/
def execVand (d : VReg) (a b : VOpnd) (t : Fin 8) (n : Bool) (s : State) : Result :=
  vElem s (.vand d a b t n) t [a, b] d n noMode fun _ _ x y _ => (x &&& y, 0)
/-- VOR (R179). -/
def execVor (d : VReg) (a b : VOpnd) (t : Fin 8) (n : Bool) (s : State) : Result :=
  vElem s (.vor d a b t n) t [a, b] d n noMode fun _ _ x y _ => (x ||| y, 0)
/-- VXOR (R179). -/
def execVxor (d : VReg) (a b : VOpnd) (t : Fin 8) (n : Bool) (s : State) : Result :=
  vElem s (.vxor d a b t n) t [a, b] d n noMode fun _ _ x y _ => (x ^^^ y, 0)
/-- VSHL (R180). -/
def execVshl (d : VReg) (a b : VOpnd) (t : Fin 8) (n : Bool) (s : State) : Result :=
  vElem s (.vshl d a b t n) t [a, b] d n noMode fun _ _ x y _ =>
    (x * 2 ^ shiftBy (typeWidth t) y % 2 ^ typeWidth t, 0)
/-- VSHR (R180). -/
def execVshr (d : VReg) (a b : VOpnd) (t : Fin 8) (n : Bool) (s : State) : Result :=
  vElem s (.vshr d a b t n) t [a, b] d n noMode fun _ _ x y _ => (x / 2 ^ shiftBy (typeWidth t) y, 0)
/-- VSAR (R180). -/
def execVsar (d : VReg) (a b : VOpnd) (t : Fin 8) (n : Bool) (s : State) : Result :=
  vElem s (.vsar d a b t n) t [a, b] d n noMode fun _ _ x y _ =>
    (intBits (typeWidth t) (sInt (typeWidth t) x / (2 ^ shiftBy (typeWidth t) y : Nat)), 0)
/-- VCVT (R181). -/
def execVcvt (d : VReg) (a : VOpnd) (t m : Fin 8) (y sat : Bool) (e : Fin 8) (s : State) : Result :=
  vElem s (.vcvt d a t m y sat e) t [a] d false (vMode m y) (vConvert t e sat)
/-- VCLASS (R182). -/
def execVclass (d : VReg) (a : VOpnd) (t : Fin 8) (n : Bool) (s : State) : Result :=
  vElem s (.vclass d a t n) t [a] d n noMode fun _ _ x _ _ => (classOf (typeFmt t) x, 0)
/-- VEXP2 (R183). -/
def execVexp2 (d : VReg) (a : VOpnd) (t m : Fin 8) (y sat n : Bool) (s : State) : Result :=
  vElem s (.vexp2 d a t m y sat n) t [a] d n (vMode m y) fun mode r x _ _ => fFun .exp2 (typeFmt t) mode sat r x
/-- VLOG2 (R183). -/
def execVlog2 (d : VReg) (a : VOpnd) (t m : Fin 8) (y sat n : Bool) (s : State) : Result :=
  vElem s (.vlog2 d a t m y sat n) t [a] d n (vMode m y) fun mode r x _ _ => fFun .log2 (typeFmt t) mode sat r x
/-- VRCP (R183). -/
def execVrcp (d : VReg) (a : VOpnd) (t m : Fin 8) (y sat n : Bool) (s : State) : Result :=
  vElem s (.vrcp d a t m y sat n) t [a] d n (vMode m y) fun mode r x _ _ => fFun .rcp (typeFmt t) mode sat r x
/-- VRSQ (R183). -/
def execVrsq (d : VReg) (a : VOpnd) (t m : Fin 8) (y sat n : Bool) (s : State) : Result :=
  vElem s (.vrsq d a t m y sat n) t [a] d n (vMode m y) fun mode r x _ _ => fFun .rsq (typeFmt t) mode sat r x
/-- VTANH (R183). -/
def execVtanh (d : VReg) (a : VOpnd) (t m : Fin 8) (y sat n : Bool) (s : State) : Result :=
  vElem s (.vtanh d a t m y sat n) t [a] d n (vMode m y) fun mode r x _ _ => fFun .tanh (typeFmt t) mode sat r x
/-- VERF (R183). -/
def execVerf (d : VReg) (a : VOpnd) (t m : Fin 8) (y sat n : Bool) (s : State) : Result :=
  vElem s (.verf d a t m y sat n) t [a] d n (vMode m y) fun mode r x _ _ => fFun .erf (typeFmt t) mode sat r x

/-! ### Rows and columns (R185 to R189, R192) -/

/-- A list cut into `n` runs of `k`. -/
def runs {α : Type} (k : Nat) : Nat → List α → List (List α)
  | 0, _ => []
  | n + 1, l => l.take k :: runs k n (l.drop k)

/-- Columns of rows of `n` elements. -/
def columns (n : Nat) : List (List Nat) → List (List Nat)
  | [] => List.replicate n []
  | r :: rs => List.zipWith List.cons r (columns n rs)

/-- The finite values of a list, as an integer multiple of 2^e. -/
def sumFin (e : Int) : List Num → Int
  | [] => 0
  | .fin n m e1 _ :: xs => sgnd n (m * 2 ^ (e1 - e).toNat) + sumFin e xs
  | _ :: xs => sumFin e xs

/-- The least exponent of a list. -/
def minExp : List Num → Int
  | [] => 0
  | .fin _ _ e _ :: xs => min e (minExp xs)
  | _ :: xs => minExp xs

/-- The exact sum with the special values of R188. -/
def sumNum (mode : Nat) (xs : List Num) : Num × Flags :=
  match firstNan xs with
  | some n => (n, snanFlags xs)
  | none =>
    if xs.any (fun x => decide (x = .inf false)) then
      if xs.any (fun x => decide (x = .inf true)) then (.dnan, fInvalid) else (.inf false, 0)
    else if xs.any (fun x => decide (x = .inf true)) then (.inf true, 0)
    else
      let e := minExp xs
      let v := sumFin e xs
      if v = 0 then (.exact (xs.all (fun x => x.isZero && x.sign) || decide (mode = 2)) 0 0, 0)
      else (.exact (decide (v < 0)) v.natAbs e, 0)

/-- A fold of minimum or maximum from the first element. -/
def foldMinMax (f : ElemFn) : List Nat → Nat × Flags
  | [] => (0, 0)
  | x :: xs => xs.foldl (fun a y => let r := f 0 a.1 y 0; (r.1, a.2 ||| r.2)) (x, 0)

/-- One reduction (R188). -/
def reduce (t o : Fin 8) (mode draw : Nat) (xs : List Nat) : Nat × Flags :=
  match o.val with
  | 0 =>
    if intType t then (intBits (typeWidth t) ((xs.map (sInt (typeWidth t))).foldl (· + ·) 0), 0)
    else rounded (typeFmt t) mode false draw (sumNum mode (xs.map (widen (typeFmt t))))
  | 1 => foldMinMax (vMinMax t false false) xs
  | 2 => foldMinMax (vMinMax t true false) xs
  | 3 => foldMinMax (vMinMax t false true) xs
  | _ => foldMinMax (vMinMax t true true) xs

/-- Results with 0 in the elements that none fills. -/
def zeros (n : Nat) : List (Nat × Flags) := List.replicate n (0, 0)

/-- VREDR: each row into its element 0 (R187). -/
def reduceRows (t o : Fin 8) (mode : Nat) (v : Image) (rs : List Nat) : List (Nat × Flags) :=
  let n := 2048 / typeWidth t
  ((runs n 16 (elems (typeWidth t) v)).zip (runs n 16 rs)).flatMap fun p =>
    reduce t o mode (p.2.headD 0) p.1 :: zeros (n - 1)

/-- VREDC: each column into row 0 (R187). -/
def reduceColumns (t o : Fin 8) (mode : Nat) (v : Image) (rs : List Nat) : List (Nat × Flags) :=
  let n := 2048 / typeWidth t
  ((columns n (runs n 16 (elems (typeWidth t) v))).zip rs).map (fun p => reduce t o mode p.2 p.1) ++ zeros (15 * n)

/-- VROTR (R185). -/
def execVrotr (d : VReg) (a : VOpnd) (n : Bool) (c : Fin 64) (s : State) : Result :=
  vMove s (.vrotr d a n c) none [a] d n fun _ x _ => imageBy fun r k => (laneAt x r ((k + c.val) % 64)).toNat
/-- VBCR (R185). -/
def execVbcr (d : VReg) (a : VOpnd) (n : Bool) (c : Fin 64) (s : State) : Result :=
  vMove s (.vbcr d a n c) none [a] d n fun _ x _ => imageBy fun r _ => (laneAt x r c.val).toNat
/-- VROTC (R186). -/
def execVrotc (d : VReg) (a : VOpnd) (n : Bool) (c : Fin 16) (s : State) : Result :=
  vMove s (.vrotc d a n c) none [a] d n fun _ x _ => imageBy fun r k => (laneAt x ((r + c.val) % 16) k).toNat
/-- VBCC (R186). -/
def execVbcc (d : VReg) (a : VOpnd) (n : Bool) (c : Fin 16) (s : State) : Result :=
  vMove s (.vbcc d a n c) none [a] d n fun _ x _ => imageBy fun _ k => (laneAt x c.val k).toNat
/-- VREDR (R187, R188). -/
def execVredr (d : VReg) (a : VOpnd) (t m : Fin 8) (y n : Bool) (o : Fin 8) (s : State) : Result :=
  vWord s (.vredr d a t m y n o) (some (typeWidth t)) [a] anyRoom fun T vs =>
    vResults T d n (typeWidth t) (vMode m y T) (reduceRows t o (vMode m y T) (vs.headD zeroImage))
/-- VREDC (R187, R188). -/
def execVredc (d : VReg) (a : VOpnd) (t m : Fin 8) (y n : Bool) (o : Fin 8) (s : State) : Result :=
  vWord s (.vredc d a t m y n o) (some (typeWidth t)) [a] anyRoom fun T vs =>
    vResults T d n (typeWidth t) (vMode m y T) (reduceColumns t o (vMode m y T) (vs.headD zeroImage))
/-- VTRN (R189). -/
def execVtrn (d : VReg) (a : VOpnd) (n : Bool) (s : State) : Result :=
  vMove s (.vtrn d a n) none [a] d n fun _ x _ => imageBy fun r k => (laneAt x (k % 16) (k / 16 * 16 + r)).toNat

/-- A row's lanes whose mask lane is not 0, then zeros (R192). -/
def compressRow (xs ms : List Lane) : List Nat :=
  let l := (xs.zip ms).filterMap fun p => if p.2 = 0 then none else some p.1.toNat
  l ++ List.replicate (64 - l.length) 0
/-- VCOMPR (R192). -/
def execVcompr (d : VReg) (a b : VOpnd) (n : Bool) (s : State) : Result :=
  vMove s (.vcompr d a b n) none [a, b] d n fun _ x m =>
    image 32 (((runs 64 16 x.toList).zip (runs 64 16 m.toList)).flatMap fun p => compressRow p.1 p.2)

/-! ### Selection (R190, R191) -/

/-- The rank key of an element: a greater key ranks higher. -/
def rankKey (t : Fin 8) (x : Nat) : Int :=
  if t.val = 5 then sInt 32 x
  else if (widen 0 x).isNan then -(2 ^ 40)
  else if x / 2 ^ 31 % 2 = 1 then -1 - (x % 2 ^ 31 : Nat) else (x % 2 ^ 31 : Nat)

/-- Group rows of a column, highest rank first; equal ranks keep row order. -/
def ranking (keys : List Int) : List Nat :=
  (sortBy (fun (a b : Int × Nat) => decide (b.1 < a.1)) (keys.zip (List.range keys.length))).map Prod.snd

/-- The group's lanes, row by row. -/
def groupRows (T : Tile) (a n : Nat) : List (List Nat) :=
  (List.range n).flatMap fun j => runs 64 16 (elems 32 (vget T.v (Fin.ofNat 16 (a + j))))

/-- The word of a set of group rows that holds rows 32q to 32q + 31. -/
def selectBits (rows : List Nat) (q : Nat) : Nat :=
  rows.foldl (fun w g => if g / 32 = q then w + 2 ^ (g % 32) else w) 0

/-- VSELK (R190, R191). -/
def execVselk (d : VReg) (a : VOpnd) (g t : Fin 8) (k : Fin 16) (s : State) : Result :=
  vWord s (.vselk d a g t k) none [] anyRoom fun T _ =>
    let rows := groupRows T a.val (g.val + 1)
    let picks := (columns 64 rows).map fun c => (ranking (c.map (rankKey t))).take (k.val + 1)
    let idx := imageBy fun r c => (picks.getD c []).getD r 0xFFFFFFFF
    let mask := imageBy fun r c => if r < 4 then selectBits (picks.getD c []) r else 0
    let snan := decide (t.val = 0) && rows.any fun r => r.any fun x => (widen 0 x).isSnan
    let T := addFlagsT (produce T d false idx) .V (flagIf snan fInvalid)
    { T with v := vset T.v (Fin.ofNat 16 (d.val + 1)) mask }

/-! ### Movement (R193 to R201) -/

/-- The window offset in a k register, its low two bits 0 (R193, R194). -/
def kOffset (T : Tile) (k : Fin 8) : Nat := (vget T.k k).toNat / 4 * 4

/-- The window offset of each lane (R194). -/
def laneOffsets (T : Tile) (k : Fin 8) (idx : Image) : List Nat := idx.toList.map fun l => kOffset T k + 4 * l.toNat

/-- Store lanes in ascending order; the later one covers (R194). -/
def scatterLanes (T : Tile) : List Nat → List Lane → Tile
  | o :: os, l :: ls => scatterLanes (winWrite T o (leBytes 4 l.toNat)) os ls
  | _, _ => T

/-- VLDS (R193). -/
def execVlds (d : VReg) (k : Fin 8) (s : State) : Result :=
  vMove s (.vlds d k) none [] d false fun T _ _ => imageOfBytes (winRead T (kOffset T k) 4096)
/-- VSTS (R193). -/
def execVsts (a : VOpnd) (k : Fin 8) (s : State) : Result :=
  vWord s (.vsts a k) none [a] anyRoom fun T vs => winWrite T (kOffset T k) (bytesOfImage (vs.headD zeroImage))
/-- VLDX (R194). -/
def execVldx (d : VReg) (b : VOpnd) (k : Fin 8) (s : State) : Result :=
  vMove s (.vldx d b k) none [b] d false fun T x _ => image 32 ((laneOffsets T k x).map fun o => leNat (winRead T o 4))
/-- VSTX (R194). -/
def execVstx (a b : VOpnd) (k : Fin 8) (s : State) : Result :=
  vWord s (.vstx a b k) none [a, b] anyRoom fun T vs =>
    scatterLanes T (laneOffsets T k (vs.getD 1 zeroImage)) (vs.getD 0 zeroImage).toList
/-- VMOV (R196). -/
def execVmov (d : VReg) (a : VOpnd) (n : Bool) (s : State) : Result :=
  vMove s (.vmov d a n) none [a] d n fun _ x _ => x
/-- VPOP (R197). -/
def execVpop (d : VReg) (q : Fin 4) (s : State) : Result :=
  vMove s (.vpop d q) none [Fin.ofNat 32 (16 + q.val)] d false fun _ x _ => x

/-- The outbound side has room for 4096 bytes (R197). -/
def pushRoom (q : Fin 4) (T : Tile) : Bool :=
  decide ((queueOf T q).outb.length * snkBits (queueOf T q).fmt + 32768 ≤ 8 * sideBytes)
/-- VPUSH (R197). A dead bypass name comes before the sink queue's format (DESIGN CHOICE, log 67), and that before the
operand's (DEDUCED, log 28). -/
def execVpush (a : VOpnd) (q : Fin 4) (s : State) : Result :=
  onTileV s (.vpush a q) fun t _ =>
    if wellFormed (.vpush a q) = true ∧ deadBypass (tileOf s t) a = false ∧ qPopOk (queueOf (tileOf s t) q).fmt = false then
      raise s causeQueueFormat (word q.val)
    else vWord s (.vpush a q) none [a] (pushRoom q) fun T vs =>
      modQueue T q fun Q =>
        { Q with outb := Q.outb ++ (elems (snkBits Q.fmt) (vs.headD zeroImage)).map (BitVec.ofNat 32) }
/-- VIDX.ROW and VIDX.COL (R196). -/
def execVidx (d : VReg) (c : Bool) (s : State) : Result :=
  vMove s (.vidx d c) none [] d false fun _ _ _ => imageBy fun r k => if c then k else r

/-- The task owns an accumulator block (R198). -/
def holdsBlock (T : Tile) (c : Fin 16) : Bool := T.task.any fun k => k.acc.getLsbD c.val

/-- Segment `g` of a block as an image: element (8g + row/2, 64 (row mod 2) + c) at (row, c) (R198). -/
def segmentImage (T : Tile) (c : Fin 16) (g : Fin 8) : Image :=
  image 32 ((((vget T.acc c).toList.drop (1024 * g.val)).take 1024).map BitVec.toNat)

/-- A block's elements with segment `g` replaced. -/
def withSegment (old : AccBlock) (g : Fin 8) (v : Image) : AccBlock :=
  ⟨(((old.toList.take (1024 * g.val)) ++ v.toList ++ (old.toList.drop (1024 * g.val + 1024)))).toArray, by
    have := g.isLt
    simp
    omega⟩

/-- VACCR (R198). -/
def execVaccr (d : VReg) (c : Fin 16) (g : Fin 8) (s : State) : Result :=
  onTileV s (.vaccr d c g) fun t _ =>
    if holdsBlock (tileOf s t) c then vMove s (.vaccr d c g) none [] d false fun T _ _ => segmentImage T c g
    else privilege s (.vaccr d c g)
/-- VACCW (R198). Of an unowned block with a second cause, a dead bypass name comes before PRIVILEGE, and PRIVILEGE before the
format of a queue operand (DESIGN CHOICE, log 70). -/
def execVaccw (a : VOpnd) (c : Fin 16) (g : Fin 8) (s : State) : Result :=
  onTileV s (.vaccw a c g) fun t _ =>
    if holdsBlock (tileOf s t) c ∨ deadBypass (tileOf s t) a = true ∨ wellFormed (.vaccw a c g) = false then
      vWord s (.vaccw a c g) none [a] anyRoom fun T vs =>
        { T with acc := vset T.acc c (withSegment (vget T.acc c) g (vs.headD zeroImage)) }
    else privilege s (.vaccw a c g)

/-- The source images of VPACK in order (R200): va and vb, or for a quarter two registers from each. -/
def packSources (T : Tile) (quarter : Bool) (a b : VOpnd) (vs : List Image) : List Image :=
  if quarter then [a.val, a.val + 1, b.val, b.val + 1].map fun n => vget T.v (Fin.ofNat 16 n) else vs

/-- VPACK (R200). -/
def execVpack (d : VReg) (a b : VOpnd) (t m : Fin 8) (y sat : Bool) (e : Fin 8) (s : State) : Result :=
  vWord s (.vpack d a b t m y sat e) (some (typeWidth t)) [a, b] anyRoom fun T vs =>
    let srcs := packSources T (decide (typeWidth e * 4 = typeWidth t)) a b vs
    let es := srcs.flatMap (elems (typeWidth t))
    let mode := vMode m y T
    vResults T d false (typeWidth e) mode fun rs =>
      (es.zip rs).map fun p => cvt (typeFmt t) p.1 (typeFmt e) mode sat p.2
/-- VUNPK (R201). -/
def execVunpk (d : VReg) (a : VOpnd) (t : Fin 8) (h : Bool) (e : Fin 8) (s : State) : Result :=
  vWord s (.vunpk d a t h e) (some (typeWidth t)) [a] anyRoom fun T vs =>
    let n := 32768 / typeWidth e
    let es := ((elems (typeWidth t) (vs.headD zeroImage)).drop (if h then n else 0)).take n
    vResults T d false (typeWidth e) 0 fun _ => es.map fun x => cvt (typeFmt t) x (typeFmt e) 0 false 0

/-! ### Control (R202 to R204) -/

/-- KLI (R202). -/
def execKli (k : Fin 8) (i : BitVec 21) (s : State) : Result :=
  vWord s (.kli k i) none [] anyRoom fun T _ => { T with k := vset T.k k (i.signExtend 32) }
/-- KADD (R202). -/
def execKadd (k a : Fin 8) (i : BitVec 16) (s : State) : Result :=
  vWord s (.kadd k a i) none [] anyRoom fun T _ => { T with k := vset T.k k (vget T.k a + i.signExtend 32) }

/-- The test of a KBR (R203). -/
def kTest (c : Fin 16) (v : Lane) : Bool :=
  match c.val with
  | 0 => decide (v ≠ 0)
  | 1 => decide (v = 0)
  | 2 => decide (v.toInt < 0)
  | _ => decide (0 ≤ v.toInt)

/-- The loops that a taken branch leaves active: a target outside a body ends that loop and those inside it (R204). -/
def loopsAfter (target : Word) (ls : List VLoop) : List VLoop :=
  (ls.reverse.takeWhile fun l => decide (l.first.toNat ≤ target.toNat ∧ target.toNat ≤ l.last.toNat)).reverse

/-- KBR (R203, R204). -/
def execKbr (c : Fin 16) (a : Fin 8) (o : BitVec 16) (s : State) : Result :=
  onTileV s (.kbr c a o) fun t _ => checked s (.kbr c a o)
    (let T := tileOf s t
     let dest := target T.vs.pc 4 o
     if kTest c (vget T.k a) then
       .next (setTile s t { T with vloops := loopsAfter dest T.vloops, vs := { T.vs with pc := dest } })
     else .next (setTile s t (vNext T)))

/-- KBR to itself: the V stream's END (R135, R203). It waits there for what it has issued. -/
def execVEnd (c : Fin 16) (a : Fin 8) (s : State) : Result :=
  onTileV s (.vEnd c a) fun t _ => checked s (.vEnd c a)
    (.next (modTile s t fun T => { T with vs := { T.vs with run := .ending } }))

/-- VLOOP (R204). The loop at the top of the stack encloses it, even where a skipped inner loop has left pc past that loop's last
word (DESIGN CHOICE, log 70). -/
def execVloop (a : Fin 8) (l : Fin 4096) (s : State) : Result :=
  onTileV s (.vloop a l) fun t _ =>
    let T := tileOf s t
    let last := T.vs.pc + word (4 * (l.val + 1))
    let beyond := match T.vloops with
      | [] => false
      | e :: _ => decide (e.last.toNat < last.toNat)
    let c := vget T.k a
    if 2 ≤ T.vloops.length ∨ beyond = true then illegal s (.vloop a l)
    else if c.toInt ≤ 0 then .next (setTile s t { T with vs := { T.vs with pc := last + 4 } })
    else
      let e : VLoop := { first := T.vs.pc + 4, last := last, count := c }
      .next (setTile s t { T with vloops := e :: T.vloops, vs := { T.vs with pc := T.vs.pc + 4 } })

end Sys2Proof.Machine
end

