-- ==== Sys2Proof/Machine/Dispatch.lean ====
section
/-! DEFINITION. One arm for each instruction: a direct call of its meaning. -/

namespace Sys2Proof.Machine

/-- What an instruction does to the machine. -/
def exec (i : Instr) (s : State) : Host.Outcome State Fault Refusal :=
  match i with
  | .add d a b => Sys2Proof.Machine.execAdd d a b s
  | .sub d a b => Sys2Proof.Machine.execSub d a b s
  | .mul d a b => Sys2Proof.Machine.execMul d a b s
  | .mulhs d a b => Sys2Proof.Machine.execMulhs d a b s
  | .mulhu d a b => Sys2Proof.Machine.execMulhu d a b s
  | .div d a b => Sys2Proof.Machine.execDiv d a b s
  | .divu d a b => Sys2Proof.Machine.execDivu d a b s
  | .rem d a b => Sys2Proof.Machine.execRem d a b s
  | .remu d a b => Sys2Proof.Machine.execRemu d a b s
  | .and d a b => Sys2Proof.Machine.execAnd d a b s
  | .or d a b => Sys2Proof.Machine.execOr d a b s
  | .xor d a b => Sys2Proof.Machine.execXor d a b s
  | .andn d a b => Sys2Proof.Machine.execAndn d a b s
  | .shl d a b => Sys2Proof.Machine.execShl d a b s
  | .shr d a b => Sys2Proof.Machine.execShr d a b s
  | .sar d a b => Sys2Proof.Machine.execSar d a b s
  | .rol d a b => Sys2Proof.Machine.execRol d a b s
  | .min d a b => Sys2Proof.Machine.execMin d a b s
  | .minu d a b => Sys2Proof.Machine.execMinu d a b s
  | .max d a b => Sys2Proof.Machine.execMax d a b s
  | .maxu d a b => Sys2Proof.Machine.execMaxu d a b s
  | .slt d a b => Sys2Proof.Machine.execSlt d a b s
  | .sltu d a b => Sys2Proof.Machine.execSltu d a b s
  | .seq d a b => Sys2Proof.Machine.execSeq d a b s
  | .clz d a => Sys2Proof.Machine.execClz d a s
  | .ctz d a => Sys2Proof.Machine.execCtz d a s
  | .popc d a => Sys2Proof.Machine.execPopc d a s
  | .sel d a b => Sys2Proof.Machine.execSel d a b s
  | .addi d a im => Sys2Proof.Machine.execAddi d a im s
  | .andi d a im => Sys2Proof.Machine.execAndi d a im s
  | .ori d a im => Sys2Proof.Machine.execOri d a im s
  | .xori d a im => Sys2Proof.Machine.execXori d a im s
  | .shli d a n => Sys2Proof.Machine.execShli d a n s
  | .shri d a n => Sys2Proof.Machine.execShri d a n s
  | .sari d a n => Sys2Proof.Machine.execSari d a n s
  | .slti d a im => Sys2Proof.Machine.execSlti d a im s
  | .sltiu d a im => Sys2Proof.Machine.execSltiu d a im s
  | .lih d im => Sys2Proof.Machine.execLih d im s
  | .extu d a p l => Sys2Proof.Machine.execExtu d a p l s
  | .exts d a p l => Sys2Proof.Machine.execExts d a p l s
  | .ins d a p l => Sys2Proof.Machine.execIns d a p l s
  | .beq a b o => Sys2Proof.Machine.execBeq a b o s
  | .bne a b o => Sys2Proof.Machine.execBne a b o s
  | .blt a b o => Sys2Proof.Machine.execBlt a b o s
  | .bge a b o => Sys2Proof.Machine.execBge a b o s
  | .bltu a b o => Sys2Proof.Machine.execBltu a b o s
  | .bgeu a b o => Sys2Proof.Machine.execBgeu a b o s
  | .j o => Sys2Proof.Machine.execJ o s
  | .jal d o => Sys2Proof.Machine.execJal d o s
  | .jalr d a im => Sys2Proof.Machine.execJalr d a im s
  | .ldsB d a im => Sys2Proof.Machine.execLdsB d a im s
  | .ldsBu d a im => Sys2Proof.Machine.execLdsBu d a im s
  | .ldsH d a im => Sys2Proof.Machine.execLdsH d a im s
  | .ldsHu d a im => Sys2Proof.Machine.execLdsHu d a im s
  | .ldsW d a im => Sys2Proof.Machine.execLdsW d a im s
  | .ldsWu d a im => Sys2Proof.Machine.execLdsWu d a im s
  | .ldsD d a im => Sys2Proof.Machine.execLdsD d a im s
  | .stsB sf a im => Sys2Proof.Machine.execStsB sf a im s
  | .stsH sf a im => Sys2Proof.Machine.execStsH sf a im s
  | .stsW sf a im => Sys2Proof.Machine.execStsW sf a im s
  | .stsD sf a im => Sys2Proof.Machine.execStsD sf a im s
  | .amos d a b z o => Sys2Proof.Machine.execAmos d a b z o s
  | .cass d a b z => Sys2Proof.Machine.execCass d a b z s
  | .ldB d a im => Sys2Proof.Machine.execLdB d a im s
  | .ldBu d a im => Sys2Proof.Machine.execLdBu d a im s
  | .ldH d a im => Sys2Proof.Machine.execLdH d a im s
  | .ldHu d a im => Sys2Proof.Machine.execLdHu d a im s
  | .ldW d a im => Sys2Proof.Machine.execLdW d a im s
  | .ldWu d a im => Sys2Proof.Machine.execLdWu d a im s
  | .ldD d a im => Sys2Proof.Machine.execLdD d a im s
  | .stB sf a im => Sys2Proof.Machine.execStB sf a im s
  | .stH sf a im => Sys2Proof.Machine.execStH sf a im s
  | .stW sf a im => Sys2Proof.Machine.execStW sf a im s
  | .stD sf a im => Sys2Proof.Machine.execStD sf a im s
  | .amo d a b z o => Sys2Proof.Machine.execAmo d a b z o s
  | .cas d a b z => Sys2Proof.Machine.execCas d a b z s
  | .fadd d a b m => Sys2Proof.Machine.execFadd d a b m s
  | .faddDyn d a b => Sys2Proof.Machine.execFaddDyn d a b s
  | .fsub d a b m => Sys2Proof.Machine.execFsub d a b m s
  | .fsubDyn d a b => Sys2Proof.Machine.execFsubDyn d a b s
  | .fmul d a b m => Sys2Proof.Machine.execFmul d a b m s
  | .fmulDyn d a b => Sys2Proof.Machine.execFmulDyn d a b s
  | .fma d a b m => Sys2Proof.Machine.execFma d a b m s
  | .fmaDyn d a b => Sys2Proof.Machine.execFmaDyn d a b s
  | .fdiv d a b m => Sys2Proof.Machine.execFdiv d a b m s
  | .fdivDyn d a b => Sys2Proof.Machine.execFdivDyn d a b s
  | .fsqrt d a m => Sys2Proof.Machine.execFsqrt d a m s
  | .fsqrtDyn d a => Sys2Proof.Machine.execFsqrtDyn d a s
  | .fmin d a b => Sys2Proof.Machine.execFmin d a b s
  | .fmax d a b => Sys2Proof.Machine.execFmax d a b s
  | .fminn d a b => Sys2Proof.Machine.execFminn d a b s
  | .fmaxn d a b => Sys2Proof.Machine.execFmaxn d a b s
  | .fcmp d a b p => Sys2Proof.Machine.execFcmp d a b p s
  | .fcvtFmtF32 d a sf f m => Sys2Proof.Machine.execFcvtFmtF32 d a sf f m s
  | .fcvtFmtF32Dyn d a sf f => Sys2Proof.Machine.execFcvtFmtF32Dyn d a sf f s
  | .fcvtF32Fmt d a sf f m => Sys2Proof.Machine.execFcvtF32Fmt d a sf f m s
  | .fcvtF32FmtDyn d a sf f => Sys2Proof.Machine.execFcvtF32FmtDyn d a sf f s
  | .fclass d a => Sys2Proof.Machine.execFclass d a s
  | .qpops d q => Sys2Proof.Machine.execQpops d q s
  | .fork a m => Sys2Proof.Machine.execFork a m s
  | .join => Sys2Proof.Machine.execJoin s
  | .taskEnd => Sys2Proof.Machine.execTaskEnd s
  | .ckpt a im => Sys2Proof.Machine.execCkpt a im s
  | .waitc l sf c o => Sys2Proof.Machine.execWaitc l sf c o s
  | .waitv d a l m => Sys2Proof.Machine.execWaitv d a l m s
  | .pegp p => Sys2Proof.Machine.execPegp p s
  | .pegw a p => Sys2Proof.Machine.execPegw a p s
  | .bar p sf => Sys2Proof.Machine.execBar p sf s
  | .phase sf => Sys2Proof.Machine.execPhase sf s
  | .fence sf => Sys2Proof.Machine.execFence sf s
  | .jqput d a b => Sys2Proof.Machine.execJqput d a b s
  | .jqctlClassset d a b => Sys2Proof.Machine.execJqctlClassset d a b s
  | .jqctlClassget d a b => Sys2Proof.Machine.execJqctlClassget d a b s
  | .jqctlFreeze d a b => Sys2Proof.Machine.execJqctlFreeze d a b s
  | .jqctlThaw d a b => Sys2Proof.Machine.execJqctlThaw d a b s
  | .jqctlTake d a b => Sys2Proof.Machine.execJqctlTake d a b s
  | .jqctlSteal d a b => Sys2Proof.Machine.execJqctlSteal d a b s
  | .jqctlQuery d a b => Sys2Proof.Machine.execJqctlQuery d a b s
  | .ctraddLocal a b => Sys2Proof.Machine.execCtraddLocal a b s
  | .ctraddGlobal a b => Sys2Proof.Machine.execCtraddGlobal a b s
  | .send d a b => Sys2Proof.Machine.execSend d a b s
  | .bkarm d a b => Sys2Proof.Machine.execBkarm d a b s
  | .evget d => Sys2Proof.Machine.execEvget d s
  | .evdone => Sys2Proof.Machine.execEvdone s
  | .csrr d c => Sys2Proof.Machine.execCsrr d c s
  | .csrw a c => Sys2Proof.Machine.execCsrw a c s
  | .csrwC a c => Sys2Proof.Machine.execCsrwC a c s
  | .csrx d a c => Sys2Proof.Machine.execCsrx d a c s
  | .csrxS d a c => Sys2Proof.Machine.execCsrxS d a c s
  | .trap c => Sys2Proof.Machine.execTrap c s
  | .sret => Sys2Proof.Machine.execSret s
  | .tlbiVa a b => Sys2Proof.Machine.execTlbiVa a b s
  | .tlbiAsid b => Sys2Proof.Machine.execTlbiAsid b s
  | .tlbiAll => Sys2Proof.Machine.execTlbiAll s
  | .seghold a => Sys2Proof.Machine.execSeghold a s
  | .segrel a => Sys2Proof.Machine.execSegrel a s
  | .vadd d a b t m y sf n => Sys2Proof.Machine.execVadd d a b t m y sf n s
  | .vsub d a b t m y sf n => Sys2Proof.Machine.execVsub d a b t m y sf n s
  | .vmul d a b t m y sf n => Sys2Proof.Machine.execVmul d a b t m y sf n s
  | .vfma d a b t m y sf n => Sys2Proof.Machine.execVfma d a b t m y sf n s
  | .vfms d a b t m y sf n => Sys2Proof.Machine.execVfms d a b t m y sf n s
  | .vdiv d a b t m y sf n => Sys2Proof.Machine.execVdiv d a b t m y sf n s
  | .vsqrt d a t m y sf n => Sys2Proof.Machine.execVsqrt d a t m y sf n s
  | .vmin d a b t n => Sys2Proof.Machine.execVmin d a b t n s
  | .vmax d a b t n => Sys2Proof.Machine.execVmax d a b t n s
  | .vminn d a b t n => Sys2Proof.Machine.execVminn d a b t n s
  | .vmaxn d a b t n => Sys2Proof.Machine.execVmaxn d a b t n s
  | .vabs d a t sf n => Sys2Proof.Machine.execVabs d a t sf n s
  | .vneg d a t sf n => Sys2Proof.Machine.execVneg d a t sf n s
  | .vcmp d a b t p n u => Sys2Proof.Machine.execVcmp d a b t p n u s
  | .vsel d a b t n => Sys2Proof.Machine.execVsel d a b t n s
  | .vand d a b t n => Sys2Proof.Machine.execVand d a b t n s
  | .vor d a b t n => Sys2Proof.Machine.execVor d a b t n s
  | .vxor d a b t n => Sys2Proof.Machine.execVxor d a b t n s
  | .vshl d a b t n => Sys2Proof.Machine.execVshl d a b t n s
  | .vshr d a b t n => Sys2Proof.Machine.execVshr d a b t n s
  | .vsar d a b t n => Sys2Proof.Machine.execVsar d a b t n s
  | .vcvt d a t m y sf e => Sys2Proof.Machine.execVcvt d a t m y sf e s
  | .vclass d a t n => Sys2Proof.Machine.execVclass d a t n s
  | .vexp2 d a t m y sf n => Sys2Proof.Machine.execVexp2 d a t m y sf n s
  | .vlog2 d a t m y sf n => Sys2Proof.Machine.execVlog2 d a t m y sf n s
  | .vrcp d a t m y sf n => Sys2Proof.Machine.execVrcp d a t m y sf n s
  | .vrsq d a t m y sf n => Sys2Proof.Machine.execVrsq d a t m y sf n s
  | .vtanh d a t m y sf n => Sys2Proof.Machine.execVtanh d a t m y sf n s
  | .verf d a t m y sf n => Sys2Proof.Machine.execVerf d a t m y sf n s
  | .vrotr d a n c => Sys2Proof.Machine.execVrotr d a n c s
  | .vbcr d a n c => Sys2Proof.Machine.execVbcr d a n c s
  | .vredr d a t m y n o => Sys2Proof.Machine.execVredr d a t m y n o s
  | .vrotc d a n c => Sys2Proof.Machine.execVrotc d a n c s
  | .vbcc d a n c => Sys2Proof.Machine.execVbcc d a n c s
  | .vredc d a t m y n o => Sys2Proof.Machine.execVredc d a t m y n o s
  | .vtrn d a n => Sys2Proof.Machine.execVtrn d a n s
  | .vselk d a g t k => Sys2Proof.Machine.execVselk d a g t k s
  | .vcompr d a b n => Sys2Proof.Machine.execVcompr d a b n s
  | .vlds d k => Sys2Proof.Machine.execVlds d k s
  | .vsts a k => Sys2Proof.Machine.execVsts a k s
  | .vldx d b k => Sys2Proof.Machine.execVldx d b k s
  | .vstx a b k => Sys2Proof.Machine.execVstx a b k s
  | .vmov d a n => Sys2Proof.Machine.execVmov d a n s
  | .vpop d q => Sys2Proof.Machine.execVpop d q s
  | .vpush a q => Sys2Proof.Machine.execVpush a q s
  | .vidx d c => Sys2Proof.Machine.execVidx d c s
  | .vaccr d c sf => Sys2Proof.Machine.execVaccr d c sf s
  | .vaccw a c sf => Sys2Proof.Machine.execVaccw a c sf s
  | .vpack d a b t m y sf e => Sys2Proof.Machine.execVpack d a b t m y sf e s
  | .vunpk d a t h e => Sys2Proof.Machine.execVunpk d a t h e s
  | .kli k im => Sys2Proof.Machine.execKli k im s
  | .kadd k a im => Sys2Proof.Machine.execKadd k a im s
  | .kbr c a o => Sys2Proof.Machine.execKbr c a o s
  | .vEnd c a => Sys2Proof.Machine.execVEnd c a s
  | .vloop a l => Sys2Proof.Machine.execVloop a l s
  | .lit im => Sys2Proof.Machine.execLit im s
  | .litx im => Sys2Proof.Machine.execLitx im s
  | .dup => Sys2Proof.Machine.execDup s
  | .drop => Sys2Proof.Machine.execDrop s
  | .swap => Sys2Proof.Machine.execSwap s
  | .over => Sys2Proof.Machine.execOver s
  | .engineAdd => Sys2Proof.Machine.execEngineAdd s
  | .engineSub => Sys2Proof.Machine.execEngineSub s
  | .engineDo l => Sys2Proof.Machine.execEngineDo l s
  | .engineLoop l d => Sys2Proof.Machine.execEngineLoop l d s
  | .engineBr o => Sys2Proof.Machine.execEngineBr o s
  | .engineBz o => Sys2Proof.Machine.execEngineBz o s
  | .enginePegp p => Sys2Proof.Machine.execEnginePegp p s
  | .enginePegw p => Sys2Proof.Machine.execEnginePegw p s
  | .engineWaitc c n => Sys2Proof.Machine.execEngineWaitc c n s
  | .engineFence sf => Sys2Proof.Machine.execEngineFence sf s
  | .engineCtraddLocal q r sf => Sys2Proof.Machine.execEngineCtraddLocal q r sf s
  | .engineCtraddGlobal q r sf => Sys2Proof.Machine.execEngineCtraddGlobal q r sf s
  | .engineEnd => Sys2Proof.Machine.execEngineEnd s
  | .mma q r sf x => Sys2Proof.Machine.execMma q r sf x s
  | .accz q r sf => Sys2Proof.Machine.execAccz q r sf s
  | .accdrain q r sf => Sys2Proof.Machine.execAccdrain q r sf s
  | .scaleset t => Sys2Proof.Machine.execScaleset t s
  | .copyin q r sf p => Sys2Proof.Machine.execCopyin q r sf p s
  | .copyout q r sf p => Sys2Proof.Machine.execCopyout q r sf p s
  | .nest q r sf p => Sys2Proof.Machine.execNest q r sf p s
  | .gath q r sf p => Sys2Proof.Machine.execGath q r sf p s
  | .scat q r sf p => Sys2Proof.Machine.execScat q r sf p s
  | .qstream q r sf n => Sys2Proof.Machine.execQstream q r sf n s
  | .qdrain q r sf n => Sys2Proof.Machine.execQdrain q r sf n s
  | .mlr q r sf b => Sys2Proof.Machine.execMlr q r sf b s
  | .mst q r sf => Sys2Proof.Machine.execMst q r sf s
  | .pref q r sf => Sys2Proof.Machine.execPref q r sf s
  | .discardComplete gang => Sys2Proof.Machine.execDiscardComplete gang s
  | .commandCompletion t onM id => Sys2Proof.Machine.execCommandCompletion t onM id s
  | .nestIteration t id => Sys2Proof.Machine.execNestIteration t id s
  | .streamEnd t st => Sys2Proof.Machine.execStreamEnd t st s
  | .publishComplete t => Sys2Proof.Machine.execPublishComplete t s
  | .checkpointCommit gang => Sys2Proof.Machine.execCheckpointCommit gang s
  | .preemptFallback gang => Sys2Proof.Machine.execPreemptFallback gang s
  | .barComplete gang => Sys2Proof.Machine.execBarComplete gang s
  | .waitvTimeout t => Sys2Proof.Machine.execWaitvTimeout t s
  | .waitvReturn t => Sys2Proof.Machine.execWaitvReturn t s
  | .portCycle => Sys2Proof.Machine.execPortCycle s
  | .gangStart gang => Sys2Proof.Machine.execGangStart gang s
  | .gangComplete gang => Sys2Proof.Machine.execGangComplete gang s
  | .cardRead p slot => Sys2Proof.Machine.execCardRead p slot s
  | .agingStep item => Sys2Proof.Machine.execAgingStep item s
  | .holdClaim p item => Sys2Proof.Machine.execHoldClaim p item s
  | .backoffExpiry entry => Sys2Proof.Machine.execBackoffExpiry entry s
  | .pageWaitTimeout item => Sys2Proof.Machine.execPageWaitTimeout item s
  | .tlbiComplete th => Sys2Proof.Machine.execTlbiComplete th s
  | .segholdComplete th => Sys2Proof.Machine.execSegholdComplete th s
  | .install th msg => Sys2Proof.Machine.execInstall th msg s
  | .remove th msg => Sys2Proof.Machine.execRemove th msg s
  | .prefetch th msg => Sys2Proof.Machine.execPrefetch th msg s
  | .evict th msg => Sys2Proof.Machine.execEvict th msg s
  | .pool th msg => Sys2Proof.Machine.execPool th msg s
  | .spill th msg => Sys2Proof.Machine.execSpill th msg s
  | .fetchComplete entry => Sys2Proof.Machine.execFetchComplete entry s
  | .fetchFailure entry tierAddr => Sys2Proof.Machine.execFetchFailure entry tierAddr s
  | .evictionComplete entry => Sys2Proof.Machine.execEvictionComplete entry s
  | .snapshot th msg => Sys2Proof.Machine.execSnapshot th msg s
  | .snapshotCut scope => Sys2Proof.Machine.execSnapshotCut scope s
  | .snapshotFrameSave scope => Sys2Proof.Machine.execSnapshotFrameSave scope s
  | .snapshotComplete scope tierError => Sys2Proof.Machine.execSnapshotComplete scope tierError s
  | .preempt th msg => Sys2Proof.Machine.execPreempt th msg s
  | .withdraw th msg => Sys2Proof.Machine.execWithdraw th msg s
  | .nvmeAdmin th msg => Sys2Proof.Machine.execNvmeAdmin th msg s
  | .droverCopy th msg => Sys2Proof.Machine.execDroverCopy th msg s
  | .stateExport th msg => Sys2Proof.Machine.execStateExport th msg s
  | .stateImport th msg => Sys2Proof.Machine.execStateImport th msg s
  | .droverComplete id tierError => Sys2Proof.Machine.execDroverComplete id tierError s
  | .hostCompletion th cookie lo hi => Sys2Proof.Machine.execHostCompletion th cookie lo hi s
  | .timerRequest th msg => Sys2Proof.Machine.execTimerRequest th msg s
  | .timerExpiry id => Sys2Proof.Machine.execTimerExpiry id s
  | .watchdog th => Sys2Proof.Machine.execWatchdog th s
  | .packetArrival p => Sys2Proof.Machine.execPacketArrival p s
  | .messageCompletion id => Sys2Proof.Machine.execMessageCompletion id s
  | .counterIncrement ctr by_ => Sys2Proof.Machine.execCounterIncrement ctr by_ s
  | .ackArrival id resp => Sys2Proof.Machine.execAckArrival id resp s
  | .retransmitTimeout id => Sys2Proof.Machine.execRetransmitTimeout id s
  | .retryBackoffExpiry id => Sys2Proof.Machine.execRetryBackoffExpiry id s
  | .purlinRequest r => Sys2Proof.Machine.execPurlinRequest r s
  | .linkStateChange kind port up => Sys2Proof.Machine.execLinkStateChange kind port up s
  | .launch vf packet => Sys2Proof.Machine.execLaunch vf packet s
  | .cplhead vf value => Sys2Proof.Machine.execCplhead vf value s
  | .readyctl vf value => Sys2Proof.Machine.execReadyctl vf value s
  | .attgo vf value => Sys2Proof.Machine.execAttgo vf value s
  | .attestationReport vf => Sys2Proof.Machine.execAttestationReport vf s
  | .recoveryImage length => Sys2Proof.Machine.execRecoveryImage length s
  | .vfctlCreate th value => Sys2Proof.Machine.execVfctlCreate th value s
  | .vfctlFreeze th value => Sys2Proof.Machine.execVfctlFreeze th value s
  | .freezeComplete vf => Sys2Proof.Machine.execFreezeComplete vf s
  | .vfctlUnfreeze th value => Sys2Proof.Machine.execVfctlUnfreeze th value s
  | .vfctlTear th value => Sys2Proof.Machine.execVfctlTear th value s
  | .teardownComplete vf => Sys2Proof.Machine.execTeardownComplete vf s
  | .partctlCreate th value => Sys2Proof.Machine.execPartctlCreate th value s
  | .partctlDelete th value => Sys2Proof.Machine.execPartctlDelete th value s
  | .partitionFault p => Sys2Proof.Machine.execPartitionFault p s
  | .dbgctlHalt th value => Sys2Proof.Machine.execDbgctlHalt th value s
  | .haltReport t => Sys2Proof.Machine.execHaltReport t s
  | .dbgctlResume th value => Sys2Proof.Machine.execDbgctlResume th value s
  | .dbgctlAbort th value => Sys2Proof.Machine.execDbgctlAbort th value s
  | .dbgctlBparm th value => Sys2Proof.Machine.execDbgctlBparm th value s
  | .dbgctlBpdisarm th value => Sys2Proof.Machine.execDbgctlBpdisarm th value s
  | .dbgdataRead th => Sys2Proof.Machine.execDbgdataRead th s
  | .dbgdataWrite th value => Sys2Proof.Machine.execDbgdataWrite th value s
  | .dbgselWrite th value => Sys2Proof.Machine.execDbgselWrite th value s
  | .fpcrWrite value => Sys2Proof.Machine.execFpcrWrite value s
  | .codesize th p value => Sys2Proof.Machine.execCodesize th p value s
  | .ownerTag th frame tag => Sys2Proof.Machine.execOwnerTag th frame tag s
  | .endpointSlot th p slot word value => Sys2Proof.Machine.execEndpointSlot th p slot word value s
  | .registerWrite target value => Sys2Proof.Machine.execRegisterWrite target value s
  | .boot => Sys2Proof.Machine.execBoot s
  | .powerOn railsInOrder => Sys2Proof.Machine.execPowerOn railsInOrder s
  | .clockStep die up => Sys2Proof.Machine.execClockStep die up s
  | .scrub granule upset => Sys2Proof.Machine.execScrub granule upset s
  | .nvmeAdminCompletion port lo hi => Sys2Proof.Machine.execNvmeAdminCompletion port lo hi s
  | .purlinRetryExpiry t id => Sys2Proof.Machine.execPurlinRetryExpiry t id s
  | .powerLoss cut => Sys2Proof.Machine.execPowerLoss cut s

end Sys2Proof.Machine
end

