-- ==== Sys2Proof/Machine/Turn.lean ====
section
/-! DEFINITION. Time: Innkeeper cycles, the dies' clocks, and what a reference tick counts (00 R6; 04 R99, R103; 05 R146;
09 R282; 10 R306, R308; 11 R330; 12 R352, R366; 13 R380, R391, R404, R406, R415, R416; 14 R431). -/

namespace Sys2Proof.Machine

/-- Every element of a vector changed. -/
def vmap {α β : Type} {n : Nat} (f : α → β) (v : Vector α n) : Vector β n :=
  ⟨(v.toList.map f).toArray, by simp⟩

/-- Every entry of a table changed. -/
def tmap {α β : Type} (f : α → β) (t : Table α) : Table β := t.map fun e => (e.1, f e.2)

/-! ### Clocks (R6, R431) -/

/-- A die's clock after one Innkeeper cycle of 1.6 GHz. -/
def clockDie (d : DieClock) : DieClock :=
  if 1600 ≤ d.frac + d.mhz then { d with ac := d.ac + 1, frac := d.frac + d.mhz - 1600 }
  else { d with frac := d.frac + d.mhz }

/-! ### What a reference tick counts -/

/-- The VF's waits count: it is not FROZEN (R415). -/
def ticking (s : State) (v : VfId) : Bool := decide ((vfOf s v).state ≠ 3)

/-- VTICK (R103): ticks outside FROZEN since CREATE. -/
def tickVf (f : Vf) : Vf := if f.state = 0 ∨ f.state = 3 then f else { f with vtick := f.vtick + 1 }

/-- The watchdog counts while the thread is neither parked in EVGET nor held by SEGHOLD (R380). -/
def tickThread (h : Thread) : Thread :=
  let parked : Bool := match h.wait with
    | .evget _ => true
    | _ => false
  if parked ∨ h.heldAccess ∨ h.held then h else { h with watchdog := h.watchdog + 1 }

/-- One more tick of a wait that has begun. -/
def tickWait : Option Nat → Option Nat
  | none => none
  | some n => some (n + 1)

/-- WAITV counts while its task is RUNNING, not HALTED, and its VF is neither FROZEN nor on its way there (R330, R416). -/
def tickSWait (s : State) (T : Tile) : SWait :=
  match T.task, T.sWait with
  | some k, .waitv d a m cs l n =>
    if T.debug = .none ∧ ticking s k.vf ∧ (vfOf s k.vf).freezeCtr = none ∧
       (gangOf s k.gang).any fun g => decide (g.state = .running) then
      .waitv d a m cs l (n + 1)
    else .waitv d a m cs l n
  | _, w => w

/-- Ticks of retry-later answers of the oldest publish (R406). -/
def tickPublishes : List Publish → List Publish
  | [] => []
  | p :: ps => { p with retryTicks := tickWait p.retryTicks } :: ps

def tickTile (s : State) (T : Tile) : Tile :=
  { T with sWait := tickSWait s T, publishes := tickPublishes T.publishes
           cmdsA := T.cmdsA.map fun c => { c with retryTicks := tickWait c.retryTicks } }

/-- Some member of a gang is halted (R146). -/
def gangHalted (s : State) (g : Gang) : Bool := g.tiles.any fun t => decide ((tileOf s t).debug ≠ .none)

/-- A class dispatches: it is installed and not frozen (R282). -/
def classRuns (s : State) (p : PartId) (c : Nat) : Bool := (tfind (partOf s p).classes c).any fun r => !r.frozen

/-- The item is eligible and no die can take it: it waits on (R308). -/
def tickUnplaced (s : State) (p : PartId) (items : List Item) (i : ItemId) (n : Nat) : Nat :=
  match items.find? fun x => decide (x.id = i) with
  | some x => if x.tiles ∧ (List.range 4).all fun d => !fitsOn s p d x then n + 1 else 0
  | none => 0

/-- A gang's waits: the pre-emption fallback, a page wait, aging, and placement. -/
def tickGang (s : State) (items : List Item) (id : Nat) (g : Gang) : Gang :=
  if ticking s g.vf = false then g
  else
    { g with
      preqTicks := if g.preq ∧ (g.state = .placed ∨ g.state = .running) ∧ gangHalted s g = false then g.preqTicks + 1
        else g.preqTicks
      pageTicks := if g.pageWait.isSome then g.pageTicks + 1 else g.pageTicks
      aged := if g.state = .queued then g.aged + 1 else g.aged
      unplaced := tickUnplaced s g.part items (.gang id) g.unplaced }

/-- The VF of an entry's class, or the one that holds its unit. -/
def waitVf (s : State) (e : JqEntry) : VfId := (entryVf s e).getD e.unitVf

/-- An entry's waits: aging while READY, back-off while HELD, and placement (R282, R308, R366). -/
def tickEntry (s : State) (items : List Item) (id : Nat) (e : JqEntry) : JqEntry :=
  if ticking s (waitVf s e) = false then e
  else
    { e with
      aged := if e.state = .ready ∧ classRuns s e.part e.cls then e.aged + 1 else e.aged
      backoffLeft := if e.state = .held then e.backoffLeft - 1 else e.backoffLeft
      unplaced := tickUnplaced s e.part items (.entry id) e.unplaced }

/-- A card's waits: its record's page, aging from its activation on while records are undealt, and placement (R302, R306,
R308). -/
def tickCard (s : State) (p : PartId) (items : List Item) (slot : Nat) (c : Card) : Card :=
  match tfind s.entries c.entry with
  | none => c
  | some e =>
    if ticking s (waitVf s e) = false then c
    else
      { c with
        pageTicks := if c.pageWait.isSome then c.pageTicks + 1 else c.pageTicks
        aged := if (c.ready = false ∨ cardUndealt c) ∧ classRuns s p e.cls then c.aged + 1 else c.aged
        unplaced := tickUnplaced s p items (.card p slot) c.unplaced }

def tickPart (s : State) (p : PartId) (items : List Item) (q : Partition) : Partition :=
  { q with cards := q.cards.map fun c => (c.1, tickCard s p items c.1 c.2) }

/-- A timer of a VF's thread stands still while the VF is FROZEN (R415). -/
def tickTimer (s : State) (t : Timer) : Timer :=
  match vfOfThread s t.thread with
  | some v => if ticking s v then { t with left := t.left - 1 } else t
  | none => { t with left := t.left - 1 }

/-- A packet's ticks since its first try, and its back-off (R391). -/
def tickPacket (p : OutPacket) : OutPacket :=
  match p.backoff with
  | some n => { p with backoff := some (n - 1) }
  | none => if p.sent && !p.acked then { p with ticks := p.ticks + 1 } else p
def tickSend (o : OutSend) : OutSend := { o with packets := o.packets.map tickPacket }

/-- Partitions in turn, with their eligible items. -/
def tickParts (s : State) (items : List Item) : List PartId → Vector Partition 40 → Vector Partition 40
  | [], v => v
  | p :: ps, v => tickParts s items ps (vset v p (tickPart s p items (vget v p)))

/-- One reference tick. -/
def refTick (s : State) : State :=
  let items := (allFin 40).flatMap (itemsOf s)
  { s with
    vfs := vmap tickVf s.vfs
    threads := vmap tickThread s.threads
    tiles := vmap (tickTile s) s.tiles
    gangs := s.gangs.map fun g => (g.1, tickGang s items g.1 g.2)
    entries := s.entries.map fun e => (e.1, tickEntry s items e.1 e.2)
    parts := tickParts s items (allFin 40) s.parts
    timers := tmap (tickTimer s) s.timers
    outbound := tmap tickSend s.outbound }

/-- The time-out of the WAITV on a tile has just counted out. -/
def waitDue (s : State) (t : TileId) : Bool :=
  match (tileOf s t).sWait with
  | .waitv _ _ _ _ timeout ticks => decide (ticks = timeout)
  | _ => false

/-- The WAITVs of some tiles look at their conditions. -/
def lookAll (s : State) : List TileId → State
  | [] => s
  | t :: ts => lookAll (match waitAgain t s with
      | .next s => s
      | _ => s) ts

/-- The port cycle that ends with this Innkeeper cycle takes place, if it has not (R432). -/
def duePort (s : State) : State :=
  if s.ik % 2 = 1 then match execPortCycle s with
    | .next s => s
    | _ => s
  else s

/-- One Innkeeper cycle; every sixteenth ends a reference tick (R6), at which a WAITV that times out looks (R330). -/
def clockTurn (s : State) : State :=
  let s := duePort s
  let s1 := { s with ik := s.ik + 1, dies := vmap clockDie s.dies, bookPos := 0 }
  if s1.ik % 16 = 0 then
    let s2 := refTick s1
    lookAll s2 ((allFin 256).filter fun t => waitDue s2 t && !waitDue s1 t)
  else s1

/-- A TLB drops one entry (R346, log 11). -/
def dropTlbAt (s : State) (t : TileId) (k : Nat) : State :=
  modTile s t fun T => { T with tlb := T.tlb.eraseIdx k }

/-! ### Who may issue, and what it fetches (R57, R118, R133, R148, R378) -/

/-- The family of an agent's words (R57). -/
def familyOf : Agent → Family
  | .tile _ .S => .scalar
  | .tile _ .V => .vector
  | .tile _ .M => .engine
  | .tile _ .A => .engine
  | .thread _ => .scalar

/-- A stream issues while it runs, its gang runs and its task is not halted; the S stream also waits for what it has
begun. -/
def streamIssues (s : State) (t : TileId) (st : Stream) : Bool :=
  let T := tileOf s t
  match T.task with
  | none => false
  | some k =>
    decide (T.debug = .none ∧ (strm T st).run = .running ∧ (st ≠ .S ∨ T.sWait = .none)) &&
      (gangOf s k.gang).any fun g => decide (g.state = .running)

/-- A Guest thread stands still: its VF is FROZEN, or on its way there and no handler runs (R414, R415). -/
def threadFrozen (s : State) (n : ThreadId) : Bool :=
  match vfOfThread s n with
  | none => false
  | some v => decide ((vfOf s v).state = 3 ∨ ((vfOf s v).freezeCtr ≠ none ∧ (thrOf s n).handler = none))

/-- A released thread issues unless a TLBI or SEGHOLD of its own runs; one parked in EVGET issues that EVGET again. -/
def threadIssues (h : Thread) : Bool :=
  !h.held && match h.wait with
    | .none => true
    | .evget _ => true
    | .tlbi _ _ _ => false
    | .seghold _ => false

/-- The agent can issue a word. -/
def canIssue (s : State) (a : Agent) : Bool :=
  decide (s.power = .booted) && match a with
    | .tile t st => streamIssues s t st
    | .thread n => threadIssues (thrOf s n) && !threadFrozen s n

/-- Fetch the next word of an agent. -/
def fetchOf (s : State) (a : Agent) : State × Fetched :=
  match a with
  | .tile t st => match (tileOf s t).task with
    | some k => fetchTile s t st k (strm (tileOf s t) st).pc (familyOf a).bytes
    | none => (s, .wait)
  | .thread n => (s, fetchThread s n (thrOf s n).pc)

/-- The steps of power and boot, which a device that is not up can take. -/
def ofPower : Instr → Bool
  | .boot => true
  | .powerOn _ => true
  | .powerLoss _ => true
  | .recoveryImage _ => true
  | _ => false

/-- Those that the recovery loader takes: the physical function's own register (R424). -/
def ofLoader : Instr → Bool
  | .readyctl none _ => true
  | _ => false

/-! ### What happens beside the instructions -/

/-- The S stream waits in a word that reads its tile: the publish or the save of a commit point, or WAITV's counters. -/
def scalarReads (s : State) (t : TileId) : Bool :=
  let T := tileOf s t
  (match T.sWait with
    | .publish => true
    | .ckpt _ => true
    | .waitv _ _ _ _ _ _ => true
    | _ => false) &&
  match T.task with
  | none => false
  | some k => decide (T.debug = .none) && (gangOf s k.gang).any fun g => decide (g.state = .running)

/-- A word in turn reads a store of its tile that ECC cannot correct: its task takes the cause (R428). -/
def eccWord (s : State) (t : TileId) (st : Stream) (addr : Word) : State :=
  if streamIssues s t st ∨ (st = .S ∧ scalarReads s t) then tileTrap s t (srcCode st) causeEcc (strm (tileOf s t) st).pc addr else s

/-- A thread's own registers fail: its handler ends (R116, R428). -/
def eccThread (s : State) (n : ThreadId) (addr : Word) : State :=
  if threadIssues (thrOf s n) then killThread s n 0 causeEcc (thrOf s n).pc addr else s

/-- A drive shows a namespace (R361, R370, R413). -/
def driveSpace (s : State) (port : Fin 8) (nsid : BitVec 32) (lba blocks : Nat) : State :=
  { s with namespaces := tset (0, 0) s.namespaces (2 ^ 32 * port.val + nsid.toNat) (if blocks = 0 then (0, 0) else (lba, blocks)) }

/-- What can happen while the recovery loader runs (R424). -/
def loaderTakes : World → Bool
  | .hostRead none _ => true
  | .stage _ _ => true
  | .flashStep _ => true
  | .packagePower _ => true
  | .collect => true
  | _ => false

/-- An event beside the instructions. -/
def runWorld (s : State) (w : World) : State :=
  if s.power = .booted ∨ (s.power = .recovery ∧ loaderTakes w) then
    match w with
    | .hostRead vf off => answerHost s vf off
    | .keeperSet k => keeperSet s k
    | .updateImage img => updateImage s img
    | .updateMarker => updateMarker s
    | .flashStep n => flashStep s n
    | .stage off bs => stageImage s off bs
    | .driveSpace port nsid lba blocks => driveSpace s port nsid lba blocks
    | .packagePower watts => { s with drawn := watts }
    | .closeContext c => closeContext s c
    | .transfer id n => transferStep s id n
    | .eccWord t st addr => eccWord s t st addr
    | .eccCommand t onM id addr => eccCommandTurn s t onM id addr
    | .eccThread n addr => eccThread s n addr
    | .mismatch t id => mismatchTurn s t id
    | .collect => { s with wire := s.wire.tail }
  else s

/-! ### A word where the next step fetches it -/

/-- S-ISA words that only a tile runs (R67). -/
def onlyOnTile : Instr → Bool
  | .qpops _ _ => true
  | .fork _ _ => true
  | .join => true
  | .taskEnd => true
  | .ckpt _ _ => true
  | .waitc _ _ _ _ => true
  | .waitv _ _ _ _ => true
  | .pegp _ => true
  | .pegw _ _ => true
  | .bar _ _ => true
  | .phase _ => true
  | _ => false

/-- M-stream words (R75). -/
def onlyOnM : Instr → Bool
  | .mma _ _ _ _ => true
  | .accz _ _ _ => true
  | .accdrain _ _ _ => true
  | .scaleset _ => true
  | _ => false

/-- An agent that runs an instruction: a stream of tile 0, or Keeper thread 0. -/
def wordAgent (i : Instr) : Agent :=
  match encode i with
  | some (.vector, _) => .tile 0 .V
  | some (.engine, _) => .tile 0 (if onlyOnM i then .M else .A)
  | _ => if onlyOnTile i then .tile 0 .S else .thread 0

/-- Keeper thread 0 in turn, released as a boot releases it, with the word in the firmware image at its pc (R378,
R425). -/
def placeThreadWord (s : State) (w : Nat) : State :=
  let h := thrOf s 0
  let h := if h.held then startThread { h with level := 2, home := 2 } 0 s.ik else { h with wait := .none }
  let a := h.pc.toNat
  setThr { s with cur := .thread 0, firmware := mwrite s.firmware a (leBytes 4 w),
                  firmwareSize := max s.firmwareSize (a + 4) } 0 h

/-- VF 0 with a segment of 64 KiB at physical address 0. -/
def wordVf (f : Vf) : Vf := { f with state := 2, segBase := 0, segSize := 65536, segHeld := false, winEn := false }

/-- The task that runs a placed word: gang 0, rank 0, VF 0, partition 0. -/
def wordTask : Task :=
  { gang := 0, rank := 0, vf := 0, part := 0, asid := 0, cls := 0, key := 0, entry := 0, log2 := 12, base := 0, acc := 1,
    preq := false, startCycle := 0, irrevocable := false, barGen := 0, hasEnded := false }

/-- A running gang of one tile. -/
def wordGang (t : TileId) : Gang :=
  { state := .running, part := 0, vf := 0, cls := 0, asid := 0, key := 0, entryAddr := 0, log2 := 12, acc := 1,
    seed := 0, qfmt := [], size := 1, tiles := [t], entry := 0, chunk := none, argAddr := none, args := [], x2 := 0,
    x3 := 0, x4 := 0, x6 := 0, x10 := 0, onTile := none, runs := 1, ckpts := [], prio := 0, age := 0, place := 0,
    aged := 0, unplaced := 0, pageWait := none, pageTicks := 0, preq := false, preqTicks := 0 }

/-- The leaf that maps virtual page 0 to intermediate page 0. -/
def wordLeaf : TlbEntry :=
  { asid := 0, base := 0, size := 65536, r := true, w := true, x := true, ipa := 0 }

/-- The streams of a tile in turn: the S stream runs, and the stream `st` stands at address 0. -/
def wordStreams (T : Tile) (st : Stream) : Tile :=
  let T := { T with s := { T.s with run := .running } }
  modStrm T st fun c => { c with pc := 0, run := .running }

/-- A stream of a tile in turn, with a task that maps page 0 and the word at virtual address 0. -/
def placeTileWord (s : State) (t : TileId) (st : Stream) (n w : Nat) : State :=
  let s := modVf s 0 wordVf
  let s := { s with cur := .tile t st, mem := mwrite s.mem 0 (leBytes n w), olds := [], bad := s.bad.filter fun g => decide (g ≠ 0)
                    holds := []
                    gangs := tput s.gangs 0 (wordGang t), lodging := s.lodging.filter fun e => decide (e.2.vf ≠ 0) }
  modTile s t fun T =>
    wordStreams { T with task := some wordTask, tlb := [wordLeaf], stores := [], publishes := [], sWait := .none,
                         debug := .none } st

end Sys2Proof.Machine
end

