-- ==== Sys2Proof/Machine/Step.lean ====
section
/-! DEFINITION. One step: the next turn of the agenda, or a word of the agent in turn; and a state that is about to run a
given word. -/

namespace Sys2Proof.Machine

/-- Run the fetched bytes: the instruction they encode, or ILLEGAL_INSTR (R78, R79). -/
def runWord (s : State) (a : Agent) : Fetched → Host.Outcome State Fault Refusal
  | .wait => .next s
  | .fault c v => raise s c v
  | .bytes bs => match decode (familyOf a) bs with
    | .ok (i, _) => exec i s
    | .error _ => raise s causeIllegal (word (leNat bs))

/-- The agent issues its next word; an agent that cannot lets its turn pass. -/
def issueWord (s : State) (a : Agent) : Host.Outcome State Fault Refusal :=
  if canIssue s a then
    let f := fetchOf { s with cur := a } a
    runWord f.1 a f.2
  else .next s

/-- A step of the device without a word: the instructions that encode to none; while the device is not up, only those
of power and boot (R422 to R425, R430). -/
def deviceTurn (s : State) (i : Instr) : Host.Outcome State Fault Refusal :=
  if (encode i).isSome then .next s
  else if s.power = .booted ∨ ofPower i ∨ (s.power = .recovery ∧ ofLoader i) then exec i s
  else .next s

/-- What a turn does. -/
def runTurn (s : State) : Turn → Host.Outcome State Fault Refusal
  | .issue a => issueWord s a
  | .device i => deviceTurn s i
  | .clock => .next (clockTurn s)
  | .work t onM id n => .next (workTurn s t onM id n)
  | .granule t k => .next (publishGranule s t k)
  | .tlbDrop t k => .next (dropTlbAt s t k)
  | .keepOld t g => .next (keepOld s t g)
  | .seeNew t g => .next (seeNew s t g)
  | .walkKeep t va lvl => .next (walkKeep s t va lvl)
  | .walkDrop k => .next (walkDrop s k)
  | .row t id r => .next (rowTurn s t id r)
  | .rowRead t onM id r => .next (rowReadTurn s t onM id r)
  | .element t id n => .next (elementTurn s t id n)
  | .select => .next (if s.portCycle ≤ s.ik / 2 then selectNow s else s)
  | .world w => .next (runWorld s w)

/-- Without a turn on the agenda: the boot ROM runs, or the agent in turn issues; a device without power stops. -/
def idleStep (s : State) : Host.Outcome State Fault Refusal :=
  match s.power with
  | .booted => issueWord s s.cur
  | .bootPending => exec .boot s
  | .recovery => .next s
  | .off => .fault .noPower
  | .heldInReset => .fault .noPower

/-- One step. -/
def step (s : State) : Host.Outcome State Fault Refusal :=
  let s := { s with freeCtr := s.freeCtr + 1 }
  match s.agenda with
  | [] => idleStep s
  | u :: us => runTurn { s with agenda := us } u

/-- `s` with the word `w` placed where the next step fetches (log 40). -/
def State.withFetchWord (s : State) (nbits w : Nat) : State :=
  let s := { s with agenda := [], power := .booted }
  match decodeTableWord nbits w with
  | none => placeThreadWord s w
  | some i => match wordAgent i with
    | .thread _ => placeThreadWord s w
    | .tile t st => placeTileWord s t st (nbits / 8) w

end Sys2Proof.Machine
end

