-- ==== Sys2Proof/Safety.lean ====
section
/-! DEFINITION. The terms that claims use: what a safe step is, who is in turn, and a state with some of its fields set
aside, so that a claim can say that nothing else has changed. -/

namespace Sys2Proof.Safety

open Sys2Proof.Machine

/-- The machine goes on. -/
def goesOn (o : Host.Outcome State Fault Refusal) : Prop := ∃ s, o = .next s

/-- `n` steps go on. -/
def safeFor : Nat → State → Prop
  | 0, _ => True
  | n + 1, s => ∃ t, step s = .next t ∧ safeFor n t

/-! ### Who is in turn -/

/-- One that may issue scalar words is in turn: a tile's S stream or a thread (R62). -/
def ScalarTurn (s : State) : Prop := (∃ t, s.cur = .tile t .S) ∨ ∃ n, s.cur = .thread n

/-- A stream of a tile is in turn, and runs for the task. -/
def StreamTurn (s : State) (t : TileId) (st : Stream) (k : Task) : Prop :=
  s.cur = .tile t st ∧ (tileOf s t).task = some k

/-! ### Registers and bytes of the agent in turn -/

/-- FPSR of the agent in turn. -/
def fpsrOf (s : State) : Word :=
  match s.cur with
  | .tile t st => (strm (tileOf s t) st).fpsr
  | .thread n => (thrOf s n).fpsr

/-- The byte at a place of the agent's local store: of a tile's scratchpad, or of a thread's core-local store. -/
def localByte (s : State) (p : Nat) : Byte :=
  match s.cur with
  | .tile t _ => mget (tileOf s t).spad p
  | .thread n => mget (thrOf s n).store p

/-- The place of a local offset: within the task's window, or modulo 16 KiB (R128, R377). -/
def localPlace (s : State) (o : Nat) : Nat :=
  match s.cur with
  | .tile t _ => winAddr (tileOf s t) o
  | .thread _ => o % 16384

/-- The byte at a place after the low `n` bytes of `v` are written, byte `i` at `places i`, in ascending order. -/
def afterStore (places : Nat → Nat) (n v : Nat) (old : Nat → Byte) (p : Nat) : Byte :=
  match (List.range n).reverse.find? fun i => decide (places i = p) with
  | some i => BitVec.ofNat 8 (v / 256 ^ i)
  | none => old p

/-! ### What stays -/

/-- The state with the x registers and the pc of the agent in turn set aside. -/
def aside (s : State) : State :=
  match s.cur with
  | .tile t st => modTile s t fun T => modStrm { T with x := Vector.replicate 64 0 } st fun c => { c with pc := 0 }
  | .thread n => modThr s n fun h => { h with x := Vector.replicate 64 0, pc := 0 }

/-- The state with the FPSR and the generator of the agent in turn set aside. -/
def fpAside (s : State) : State :=
  match s.cur with
  | .tile t st => modTile s t fun T => modStrm T st fun c => { c with fpsr := 0, gen := {} }
  | .thread n => modThr s n fun h => { h with fpsr := 0, gen := {} }

/-- The state with the local store of the agent in turn set aside. -/
def localAside (s : State) : State :=
  match s.cur with
  | .tile t _ => modTile s t fun T => { T with spad := [] }
  | .thread n => modThr s n fun h => { h with store := [] }

/-- Every byte of physical memory and of the agent's local store reads as before. -/
def SameBytes (s t : State) : Prop :=
  (∀ a, physByte t a = physByte s a) ∧ ∀ p, localByte t p = localByte s p

/-- `t` is `s` but for the agent's pc, which stands at `p`, and its register `d`, which holds `w`; a write to x0 is
ignored (R58). Every other register, flag, control register and byte is as it was. -/
def WroteReg (s t : State) (d : XReg) (w p : Word) : Prop :=
  t.cur = s.cur ∧ rx t d = (if d = 0 then 0 else w) ∧ (∀ r, r ≠ d → rx t r = rx s r) ∧ pcOf t = p ∧
    SameBytes s t ∧ aside t = aside s

/-- The same, where the word also raises flags and may draw (R42, R47). -/
def WroteFp (s t : State) (d : XReg) (w : Word) (fl : Flags) (g : Gen) : Prop :=
  t.cur = s.cur ∧ rx t d = (if d = 0 then 0 else w) ∧ (∀ r, r ≠ d → rx t r = rx s r) ∧ pcOf t = pcOf s + 4 ∧
    fpsrOf t = (fpsrOf s ||| fl.setWidth 64) ∧ genOf t = g ∧ SameBytes s t ∧ fpAside (aside t) = fpAside (aside s)

/-! ### The machine as a whole -/

/-- Every memory of the machine stands in its canonical form. -/
def Canonical (s : State) : Prop :=
  Memory.wf s.mem = true ∧ Memory.wf s.flash = true ∧ Memory.wf s.firmware = true ∧ Memory.wf s.nvme = true ∧
    Memory.wf s.peers = true ∧ (∀ t, Memory.wf (tileOf s t).spad = true) ∧ (∀ n, Memory.wf (thrOf s n).store = true) ∧
    ∀ x ∈ s.snapshots, Memory.wf x.image = true

end Sys2Proof.Safety
end

