-- ==== Sys2Proof/Certificates/Slice0/Obligations.lean ====
section
/-! DEFINITION. The statements for the provers. Each rule table below is written from the spec's own rules; a statement
says that exec answers the next state which the table gives, and that nothing else has changed. -/

namespace Sys2Proof.Machine.Claims

open Sys2Proof.Machine Sys2Proof.Safety

/-! ### Scalar integer words -/

/-- Division as R151 gives it: quotient and remainder, both exact before they wrap to 64 bits. -/
def divideRule (signed : Bool) (a b : Word) : Int × Int :=
  if b = 0 then (2 ^ 64 - 1, a.toNat)
  else if signed then
    if a.toInt = -2 ^ 63 ∧ b.toInt = -1 then (a.toInt, 0)
    else (a.toInt.tdiv b.toInt, a.toInt - a.toInt.tdiv b.toInt * b.toInt)
  else ((a.toNat / b.toNat : Nat), (a.toNat : Int) - (a.toNat / b.toNat * b.toNat : Nat))

/-- DIV, DIVU, REM and REMU: destination and value (R151). -/
def divisionRule (x : XReg → Word) : Instr → Option (XReg × Word)
  | .div d a b => some (d, BitVec.ofInt 64 (divideRule true (x a) (x b)).1)
  | .divu d a b => some (d, BitVec.ofInt 64 (divideRule false (x a) (x b)).1)
  | .rem d a b => some (d, BitVec.ofInt 64 (divideRule true (x a) (x b)).2)
  | .remu d a b => some (d, BitVec.ofInt 64 (divideRule false (x a) (x b)).2)
  | _ => none

/-- The other register words of the integer group: destination and value, over exact integers (R150). -/
def integerRule (x : XReg → Word) : Instr → Option (XReg × Word)
  | .add d a b => some (d, word ((x a).toNat + (x b).toNat))
  | .sub d a b => some (d, BitVec.ofInt 64 ((x a).toInt - (x b).toInt))
  | .mul d a b => some (d, word ((x a).toNat * (x b).toNat))
  | .mulhs d a b => some (d, BitVec.ofInt 64 ((x a).toInt * (x b).toInt / 2 ^ 64))
  | .mulhu d a b => some (d, word ((x a).toNat * (x b).toNat / 2 ^ 64))
  | .and d a b => some (d, x a &&& x b)
  | .or d a b => some (d, x a ||| x b)
  | .xor d a b => some (d, x a ^^^ x b)
  | .andn d a b => some (d, x a &&& ~~~(x b))
  | .shl d a b => some (d, word ((x a).toNat * 2 ^ ((x b).toNat % 64)))
  | .shr d a b => some (d, word ((x a).toNat / 2 ^ ((x b).toNat % 64)))
  | .sar d a b => some (d, BitVec.ofInt 64 ((x a).toInt / 2 ^ ((x b).toNat % 64)))
  | .rol d a b =>
    let n := (x b).toNat % 64
    some (d, word ((x a).toNat * 2 ^ n) ||| word ((x a).toNat / 2 ^ (64 - n)))
  | .min d a b => some (d, BitVec.ofInt 64 (min (x a).toInt (x b).toInt))
  | .minu d a b => some (d, word (min (x a).toNat (x b).toNat))
  | .max d a b => some (d, BitVec.ofInt 64 (max (x a).toInt (x b).toInt))
  | .maxu d a b => some (d, word (max (x a).toNat (x b).toNat))
  | .slt d a b => some (d, if (x a).toInt < (x b).toInt then 1 else 0)
  | .sltu d a b => some (d, if (x a).toNat < (x b).toNat then 1 else 0)
  | .seq d a b => some (d, if x a = x b then 1 else 0)
  | .clz d a => some (d, word ((List.range 64).findIdx fun i => (x a).getLsbD (63 - i)))
  | .ctz d a => some (d, word ((List.range 64).findIdx fun i => (x a).getLsbD i))
  | .popc d a => some (d, word ((List.range 64).countP fun i => (x a).getLsbD i))
  | .sel d a b => some (d, (x a &&& x d) ||| (x b &&& ~~~(x d)))
  | _ => none

/-- The immediate words: destination and value; the immediate is sign-extended (R152). -/
def immediateRule (x : XReg → Word) : Instr → Option (XReg × Word)
  | .addi d a i => some (d, BitVec.ofInt 64 ((x a).toInt + i.toInt))
  | .andi d a i => some (d, x a &&& BitVec.ofInt 64 i.toInt)
  | .ori d a i => some (d, x a ||| BitVec.ofInt 64 i.toInt)
  | .xori d a i => some (d, x a ^^^ BitVec.ofInt 64 i.toInt)
  | .shli d a n => some (d, word ((x a).toNat * 2 ^ n.val))
  | .shri d a n => some (d, word ((x a).toNat / 2 ^ n.val))
  | .sari d a n => some (d, BitVec.ofInt 64 ((x a).toInt / 2 ^ n.val))
  | .slti d a i => some (d, if (x a).toInt < i.toInt then 1 else 0)
  | .sltiu d a i => some (d, if (x a).toNat < (BitVec.ofInt 64 i.toInt).toNat then 1 else 0)
  | .lih d i => some (d, BitVec.ofInt 64 (i.toInt * 2 ^ 13))
  | _ => none

/-- The bitfield words: position, length less 1, destination and value (R153). -/
def bitfieldRule (x : XReg → Word) : Instr → Option (Nat × Nat × XReg × Word)
  | .extu d a p l => some (p.val, l.val, d, word ((x a).toNat / 2 ^ p.val % 2 ^ (l.val + 1)))
  | .exts d a p l =>
    let f := (x a).toNat / 2 ^ p.val % 2 ^ (l.val + 1)
    some (p.val, l.val, d, BitVec.ofInt 64 ((f : Int) - 2 ^ (l.val + 1) * (f / 2 ^ l.val % 2 : Nat)))
  | .ins d a p l =>
    let m := word ((2 ^ (l.val + 1) - 1) * 2 ^ p.val)
    some (p.val, l.val, d, (x d &&& ~~~m) ||| (word ((x a).toNat * 2 ^ p.val) &&& m))
  | _ => none

/-- The branches: whether the condition holds, and the offset in words (R154). -/
def branchRule (x : XReg → Word) : Instr → Option (Bool × Int)
  | .beq a b o => some (decide (x a = x b), o.toInt)
  | .bne a b o => some (decide (x a ≠ x b), o.toInt)
  | .blt a b o => some (decide ((x a).toInt < (x b).toInt), o.toInt)
  | .bge a b o => some (decide ((x b).toInt ≤ (x a).toInt), o.toInt)
  | .bltu a b o => some (decide ((x a).toNat < (x b).toNat), o.toInt)
  | .bgeu a b o => some (decide ((x b).toNat ≤ (x a).toNat), o.toInt)
  | .j o => some (true, o.toInt)
  | _ => none

/-- JAL and JALR: destination register and target (R154). -/
def jumpRule (x : XReg → Word) (pc : Word) : Instr → Option (XReg × Word)
  | .jal d o => some (d, pc + BitVec.ofInt 64 (4 * o.toInt))
  | .jalr d a i => some (d, BitVec.ofInt 64 ((x a).toInt + i.toInt))
  | _ => none

/-! ### Local loads, stores and atomics -/

/-- The local loads: destination, base register, offset, bytes, and whether the value is sign-extended (R155). -/
def loadRule : Instr → Option (XReg × XReg × BitVec 13 × Nat × Bool)
  | .ldsB d a i => some (d, a, i, 1, true)
  | .ldsBu d a i => some (d, a, i, 1, false)
  | .ldsH d a i => some (d, a, i, 2, true)
  | .ldsHu d a i => some (d, a, i, 2, false)
  | .ldsW d a i => some (d, a, i, 4, true)
  | .ldsWu d a i => some (d, a, i, 4, false)
  | .ldsD d a i => some (d, a, i, 8, false)
  | _ => none

/-- The local stores: source register, base register, offset and bytes (R155). -/
def storeRule : Instr → Option (XReg × XReg × BitVec 13 × Nat)
  | .stsB r a i => some (r, a, i, 1)
  | .stsH r a i => some (r, a, i, 2)
  | .stsW r a i => some (r, a, i, 4)
  | .stsD r a i => some (r, a, i, 8)
  | _ => none

/-- The little-endian number of `n` bytes (R3). -/
def littleEndian (f : Nat → Byte) (n : Nat) : Nat := ((List.range n).map fun i => (f i).toNat * 256 ^ i).sum

/-- A number of `n` bytes as a 64-bit value, sign- or zero-extended. -/
def extended (n : Nat) (signed : Bool) (v : Nat) : Word :=
  if signed ∧ 2 ^ (8 * n - 1) ≤ v then BitVec.ofInt 64 ((v : Int) - 2 ^ (8 * n)) else word v

/-- The local offset of a base register and an immediate. -/
def localAt (s : State) (a : XReg) (i : BitVec 13) : Nat := (rx s a + BitVec.ofInt 64 i.toInt).toNat

/-- Nothing but the agent's x registers, its pc and its local store differ, and physical memory reads as before. -/
def OnlyLocal (s t : State) : Prop :=
  t.cur = s.cur ∧ (∀ a, physByte t a = physByte s a) ∧ localAside (aside t) = localAside (aside s)

/-- The operation of an atomic on `n`-byte values (R65, R156). -/
def atomicRule (n o old new : Nat) : Nat :=
  let m := 256 ^ n
  let sg := fun (v : Nat) => if 2 * (v % m) < m then ((v % m : Nat) : Int) else ((v % m : Nat) : Int) - m
  match o with
  | 0 => (old + new) % m
  | 1 => new % m
  | 2 => (old &&& new) % m
  | 3 => (old ||| new) % m
  | 4 => (old ^^^ new) % m
  | 5 => if sg old ≤ sg new then old % m else new % m
  | 6 => if sg new ≤ sg old then old % m else new % m
  | 7 => min (old % m) (new % m)
  | _ => max (old % m) (new % m)

/-- AMOS and CASS: destination, size in bytes, base register, and what is stored for an old value, if anything. -/
def localAtomicRule (x : XReg → Word) : Instr → Option (XReg × Nat × XReg × (Nat → Option Nat))
  | .amos d a b z o =>
    some (d, 2 ^ z.val, a, fun old => some (atomicRule (2 ^ z.val) o.val old (x b).toNat))
  | .cass d a b z =>
    some (d, 2 ^ z.val, a, fun old =>
      if old = (x d).toNat % 256 ^ 2 ^ z.val then some ((x b).toNat % 256 ^ 2 ^ z.val) else none)
  | _ => none

/-! ### Rounding, over exact rationals -/

/-- The magnitude m x 2^e. -/
def scaled (m : Nat) (e : Int) : Rat := m * (2 : Rat) ^ e

/-- The value (-1)^neg x m x 2^e. -/
def exactOf (neg : Bool) (m : Nat) (e : Int) : Rat := if neg then -scaled m e else scaled m e

/-- The multiple of 2^q to which a magnitude rounds (R37); in SR `draw` is the draw, added to the first 16 bits of the rest
(R42). -/
def gridRule (mode : Nat) (neg : Bool) (draw : Nat) (v : Rat) (q : Int) : Nat :=
  let x := v / (2 : Rat) ^ q
  let lo := x.floor.toNat
  let rest := x - lo
  if rest = 0 then lo
  else match mode with
    | 0 => if rest < 1 / 2 then lo else if 1 / 2 < rest then lo + 1 else if lo % 2 = 0 then lo else lo + 1
    | 1 => lo
    | 2 => if neg then lo + 1 else lo
    | 3 => if neg then lo else lo + 1
    | 4 => if rest < 1 / 2 then lo else lo + 1
    | _ => if 2 ^ 16 ≤ (rest * 2 ^ 16).floor.toNat + draw then lo + 1 else lo

/-- The largest finite value of a format: 448 in E4M3 (R27). -/
def largestRule (f : FloatFmt) : Rat :=
  if f.ieee then scaled (2 ^ (f.frac + 1) - 1) (2 ^ f.exp - 2 - f.bias - f.frac) else 448

/-- A magnitude rounds by R38: to the format's precision first, and again to its subnormal precision where that is tiny.
The result's magnitude, and whether it is tiny. `e` is the exponent of the magnitude. -/
def roundRule (f : FloatFmt) (mode : Nat) (neg : Bool) (draw : Nat) (v : Rat) (e : Int) : Rat × Bool :=
  let a := scaled (gridRule mode neg draw v (e - f.frac)) (e - f.frac)
  let least : Int := 1 - f.bias
  if a < (2 : Rat) ^ least then (scaled (gridRule mode neg draw v (least - f.frac)) (least - f.frac), true) else (a, false)

/-- An overflow's result is infinite in this mode (R38). -/
def overflowInf (mode : Nat) (neg : Bool) : Bool :=
  mode = 0 || mode = 4 || mode = 5 || (mode = 2 && neg) || (mode = 3 && !neg)

/-! ### Scalar floating point -/

/-- A word that rounds in a static mode or, for its .DYN form, in FPCR.RM: its mode. -/
def fpModeOf (dyn : Nat) : Instr → Option Nat
  | .fadd _ _ _ m => some m.val
  | .fsub _ _ _ m => some m.val
  | .fmul _ _ _ m => some m.val
  | .fdiv _ _ _ m => some m.val
  | .fma _ _ _ m => some m.val
  | .fsqrt _ _ m => some m.val
  | .fcvtFmtF32 _ _ _ _ m => some m.val
  | .fcvtF32Fmt _ _ _ _ m => some m.val
  | .faddDyn _ _ _ => some dyn
  | .fsubDyn _ _ _ => some dyn
  | .fmulDyn _ _ _ => some dyn
  | .fdivDyn _ _ _ => some dyn
  | .fmaDyn _ _ _ => some dyn
  | .fsqrtDyn _ _ => some dyn
  | .fcvtFmtF32Dyn _ _ _ _ => some dyn
  | .fcvtF32FmtDyn _ _ _ _ => some dyn
  | _ => none

/-- An FP32 result placed in xd: bits [63:32] are 0 (R159). -/
def fp32 (r : Nat × Flags) : Word × Flags := (word (r.1 % 2 ^ 32), r.2)

/-- FCVT's result placed by its format (R159). -/
def placed (code : Nat) (r : Nat × Flags) : Word × Flags :=
  (match code with
   | 0 => word (r.1 % 2 ^ 32)
   | 1 => word (r.1 % 2 ^ 16)
   | 2 => word (r.1 % 2 ^ 16)
   | 6 => (BitVec.ofNat 8 r.1).signExtend 64
   | 7 => word (r.1 % 2 ^ 8)
   | 8 => (BitVec.ofNat 16 r.1).signExtend 64
   | 9 => (BitVec.ofNat 32 r.1).signExtend 64
   | _ => word (r.1 % 2 ^ 8), r.2)

/-- What a rounding word writes, with its flags, in a mode and for a draw: the exact result of the widened operands,
rounded once (R159, R160). -/
def fpRule (x : XReg → Word) (mode draw : Nat) : Instr → Option (XReg × Word × Flags)
  | .fadd d a b _ => some (d, fp32 (rounded 0 mode false draw (num2 (addNum mode) (widen 0 (x a).toNat) (widen 0 (x b).toNat))))
  | .faddDyn d a b => some (d, fp32 (rounded 0 mode false draw (num2 (addNum mode) (widen 0 (x a).toNat) (widen 0 (x b).toNat))))
  | .fsub d a b _ =>
    some (d, fp32 (rounded 0 mode false draw (num2 (fun p q => addNum mode p q.neg) (widen 0 (x a).toNat) (widen 0 (x b).toNat))))
  | .fsubDyn d a b =>
    some (d, fp32 (rounded 0 mode false draw (num2 (fun p q => addNum mode p q.neg) (widen 0 (x a).toNat) (widen 0 (x b).toNat))))
  | .fmul d a b _ => some (d, fp32 (rounded 0 mode false draw (num2 mulNum (widen 0 (x a).toNat) (widen 0 (x b).toNat))))
  | .fmulDyn d a b => some (d, fp32 (rounded 0 mode false draw (num2 mulNum (widen 0 (x a).toNat) (widen 0 (x b).toNat))))
  | .fdiv d a b _ => some (d, fp32 (rounded 0 mode false draw (num2 divNum (widen 0 (x a).toNat) (widen 0 (x b).toNat))))
  | .fdivDyn d a b => some (d, fp32 (rounded 0 mode false draw (num2 divNum (widen 0 (x a).toNat) (widen 0 (x b).toNat))))
  | .fma d a b _ =>
    some (d, fp32 (rounded 0 mode false draw (fmaNum mode (widen 0 (x a).toNat) (widen 0 (x b).toNat) (widen 0 (x d).toNat))))
  | .fmaDyn d a b =>
    some (d, fp32 (rounded 0 mode false draw (fmaNum mode (widen 0 (x a).toNat) (widen 0 (x b).toNat) (widen 0 (x d).toNat))))
  | .fsqrt d a _ => some (d, fp32 (rounded 0 mode false draw (num1 sqrtNum (widen 0 (x a).toNat))))
  | .fsqrtDyn d a => some (d, fp32 (rounded 0 mode false draw (num1 sqrtNum (widen 0 (x a).toNat))))
  | .fcvtFmtF32 d a t f _ => some (d, placed f.val (cvt 0 (x a).toNat f.val mode t draw))
  | .fcvtFmtF32Dyn d a t f => some (d, placed f.val (cvt 0 (x a).toNat f.val mode t draw))
  | .fcvtF32Fmt d a _ f _ => some (d, placed 0 (cvt f.val (x a).toNat 0 mode false draw))
  | .fcvtF32FmtDyn d a _ f => some (d, placed 0 (cvt f.val (x a).toNat 0 mode false draw))
  | _ => none

/-- FCMP's predicates on widened values, by code (R161). -/
def compareRule (p : Nat) (x y : Num) : Bool × Flags :=
  let un := x.isNan || y.isNan
  let sn := x.isSnan || y.isSnan
  match p with
  | 0 => (!un && decide (numCompare x y = .eq), flagIf sn fInvalid)
  | 1 => (!un && decide (numCompare x y = .lt), flagIf un fInvalid)
  | 2 => (!un && decide (numCompare x y = .lt ∨ numCompare x y = .eq), flagIf un fInvalid)
  | 3 => (un, flagIf sn fInvalid)
  | _ => (un || decide (numCompare x y ≠ .eq), flagIf sn fInvalid)

/-- FCLASS's bit for an FP32 encoding (R162). -/
def classRule (v : Nat) : Nat :=
  let neg := decide (v / 2 ^ 31 % 2 = 1)
  let e := v / 2 ^ 23 % 256
  let f := v % 2 ^ 23
  if e = 255 then (if f = 0 then (if neg then 0 else 7) else if f < 2 ^ 22 then 8 else 9)
  else if e = 0 then (if f = 0 then (if neg then 3 else 4) else if neg then 2 else 5)
  else if neg then 1 else 6

/-- The words that do not round: minima, maxima, comparison and class (R48, R160 to R162). -/
def fpTestRule (x : XReg → Word) : Instr → Option (XReg × Word × Flags)
  | .fmin d a b => some (d, fp32 (minMax 0 false false ((x a).toNat % 2 ^ 32) ((x b).toNat % 2 ^ 32)))
  | .fmax d a b => some (d, fp32 (minMax 0 true false ((x a).toNat % 2 ^ 32) ((x b).toNat % 2 ^ 32)))
  | .fminn d a b => some (d, fp32 (minMax 0 false true ((x a).toNat % 2 ^ 32) ((x b).toNat % 2 ^ 32)))
  | .fmaxn d a b => some (d, fp32 (minMax 0 true true ((x a).toNat % 2 ^ 32) ((x b).toNat % 2 ^ 32)))
  | .fcmp d a b p =>
    let r := compareRule p.val (widen 0 (x a).toNat) (widen 0 (x b).toNat)
    some (d, if r.1 then 1 else 0, r.2)
  | .fclass d a => some (d, word (2 ^ classRule ((x a).toNat % 2 ^ 32)), 0)
  | _ => none

/-- The ends of an integer format's range (R30). -/
def rangeRule : Nat → Int × Int
  | 6 => (-2 ^ 7, 2 ^ 7 - 1)
  | 7 => (0, 2 ^ 8 - 1)
  | 8 => (-2 ^ 15, 2 ^ 15 - 1)
  | _ => (-2 ^ 31, 2 ^ 31 - 1)

/-- The nearest value of a range. -/
def nearest (r : Int × Int) (v : Int) : Int := max r.1 (min r.2 v)

/-- The exact value of a finite number. -/
def valueOf : Num → Rat
  | .fin n m e _ => exactOf n m e
  | _ => 0

/-- NQ4's codebook (R33). -/
def codeValue (q : Nat) : Rat :=
  ([-1, -11 / 16, -1 / 2, -3 / 8, -35 / 128, -23 / 128, -23 / 256, 0, 5 / 64, 41 / 256, 63 / 256, 43 / 128, 7 / 16, 9 / 16,
    23 / 32, 1] : List Rat).getD q 0

/-- The class of an encoding by its fields (R27, R162). -/
def fieldClass (f : FloatFmt) (x : Nat) : Nat :=
  let neg := x.testBit (f.exp + f.frac)
  let e := x / 2 ^ f.frac % 2 ^ f.exp
  let fr := x % 2 ^ f.frac
  if f.ieee ∧ e = 2 ^ f.exp - 1 then (if fr = 0 then (if neg then 0 else 7) else if fr.testBit (f.frac - 1) then 9 else 8)
  else if f.ieee = false ∧ x % 128 = 127 then 9
  else if e = 0 then (if fr = 0 then (if neg then 3 else 4) else if neg then 2 else 5)
  else if neg then 1 else 6

/-- What a transcendental function gives a special operand, before it is rounded (R184). -/
def specialRule : Fun → Num → Option (Num × Flags)
  | .exp2, .inf n => some (if n then .exact false 0 0 else .inf false, 0)
  | .exp2, .fin _ 0 _ _ => some (.exact false 1 0, 0)
  | .log2, .inf n => some (if n then (.dnan, fInvalid) else (.inf false, 0))
  | .log2, .fin n m _ _ => if m = 0 then some (.inf true, fDivzero) else if n then some (.dnan, fInvalid) else none
  | .rsq, .inf n => some (if n then (.dnan, fInvalid) else (.exact false 0 0, 0))
  | .rsq, .fin n m _ _ => if m = 0 then some (.inf n, fDivzero) else if n then some (.dnan, fInvalid) else none
  | .tanh, .inf n => some (.exact n 1 0, 0)
  | .tanh, .fin n 0 _ _ => some (.exact n 0 0, 0)
  | .erf, .inf n => some (.exact n 1 0, 0)
  | .erf, .fin n 0 _ _ => some (.exact n 0 0, 0)
  | _, _ => none

/-! ### What stays, for statements that give the next state itself -/

/-- A tile after a word of its S stream: the pc stands 4 bytes on. -/
def nextS (T : Tile) : Tile := { T with s := { T.s with pc := T.s.pc + 4 } }

/-- A tile after an engine word of a stream: the pc stands 2 bytes on. -/
def nextE (T : Tile) (st : Stream) : Tile := modStrm T st fun c => { c with pc := c.pc + 2 }

/-- A thread after a word. -/
def nextT (h : Thread) : Thread := { h with pc := h.pc + 4 }

/-- The mark of a held access is gone. -/
def unheld (s : State) (n : ThreadId) : State := modThr s n fun h => { h with heldAccess := false }

/-- The same, and the thread has observed the publishes whose increments the word at a physical address has taken (R317). -/
def seenAt (s : State) (n : ThreadId) (pa : Nat) : State := observeThread (unheld s n) n (marksAt s pa)

/-! ### Global loads, stores and atomics of threads -/

/-- The global loads: destination, base register, offset, bytes, and whether the value is sign-extended (R158). -/
def globalLoadRule : Instr → Option (XReg × XReg × BitVec 13 × Nat × Bool)
  | .ldB d a i => some (d, a, i, 1, true)
  | .ldBu d a i => some (d, a, i, 1, false)
  | .ldH d a i => some (d, a, i, 2, true)
  | .ldHu d a i => some (d, a, i, 2, false)
  | .ldW d a i => some (d, a, i, 4, true)
  | .ldWu d a i => some (d, a, i, 4, false)
  | .ldD d a i => some (d, a, i, 8, false)
  | _ => none

/-- The global stores: source register, base register, offset and bytes (R158). -/
def globalStoreRule : Instr → Option (XReg × XReg × BitVec 13 × Nat)
  | .stB r a i => some (r, a, i, 1)
  | .stH r a i => some (r, a, i, 2)
  | .stW r a i => some (r, a, i, 4)
  | .stD r a i => some (r, a, i, 8)
  | _ => none

/-- AMO and CAS: destination, size in bytes, base register, what is stored for an old value, if anything, and whether it
is an addition. -/
def globalAtomicRule (x : XReg → Word) : Instr → Option (XReg × Nat × XReg × (Nat → Option Nat) × Bool)
  | .amo d a b z o =>
    some (d, 2 ^ z.val, a, fun old => some (atomicRule (2 ^ z.val) o.val old (x b).toNat), decide (o.val = 0))
  | .cas d a b z =>
    some (d, 2 ^ z.val, a, fun old =>
      if old = (x d).toNat % 256 ^ 2 ^ z.val then some ((x b).toNat % 256 ^ 2 ^ z.val) else none, false)
  | _ => none

/-- The byte at an address after a store: a byte of a counter window keeps what it reads as (R394). -/
def memAfterStore (s : State) (pa n v a : Nat) : Byte :=
  if (windowCtr s a).isSome then physByte s a else afterStore (fun j => pa + j) n v (physByte s) a

/-! ### Commit points -/

/-- What a task publishes: its buffered stores and effects, for its VF, gang and run (R137, R315). -/
def publishOf (s : State) (T : Tile) (k : Task) (why : PublishFor) (sc : Fin 4) : Publish :=
  { why := why, num := T.pubs, vf := k.vf, gang := k.gang, rank := k.rank, runs := (gangOf s k.gang).elim 0 Gang.runs,
    scope := sc, stores := T.stores, effects := T.effects }

/-- The tile after its S stream has begun a publish: the buffer and the effect list are empty, a put, send or increment
makes the region irrevocable, the stream waits, and the pc stands at the next word (R137 to R139). -/
def committed (s : State) (k : Task) (why : PublishFor) (sc : Fin 4) (w : SWait) (T : Tile) : Tile :=
  nextS { T with publishes := T.publishes ++ [publishOf s T k why sc], pubs := T.pubs + 1, stores := [], effects := [], sWait := w,
                 task := some { k with irrevocable := k.irrevocable || !T.effects.isEmpty } }

/-- The state in which a publish of a tile's task has begun to carry what is visible to the task (R317). -/
def carried (s : State) (t : TileId) (k : Task) (why : PublishFor) (sc : Fin 4) : State :=
  carry s t ((publishOf s (tileOf s t) k why sc).asOver t)

/-- The state in which a command runs: with ACQ, its start is an acquire at its scope (R235). -/
def begun (s : State) (t : TileId) (c : Cmd) : State := if c.acq then acquire s t c.scope else s

/-- Nothing that a tile's task may still read is older than a publish visible at an acquire (R317, R319). -/
def FreshFor (s u : State) (t : TileId) (sc : Fin 4) : Prop :=
  ∀ x ∈ u.olds, x.tile = t → ∀ o ∈ x.overs, visible s t sc o = false

/-- A live-range table has no reserved bit set (R141). -/
def tableClean (ws : List Word) : Prop :=
  bfld (recw ws 0) 63 40 = 0 ∧ bfld (recw ws 0) 23 17 = 0 ∧ bfld (recw ws 0) 15 6 = 0 ∧ ∀ r ∈ ws.tail, bfld r 63 43 = 0

/-- Its NR, its lengths and its blocks fit the task (R140). -/
def tableFits (k : Task) (ws : List Word) : Prop :=
  bfld (recw ws 0) 5 0 ≤ 32 ∧ (∀ r ∈ ws.tail, bfld r 42 21 ≤ 2 ^ k.log2) ∧
  ∀ c : Fin 16, (bfld (recw ws 0) 39 24).testBit c.val = true → k.acc.getLsbD c.val = true

/-- A stream as FORK starts it (R133): at its address, with the S stream's FPCR, its own seeded generator, an empty stack
and loop counters of 0; its FPSR stays. -/
def startedStream (c : StreamCtx) (fpcr pc : Word) (st : Stream) : StreamCtx :=
  { c with pc := pc, run := .running, fpcr := fpcr, gen := seeded fpcr st, stack := [], l0 := 0, l1 := 0, stall := none }

/-- The streams that FORK's mask names: bit 0 V, bit 1 M, bit 2 A (R133). -/
def forkNames (m : Fin 8) : Stream → Bool
  | .S => false
  | .V => decide (m.val % 2 = 1)
  | .M => decide (m.val / 2 % 2 = 1)
  | .A => decide (4 ≤ m.val)

/-- Where FORK starts a stream: the task entry plus its offset register (R133). -/
def forkAt (T : Tile) (k : Task) (a : XReg) : Stream → Word
  | .M => k.entry + xget T.x (Fin.ofNat 64 (a.val + 1))
  | .A => k.entry + xget T.x (Fin.ofNat 64 (a.val + 2))
  | _ => k.entry + xget T.x a

/-- Bytes of a stream's word (R57). -/
def streamWord : Stream → Nat
  | .M => 2
  | .A => 2
  | _ => 4

/-- The streams that FORK checks before one. -/
def forkedBefore : Stream → List Stream
  | .M => [.V]
  | .A => [.V, .M]
  | _ => []

/-! ### WAITV -/

/-- The 64-bit word of a window at an offset whose bytes are each reduced (R128). -/
def windowWord (T : Tile) (o : Nat) : Word := word (littleEndian (fun j => mget T.spad (winAddr T (o + j))) 8)

/-! ### CSRs -/

/-- What a CSR of R103 reads on a tile's S stream. -/
def tileCsrRule (s : State) (t : TileId) (k : Task) : Nat → Option Word
  | 0x001 => some (tileOf s t).s.fpcr
  | 0x002 => some (tileOf s t).s.fpsr
  | 0x200 => some (word t.val)
  | 0x201 => some (word (k.cls * 2 ^ 24 + k.asid * 2 ^ 16 + k.part.val * 2 ^ 8 + k.vf.val))
  | 0x202 => some (word (k.acc.toNat * 2 ^ 16 + k.log2))
  | 0x203 => some (tileOf s t).vs.fpsr
  | 0x204 => some (tileOf s t).m.fpsr
  | 0x205 => some (tileOf s t).a.fpsr
  | 0x206 => some (word (acOf s t - k.startCycle))
  | 0x207 => some (word (s.ik / 16))
  | 0x208 => some (word (vfOf s k.vf).vtick)
  | 0x209 => some (if k.preq then 1 else 0)
  | _ => none

/-- The VF of a Guest thread. -/
def guestVf (s : State) (n : ThreadId) : Option VfId := if (thrOf s n).home = 0 then vfOfThread s n else none

/-- The task on a tile is halted and reported, as a thread's debug registers see it: a Steward's those of its partition's tiles,
a Keeper's those of every tile (R104, R120). -/
def seenHalted (s : State) (n : ThreadId) (tile : Nat) : Bool :=
  decide ((tileOf s (Fin.ofNat 256 tile)).debug = .halted) && match partOfThread s n with
  | some p => tileInPart (partOf s p) (Fin.ofNat 256 tile)
  | none => true

/-- What a CSR of R103 reads on a thread, but for DBGDATA, whose read is an access. -/
def threadCsrRule (s : State) (n : ThreadId) (c : Nat) : Option Word :=
  let h := thrOf s n
  match c with
  | 0x001 => some h.fpcr
  | 0x002 => some h.fpsr
  | 0x200 => some (word (2 ^ 15 + h.level * 2 ^ 10 + n.val))
  | 0x201 =>
    let part := match partOfThread s n with
      | some p => p.val
      | none => 63
    some (match guestVf s n with
      | some v => word ((vfOf s v).asidFirst * 2 ^ 16 + part * 2 ^ 8 + v.val)
      | none => word (part * 2 ^ 8))
  | 0x206 => some (word (s.ik - h.startCycle))
  | 0x207 => some (word (s.ik / 16))
  | 0x208 => some (match guestVf s n with
      | some v => word (vfOf s v).vtick
      | none => word (s.ik / 16))
  | 0x400 => some h.steward.tstat
  | 0x401 => some h.steward.tepc
  | 0x402 => some h.steward.tcause
  | 0x403 => some h.steward.tval
  | 0x404 => some h.steward.tvec
  | 0x405 => some 0
  | 0x406 => some 0
  | 0x407 => some h.dbgsel
  | 0x600 => some (h.vfstat ||| word ((vfOf s (Fin.ofNat 128 (h.vfstat.toNat % 128))).state * 2 ^ 12))
  | 0x601 => some (word ((if h.dbgErr then 2 else 0) + (if seenHalted s n (h.dbgsel.toNat % 256) then 1 else 0)))
  | 0x800 => some h.keeper.tstat
  | 0x801 => some h.keeper.tepc
  | 0x802 => some h.keeper.tcause
  | 0x803 => some h.keeper.tval
  | 0x804 => some h.keeper.tvec
  | 0x805 => some 0
  | 0xA00 => some (h.partstat ||| word (if h.partstat.toNat % 64 < 40 then
      (partOf s (Fin.ofNat 40 (h.partstat.toNat % 64))).state * 2 ^ 12 else 0))
  | _ => none

/-- What a CSR reads for the agent in turn; none where R103 gives it no such CSR. -/
def csrRule (s : State) (c : Nat) : Option Word :=
  match s.cur with
  | .tile t .S => (tileOf s t).task.bind fun k => tileCsrRule s t k c
  | .tile _ _ => none
  | .thread n => threadCsrRule s n c

/-- The privilege level of the agent in turn (R98). -/
def levelInTurn (s : State) : Nat :=
  match s.cur with
  | .tile _ _ => 0
  | .thread n => (thrOf s n).level

/-- The CSR words that write: destination, CSR, and what an RW field takes from its old value (R105). -/
def csrWriteRule (x : XReg → Word) : Instr → Option (XReg × BitVec 12 × (Word → Word))
  | .csrw a c => some (0, c, fun _ => x a)
  | .csrwC a c => some (0, c, fun old => old &&& ~~~(x a))
  | .csrx d a c => some (d, c, fun _ => x a)
  | .csrxS d a c => some (d, c, fun old => old ||| x a)
  | _ => none

/-- The TSTAT that a write leaves: SW, ACT and PL, where a PL of 3 leaves PL (R104). -/
def tstatRule (old x : Word) : Word := word (x.toNat / 4 % 4 * 4 + (if x.toNat % 4 = 3 then old.toNat % 4 else x.toNat % 4))

/-- A trap register set after a write of its register `i` (R104). -/
def trapWriteRule (r : TrapRegs) (i : Nat) (f : Word → Word) : TrapRegs :=
  match i with
  | 0 => { r with tstat := tstatRule r.tstat (f r.tstat) }
  | 1 => { r with tepc := f r.tepc &&& ~~~(3 : Word) }
  | 2 => { r with tcause := f r.tcause &&& 0xFFFF }
  | 3 => { r with tval := f r.tval }
  | _ => { r with tvec := f r.tvec &&& ~~~(3 : Word) }

/-- FPCR and the S generator after a write: an RM above 5 leaves RM, reserved bits stay 0, and the generator is seeded
(R41, R46). -/
def fpcrRule (old x : Word) : Word × Gen :=
  let w := word (x.toNat / 2 ^ 32 * 2 ^ 32 + (if x.toNat % 8 ≤ 5 then x.toNat % 8 else old.toNat % 8))
  (w, { x := seedWord (BitVec.ofNat 32 (x.toNat / 2 ^ 32)) 0, half := false })

/-! ### Debug spaces -/

/-- The tile that a DBGSEL selects (R104). -/
def dbgTile (w : Word) : TileId := Fin.ofNat 256 (w.toNat % 256)

/-- Its space. -/
def dbgSpace (w : Word) : Nat := w.toNat / 2 ^ 8 % 16

/-- Its offset. -/
def dbgOffset (w : Word) : Nat := w.toNat / 2 ^ 32 % 2 ^ 21

/-- Bytes of a debug space (R18, R120). -/
def spaceBytes (T : Tile) : Nat → Nat
  | 0 => T.task.elim (2 ^ 12) fun k => 2 ^ k.log2
  | 1 => 64 * 8
  | 2 => 16 * 4096
  | 3 => 8 * 4
  | 4 => 16 * 32768
  | 5 => 20 * 8
  | 6 => 8 * 8
  | _ => 2 ^ 21

/-- WINDOW.ACC of the tile's task names the block (R104). -/
def namesBlock (T : Tile) (c : Nat) : Bool := T.task.any fun k => k.acc.getLsbD c

/-- Byte `p` of a debug space (R120). The order of what spaces 5 and 6 hold is the model's own (log 35). -/
def debugRule (T : Tile) (z p : Nat) : Byte :=
  match z with
  | 0 => mget T.spad (winAddr T p)
  | 1 => BitVec.ofNat 8 ((xget T.x (Fin.ofNat 64 (p / 8))).toNat / 256 ^ (p % 8))
  | 2 => BitVec.ofNat 8 ((vget (vget T.v (Fin.ofNat 16 (p / 4096))) (Fin.ofNat 1024 (p % 4096 / 4))).toNat / 256 ^ (p % 4))
  | 3 => BitVec.ofNat 8 ((vget T.k (Fin.ofNat 8 (p / 4))).toNat / 256 ^ (p % 4))
  | 4 =>
    if namesBlock T (p / 32768) then
      BitVec.ofNat 8 ((vget (vget T.acc (Fin.ofNat 16 (p / 32768))) (Fin.ofNat 8192 (p % 32768 / 4))).toNat / 256 ^ (p % 4))
    else 0
  | 5 =>
    let ws := (List.range 8).map (T.m.stack.getD · 0) ++ (List.range 8).map (T.a.stack.getD · 0) ++
      [T.m.l0, T.m.l1, T.a.l0, T.a.l1]
    BitVec.ofNat 8 ((ws.getD (p / 8) 0).toNat / 256 ^ (p % 8))
  | 6 =>
    let ws := [T.s.pc, T.vs.pc, T.m.pc, T.a.pc, T.s.fpsr, T.vs.fpsr, T.m.fpsr, T.a.fpsr]
    BitVec.ofNat 8 ((ws.getD (p / 8) 0).toNat / 256 ^ (p % 8))
  | _ => 0

/-- A byte of a debug space that takes what is written (R7, R120): not x0's, an unnamed block's, or one of FPSR's reserved bytes;
nor one beyond the depth of a stack (log 35). -/
def debugTakes (T : Tile) (z p : Nat) : Bool :=
  match z with
  | 1 => decide (p / 8 ≠ 0)
  | 4 => namesBlock T (p / 32768)
  | 5 => decide ((p / 8 < 8 → p / 8 < T.m.stack.length) ∧ (8 ≤ p / 8 → p / 8 < 16 → p / 8 - 8 < T.a.stack.length))
  | 6 => decide (32 ≤ p → p % 8 = 0)
  | z => decide (z ≤ 3)

/-- A tile after a write of DBGDATA: the 8 bytes from an offset of its space have their new values, and nothing else has
changed. -/
def DebugWritten (T U : Tile) (z o : Nat) (v : Word) : Prop :=
  { U with spad := T.spad, x := T.x, v := T.v, k := T.k, acc := T.acc, s := T.s, vs := T.vs, m := T.m, a := T.a } = T ∧
  { U.s with pc := T.s.pc, fpsr := T.s.fpsr } = T.s ∧ { U.vs with pc := T.vs.pc, fpsr := T.vs.fpsr } = T.vs ∧
  { U.m with pc := T.m.pc, fpsr := T.m.fpsr, stack := T.m.stack, l0 := T.m.l0, l1 := T.m.l1 } = T.m ∧
  { U.a with pc := T.a.pc, fpsr := T.a.fpsr, stack := T.a.stack, l0 := T.a.l0, l1 := T.a.l1 } = T.a ∧
  U.m.stack.length = T.m.stack.length ∧ U.a.stack.length = T.a.stack.length ∧
  (∀ p, (z = 0 → ∀ j, j < 8 → p ≠ winAddr T (o + j)) → mget U.spad p = mget T.spad p) ∧
  (∀ c, namesBlock T c.val = false → vget U.acc c = vget T.acc c) ∧
  ∀ y p, p < spaceBytes T y → debugRule U y p =
    match (List.range 8).find? fun j => decide (y = z ∧ (o + j) % spaceBytes T z = p) && debugTakes T z p with
    | some j =>
      let b := BitVec.ofNat 8 (v.toNat / 256 ^ j)
      if z = 6 ∧ 32 ≤ p then b &&& 0x3F else b
    | none => debugRule T y p

/-- What a read of DBGDATA answers to a thread (R120). -/
def debugDataRule (s : State) (n : ThreadId) : Word :=
  let w := (thrOf s n).dbgsel
  let T := tileOf s (dbgTile w)
  if seenHalted s n (w.toNat % 256) then
    word (littleEndian (fun j => debugRule T (dbgSpace w) ((dbgOffset w + j) % spaceBytes T (dbgSpace w))) 8)
  else 0

/-- The state `u` after a thread's access to DBGDATA in `s`: OFFSET stands 8 on in its space, and ERR says whether the tile was
not halted and reported (R104, R120). -/
def debugMoved (s : State) (n : ThreadId) (u : State) : State :=
  let w := (thrOf s n).dbgsel
  let o := (dbgOffset w + 8) % spaceBytes (tileOf s (dbgTile w)) (dbgSpace w)
  setThr u n { thrOf u n with dbgsel := word (o * 2 ^ 32 + dbgSpace w * 2 ^ 8 + (dbgTile w).val),
                              dbgErr := !seenHalted s n (w.toNat % 256) }

/-! ### Kills -/

/-- A thread's handler has ended with a fault record to its supervisor (R116): `u` is what becomes of `s`. -/
def Killed (s : State) (n : ThreadId) (double c : Nat) (pc val : Word) (u : State) : Prop :=
  let h := thrOf s n
  ∃ v, u = sendEvent v (supervisor s n)
      (faultEvent (threadRecord s n double c pc val) ((vfOfThread s n).elim 0 (·.val))) ∧
    { setThr v n h with holds := s.holds } = (match h.handler.bind Event.entry with
      | some id => freeEntry s id
      | none => s) ∧
    v.holds = (s.holds.filter fun x => decide (x.who ≠ .thread n)) ∧
    let g := thrOf v n
    g.level = h.home ∧ g.watchdog = 0 ∧ g.handler = none ∧ g.store = h.store ∧
      (h.home ≤ 1 → tstatAct g.keeper.tstat = false) ∧ (h.home = 0 → tstatAct g.steward.tstat = false) ∧
      match h.evgetPc with
      | some a => g.pc = a ∧ g.wait = .evget h.evgetReg ∧ g.x = h.x
      | none => g.pc = 0 ∧ g.wait = .none ∧
          ∀ r, vget g.x r = if r = 1 then word n.val else if r = 2 then word h.home else 0

/-! ### Queue words -/

/-- A record of `n` words at a local offset whose low 3 bits are ignored, each byte's offset reduced. -/
def localRecord (s : State) (o n : Nat) : List Word :=
  (List.range n).map fun i => word (littleEndian (fun j => localByte s (localPlace s (o / 8 * 8 + 8 * i + j))) 8)

/-- The agent in turn is a Guest thread of no VF, which no endpoint serves (R386). -/
def noVfGuest (s : State) : Bool :=
  match s.cur with
  | .tile _ _ => false
  | .thread n => decide ((thrOf s n).home = 0 ∧ vfOfThread s n = none)

/-- The state after xd takes a value and the pc the next word. -/
def gave (s : State) (d : XReg) (w : Word) : State := advance (wx s d w) 4

/-- A class of a partition after a change. -/
def withClass (s : State) (p : PartId) (c : Nat) (f : JqClass → JqClass) : State :=
  modPart s p fun q => { q with classes := tmod q.classes c f }

/-- An entry comes before another of its class: priority, then age, then fold order (R282). -/
def before (a b : JqEntry) : Prop :=
  b.prio < a.prio ∨ (a.prio = b.prio ∧ (a.age < b.age ∨ (a.age = b.age ∧ a.place < b.place)))

/-- The class belongs to a FROZEN VF, whose entries are held unchanged (R415). -/
def frozenClass (s : State) (p : PartId) (c : Nat) : Bool :=
  match tfind (partOf s p).classes c with
  | some r => decide ((vfOf s r.vf).state = 3)
  | none => false

/-- Where in its port cycle a JQCTL word of a thread acts (R293): QUERY on the states of the match phase before, TAKE and
STEAL in the select phase, the others after the match phase. -/
def jqPhase : Instr → PortPhase
  | .jqctlQuery _ _ _ => .beforeSelect
  | .jqctlTake _ _ _ => .inSelect
  | .jqctlSteal _ _ _ => .inSelect
  | _ => .afterMatch

/-- The port cycle in which a request that acts now arrives: the match phase of the last one is over as the present one
begins, and the dispatchers select in the present one. -/
def jqCycle (s : State) (ph : PortPhase) : Nat :=
  match ph with
  | .afterMatch => s.portCycle - 1
  | _ => s.portCycle

/-- A thread's request acts now: its earlier puts are applied, its phase is reached, and it arrives in a later port cycle than
the one in which the thread's last request was dealt with (R293). -/
def JqReady (s : State) (n : ThreadId) (ph : PortPhase) : Prop :=
  threadPutsDone s n = true ∧ (ph ≠ .inSelect → s.selected = false) ∧ (ph = .inSelect → s.selected = true) ∧
    ∀ c, (thrOf s n).dealt = some c → c < jqCycle s ph

/-- The state after the port has dealt with a thread's request. -/
def asked (s : State) (n : ThreadId) (ph : PortPhase) : State := modThr s n fun h => { h with dealt := some (jqCycle s ph) }

/-- The slot that a handle names passes every check of R277, with one of the rights `need`, for an issuer of a VF, or a
Steward thread of the partition. -/
def HandleServes (s : State) (p : PartId) (v : Option VfId) (h : Word) (need : Nat) (l : HandleSlot) : Prop :=
  let q := partOf s p
  l = slotAt q (h.toNat % 4096) ∧ h.toNat / 2 ^ 15 % 2 ^ 17 = 0 ∧ l.used = true ∧ h.toNat / 2 ^ 32 = l.gen % 2 ^ 32 ∧
    h.toNat / 2 ^ 12 % 8 = l.rights ∧ l.clsGen = clsGenOf q l.cls ∧ (∃ r, tfind q.classes l.cls = some r) ∧
    (∀ w, v = some w → w = l.vf) ∧ l.rights &&& need ≠ 0

/-- usage of a VF: the non-FREE entries whose unit it holds, and its outstanding reservations (R286). -/
def usageRule (s : State) (v : VfId) : Nat := s.entries.countP (fun e => decide (e.2.unitVf = v)) + s.reserved.count v

/-- Units left in a partition's shared pool: JQSHARE less each VF's JQGUAR and what each holds above it (R286). -/
def poolRule (s : State) (p : PartId) : Int :=
  let q := partOf s p
  let vs := (allFin 128).filter fun v => decide (q.vfFirst ≤ v.val ∧ v.val < q.vfFirst + q.vfCount)
  let guar := fun v => if (vfOf s v).state = 0 then 0 else (vfOf s v).jqGuar
  (q.jqShare : Int) - (vs.map fun v => max (guar v) (usageRule s v)).sum

/-- CLASSSET refuses a class record (R265, R266): for an issuer of a VF or a Steward thread. -/
def RecordRefused (s : State) (p : PartId) (v : Option VfId) (c : Nat) (w : List Word) : Prop :=
  let w0 := recw w 0
  let o : VfId := Fin.ofNat 128 (bfld w0 54 48)
  let f := vfOf s o
  let target := bfld w0 13 12
  let n := bfld w0 19 16
  let up := fun i => bfld (recw w (8 + i)) 15 0
  let entry : Int := (bfld (recw w 1) 55 0 : Nat)
  let at_ := fun i => entry + (BitVec.ofNat 32 (bfld (recw w (8 + i)) 47 16)).toInt
  let align : Int := if target = 0 then 4 else if target = 1 then 32 else 1
  bbit w0 55 = true ∨ bfld w0 31 20 ≠ 0 ∨ bbit w0 11 = true ∨ bfld w0 7 5 ≠ 0 ∨ bfld (recw w 1) 63 56 ≠ 0 ∨
    bfld (recw w 2) 63 24 ≠ 0 ∨ bfld (recw w 2) 7 5 ≠ 0 ∨ bfld (recw w 3) 31 0 ≠ 0 ∨
    (∃ i, i < 8 ∧ bfld (recw w (8 + i)) 63 48 ≠ 0) ∨
    target = 3 ∨ bfld (recw w 2) 4 0 < 12 ∨ 21 < bfld (recw w 2) 4 0 ∨ 8 < n ∨
    (∃ i, i + 1 < n ∧ i + 1 < 8 ∧ up (i + 1) ≤ up i) ∨
    entry % align ≠ 0 ∨ (∃ i, i < n ∧ i < 8 ∧ at_ i % align ≠ 0) ∨
    ¬(1 ≤ f.state ∧ f.state ≤ 3 ∧ f.part = p) ∨ (∃ x, v = some x ∧ x ≠ o) ∨
    ¬(f.asidFirst ≤ bfld w0 63 56 ∧ bfld w0 63 56 ≤ f.asidFirst + f.asidCount) ∨
    (target = 2 ∧ ¬(f.gtFirst ≤ bfld w0 41 32 ∧ bfld w0 41 32 < f.gtFirst + f.gtCount)) ∨
    (∃ e ∈ s.entries, e.2.part = p ∧ e.2.cls = c) ∨ ∀ j, j < 4096 → (slotAt (partOf s p) j).used = true

/-- A JQCTL word: its handle register, and the right that its handle needs (R289 to R292). -/
def jqctlRule : Instr → Option (XReg × Nat)
  | .jqctlClassget _ a _ => some (a, 2)
  | .jqctlFreeze _ a _ => some (a, 2)
  | .jqctlThaw _ a _ => some (a, 2)
  | .jqctlTake _ a _ => some (a, 2)
  | .jqctlSteal _ a _ => some (a, 4)
  | _ => none

/-! ### V words -/

/-- Element `j` of an image in elements of `w` bits, counted row by row (R31, R164). -/
def elemAt (w : Nat) (v : Image) (j : Nat) : Nat :=
  (vget v (Fin.ofNat 1024 (j / (32 / w)))).toNat / 2 ^ (w * (j % (32 / w))) % 2 ^ w

/-- Byte `j` of a register's 4096-byte image (R165). -/
def imageByte (v : Image) (j : Nat) : Byte := BitVec.ofNat 8 ((vget v (Fin.ofNat 1024 (j / 4))).toNat / 256 ^ (j % 4))

/-- Lane (row, col) of an image (R164). -/
def laneOf (v : Image) (row col : Nat) : Lane := vget v (Fin.ofNat 1024 (row * 64 + col))

/-- A V word that computes elements: the width of its source elements and of its result's, its operands, destination and
NW, its rounding field (RM and DYN) if it has one, and result element `j` from the tile, the operand images, the mode and
the element's draw. -/
structure ResultRule where
  srcWidth : Nat
  width : Nat
  cs : List VOpnd
  d : VReg
  nw : Bool
  rm : Option (Fin 8 × Bool)
  f : Tile → Image → Image → Nat → Nat → Nat → Nat × Flags

/-- A signed element of `w` bits. -/
def signedElem (w x : Nat) : Int := if 2 * x < 2 ^ w then x else (x : Int) - 2 ^ w

/-- An integer result of `w` bits: it wraps, or with SAT it saturates and raises CLAMPED (R175). -/
def integerElem (w : Nat) (sat : Bool) (v : Int) : Nat × Flags :=
  if sat ∧ v < -2 ^ (w - 1) then (2 ^ (w - 1), fClamped)
  else if sat ∧ 2 ^ (w - 1) ≤ v then (2 ^ (w - 1) - 1, fClamped)
  else ((v % 2 ^ w).toNat, 0)

/-- An element-wise word: element `j` of the operands and of vd before the word. -/
def elementRule (t : Fin 8) (cs : List VOpnd) (d : VReg) (nw : Bool) (rm : Option (Fin 8 × Bool))
    (f : Nat → Nat → Nat → Nat → Nat → Nat × Flags) : Option ResultRule :=
  let w := typeWidth t
  some { srcWidth := w, width := w, cs := cs, d := d, nw := nw, rm := rm
         f := fun T a b mode r j => f mode r (elemAt w a j) (elemAt w b j) (elemAt w (vget T.v d) j) }

/-- VADD, VSUB and VMUL: the exact result, rounded once, or the integer result (R177). -/
def arithRule (t : Fin 8) (sat : Bool) (ff : Nat → Num → Num → Num × Flags) (fi : Int → Int → Int) (mode r x y : Nat) :
    Nat × Flags :=
  let w := typeWidth t
  if t.val ≤ 4 then rounded (typeFmt t) mode sat r (num2 (ff mode) (widen (typeFmt t) x) (widen (typeFmt t) y))
  else integerElem w sat (fi (signedElem w x) (signedElem w y))

/-- VMIN, VMAX, VMINN and VMAXN (R48, R177). -/
def minMaxRule (t : Fin 8) (mx number : Bool) (x y : Nat) : Nat × Flags :=
  let w := typeWidth t
  if t.val ≤ 4 then minMax (typeFmt t) mx number x y
  else if signedElem w x ≤ signedElem w y then (if mx then y else x, 0) else (if mx then x else y, 0)

/-- VCMP (R178): all ones where the predicate holds. -/
def elemCompareRule (t p : Fin 8) (u : Bool) (x y : Nat) : Nat × Flags :=
  let w := typeWidth t
  let ones := fun (b : Bool) => if b then 2 ^ w - 1 else 0
  if t.val ≤ 4 then
    let r := compareRule ([0, 4, 1, 2, 3].getD p.val 0) (widen (typeFmt t) x) (widen (typeFmt t) y)
    (ones r.1, r.2)
  else
    let a : Int := if u then x else signedElem w x
    let b : Int := if u then y else signedElem w y
    (ones (match p.val with
      | 0 => decide (a = b)
      | 1 => decide (a ≠ b)
      | 2 => decide (a < b)
      | _ => decide (a ≤ b)), 0)

/-- The fused words, on exact values: x y + z, or z - x y, where a NaN operand keeps its sign (R44, R177). -/
def fusedRule (t : Fin 8) (sat minus : Bool) (mode r x y z : Nat) : Nat × Flags :=
  let a := widen (typeFmt t) x
  rounded (typeFmt t) mode sat r
    (fmaNum mode (if minus ∧ a.isNan = false then a.neg else a) (widen (typeFmt t) y) (widen (typeFmt t) z))

/-- VCVT (R181). -/
def convertRule (t e : Fin 8) (sat : Bool) (mode r x : Nat) : Nat × Flags :=
  if t ≠ e then cvt (typeFmt t) x (typeFmt e) mode sat r
  else if t.val ≤ 4 then
    let a := widen (typeFmt t) x
    (if a.isNan then quietBits (typeFmt t) x else x, flagIf a.isSnan fInvalid)
  else (x, 0)

/-- The words that compute each element, and those that reduce, narrow or widen (R177 to R188, R200, R201). -/
def resultRule : Instr → Option ResultRule
  | .vadd d a b t m y s n => elementRule t [a, b] d n (some (m, y)) fun mode r u v _ => arithRule t s addNum (· + ·) mode r u v
  | .vsub d a b t m y s n => elementRule t [a, b] d n (some (m, y)) fun mode r u v _ =>
      arithRule t s (fun mode p q => addNum mode p q.neg) (· - ·) mode r u v
  | .vmul d a b t m y s n => elementRule t [a, b] d n (some (m, y)) fun mode r u v _ =>
      arithRule t s (fun _ => mulNum) (· * ·) mode r u v
  | .vfma d a b t m y s n => elementRule t [a, b] d n (some (m, y)) (fusedRule t s false)
  | .vfms d a b t m y s n => elementRule t [a, b] d n (some (m, y)) (fusedRule t s true)
  | .vdiv d a b t m y s n => elementRule t [a, b] d n (some (m, y)) fun mode r u v _ =>
      arithRule t s (fun _ => divNum) (fun _ _ => 0) mode r u v
  | .vsqrt d a t m y s n => elementRule t [a] d n (some (m, y)) fun mode r u _ _ =>
      rounded (typeFmt t) mode s r (num1 sqrtNum (widen (typeFmt t) u))
  | .vmin d a b t n => elementRule t [a, b] d n none fun _ _ u v _ => minMaxRule t false false u v
  | .vmax d a b t n => elementRule t [a, b] d n none fun _ _ u v _ => minMaxRule t true false u v
  | .vminn d a b t n => elementRule t [a, b] d n none fun _ _ u v _ => minMaxRule t false true u v
  | .vmaxn d a b t n => elementRule t [a, b] d n none fun _ _ u v _ => minMaxRule t true true u v
  | .vabs d a t s n => elementRule t [a] d n none fun _ _ u _ _ =>
      if t.val ≤ 4 then (u % 2 ^ (typeWidth t - 1), 0)
      else integerElem (typeWidth t) s (max (signedElem (typeWidth t) u) (-signedElem (typeWidth t) u))
  | .vneg d a t s n => elementRule t [a] d n none fun _ _ u _ _ =>
      if t.val ≤ 4 then (u ^^^ 2 ^ (typeWidth t - 1), 0)
      else integerElem (typeWidth t) s (-signedElem (typeWidth t) u)
  | .vcmp d a b t p n u => elementRule t [a, b] d n none fun _ _ x y _ => elemCompareRule t p u x y
  | .vsel d a b t n => elementRule t [a, b] d n none fun _ _ u v z => ((u &&& z) ||| (v &&& (2 ^ typeWidth t - 1 - z)), 0)
  | .vand d a b t n => elementRule t [a, b] d n none fun _ _ u v _ => (u &&& v, 0)
  | .vor d a b t n => elementRule t [a, b] d n none fun _ _ u v _ => (u ||| v, 0)
  | .vxor d a b t n => elementRule t [a, b] d n none fun _ _ u v _ => (u ^^^ v, 0)
  | .vshl d a b t n => elementRule t [a, b] d n none fun _ _ u v _ => (u * 2 ^ (v % typeWidth t) % 2 ^ typeWidth t, 0)
  | .vshr d a b t n => elementRule t [a, b] d n none fun _ _ u v _ => (u / 2 ^ (v % typeWidth t), 0)
  | .vsar d a b t n => elementRule t [a, b] d n none fun _ _ u v _ =>
      (((signedElem (typeWidth t) u / 2 ^ (v % typeWidth t)) % 2 ^ typeWidth t).toNat, 0)
  | .vcvt d a t m y s e => elementRule t [a] d false (some (m, y)) fun mode r u _ _ => convertRule t e s mode r u
  | .vclass d a t n => elementRule t [a] d n none fun _ _ u _ _ => (classOf (typeFmt t) u, 0)
  | .vexp2 d a t m y s n => elementRule t [a] d n (some (m, y)) fun mode r u _ _ => fFun .exp2 (typeFmt t) mode s r u
  | .vlog2 d a t m y s n => elementRule t [a] d n (some (m, y)) fun mode r u _ _ => fFun .log2 (typeFmt t) mode s r u
  | .vrcp d a t m y s n => elementRule t [a] d n (some (m, y)) fun mode r u _ _ =>
      rounded (typeFmt t) mode s r (num1 (divNum (.exact false 1 0)) (widen (typeFmt t) u))
  | .vrsq d a t m y s n => elementRule t [a] d n (some (m, y)) fun mode r u _ _ => fFun .rsq (typeFmt t) mode s r u
  | .vtanh d a t m y s n => elementRule t [a] d n (some (m, y)) fun mode r u _ _ => fFun .tanh (typeFmt t) mode s r u
  | .verf d a t m y s n => elementRule t [a] d n (some (m, y)) fun mode r u _ _ => fFun .erf (typeFmt t) mode s r u
  | .vredr d a t m y n o =>
    let w := typeWidth t
    let e := 2048 / w
    some { srcWidth := w, width := w, cs := [a], d := d, nw := n, rm := some (m, y)
           f := fun _ x _ mode r j =>
             if j % e = 0 then reduce t o mode r ((List.range e).map fun i => elemAt w x (j + i)) else (0, 0) }
  | .vredc d a t m y n o =>
    let w := typeWidth t
    let e := 2048 / w
    some { srcWidth := w, width := w, cs := [a], d := d, nw := n, rm := some (m, y)
           f := fun _ x _ mode r j =>
             if j < e then reduce t o mode r ((List.range 16).map fun i => elemAt w x (i * e + j)) else (0, 0) }
  | .vpack d a b t m y s e =>
    let w := typeWidth t
    let half := 32768 / w
    some { srcWidth := w, width := typeWidth e, cs := [a, b], d := d, nw := false, rm := some (m, y)
           f := fun T x y mode r j =>
             let src := if typeWidth e * 2 = w then (if j < half then x else y)
               else vget T.v (Fin.ofNat 16 ([a.val, a.val + 1, b.val, b.val + 1].getD (j / half) 0))
             cvt (typeFmt t) (elemAt w src (j % half)) (typeFmt e) mode s r }
  | .vunpk d a t h e =>
    let w := typeWidth t
    some { srcWidth := w, width := typeWidth e, cs := [a], d := d, nw := false, rm := none
           f := fun _ x _ _ _ j =>
             cvt (typeFmt t) (elemAt w x (j + if h then 32768 / typeWidth e else 0)) (typeFmt e) 0 false 0 }
  | _ => none

/-- A V word that moves lanes: its operands, destination and NW, and lane (row, col) of the result from the tile and the
operand images (R185, R186, R189, R192 to R194, R196 to R198). -/
def laneRule : Instr → Option (List VOpnd × VReg × Bool × (Tile → Image → Image → Nat → Nat → Lane))
  | .vrotr d a n c => some ([a], d, n, fun _ x _ row col => laneOf x row ((col + c.val) % 64))
  | .vbcr d a n c => some ([a], d, n, fun _ x _ row _ => laneOf x row c.val)
  | .vrotc d a n c => some ([a], d, n, fun _ x _ row col => laneOf x ((row + c.val) % 16) col)
  | .vbcc d a n c => some ([a], d, n, fun _ x _ _ col => laneOf x c.val col)
  | .vtrn d a n => some ([a], d, n, fun _ x _ row col => laneOf x (col % 16) (16 * (col / 16) + row))
  | .vcompr d a b n => some ([a, b], d, n, fun _ x y row col =>
      match ((List.range 64).filter fun c => decide (laneOf y row c ≠ 0))[col]? with
      | some c => laneOf x row c
      | none => 0)
  | .vmov d a n => some ([a], d, n, fun _ x _ row col => laneOf x row col)
  | .vpop d q => some ([Fin.ofNat 32 (16 + q.val)], d, false, fun _ x _ row col => laneOf x row col)
  | .vidx d c => some ([], d, false, fun _ _ _ row col => BitVec.ofNat 32 (if c then col else row))
  | .vlds d k => some ([], d, false, fun T _ _ row col =>
      let o := (vget T.k k).toNat / 4 * 4 + 4 * (row * 64 + col)
      BitVec.ofNat 32 (littleEndian (fun j => mget T.spad (winAddr T (o + j))) 4))
  | .vldx d b k => some ([b], d, false, fun T y _ row col =>
      let o := (vget T.k k).toNat / 4 * 4 + 4 * (laneOf y row col).toNat
      BitVec.ofNat 32 (littleEndian (fun j => mget T.spad (winAddr T (o + j))) 4))
  | .vaccr d c g => some ([], d, false, fun T _ _ row col =>
      vget (vget T.acc c) (Fin.ofNat 8192 ((8 * g.val + row / 2) * 128 + 64 * (row % 2) + col)))
  | _ => none

/-- The sub-element width that a word's queue operands must have, if its type fixes one, and its operand codes. -/
def operandRule (i : Instr) : Option (Option Nat × List VOpnd) :=
  match i with
  | .vaccr _ _ _ => none
  | .vsts a _ => some (none, [a])
  | .vstx a b _ => some (none, [a, b])
  | .vpush a _ => some (none, [a])
  | .vaccw a _ _ => some (none, [a])
  | i => match resultRule i with
    | some r => some (some r.srcWidth, r.cs)
    | none => (laneRule i).map fun r => (none, r.1)

/-- Every queue that a word names has no S pop before it and holds what the word's pops of it need (R173, R174). -/
def Fed (T : Tile) (qs : List (Fin 4)) : Prop :=
  ∀ q ∈ qs, (∀ w, (queueOf T q).waits.head? = some w → w.1 = .V) ∧
    qs.count q * (32768 / fmtBits ((queueOf T q).fmt.toNat / 16 % 16)) ≤ (queueOf T q).inb.length

/-- Nothing stops or holds a V word: its form is legal, no operand names a dead bypass slot, its queues' formats serve it
and hold what it pops. -/
def vReady (T : Tile) (i : Instr) (w : Option Nat) (cs : List VOpnd) : Prop :=
  wellFormed i = true ∧ (∀ c ∈ cs, deadBypass T c = false) ∧ badSink T w cs = none ∧ Fed T (cs.filterMap queueCode)

/-- A V word that waits changes nothing but its places: at each of its queues it stands once, before an S pop of the same ac
cycle and after the others (R163, R174). -/
def VWaits (T : Tile) (ac : Nat) (qs : List (Fin 4)) (U : Tile) : Prop :=
  { U with queues := T.queues } = T ∧ ∀ q,
    let ws := (queueOf T q).waits
    { queueOf U q with waits := ws } = queueOf T q ∧ (queueOf U q).waits =
      if q ∉ qs ∨ ∃ w ∈ ws, w.1 = .V then ws
      else (ws.filter fun w => decide (w.2 ≠ ac)) ++ (.V, ac) :: ws.filter fun w => decide (w.2 = ac)

/-- The tile and the images after a word has read its operands; it has given up its places. -/
def vRead (T : Tile) (cs : List VOpnd) : Tile × List Image := takeOpnds (leaveLines T (cs.filterMap queueCode)) cs

/-- Rows that rank above group row `g` of a column whose keys are `key`: a greater key, or an equal one in a lower row. -/
def rowsAbove (key : Nat → Int) (n g : Nat) : Nat :=
  (List.range n).countP fun h => decide (key g < key h ∨ (key h = key g ∧ h < g))

/-- A branch target lies in a loop's body. -/
def inBody (target : Word) (l : VLoop) : Prop := l.first.toNat ≤ target.toNat ∧ target.toNat ≤ l.last.toNat

/-! ### Engine words -/

/-- The words that only work on the parameter stack: entries they need, and the stack after them, top first (R74, R229). -/
def stackRule : Instr → Option (Nat × (List Word → List Word))
  | .lit i => some (0, fun ws => BitVec.ofInt 64 i.toInt :: ws)
  | .litx i => some (1, fun ws => match ws with
    | a :: r => BitVec.ofNat 64 (a.toNat * 2 ^ 14 + i.toNat) :: r
    | [] => [])
  | .dup => some (1, fun ws => match ws with
    | a :: r => a :: a :: r
    | [] => [])
  | .drop => some (1, fun ws => ws.tail)
  | .swap => some (2, fun ws => match ws with
    | a :: b :: r => b :: a :: r
    | r => r)
  | .over => some (2, fun ws => match ws with
    | a :: b :: r => b :: a :: b :: r
    | r => r)
  | .engineAdd => some (2, fun ws => match ws with
    | a :: b :: r => (b + a) :: r
    | r => r)
  | .engineSub => some (2, fun ws => match ws with
    | a :: b :: r => (b - a) :: r
    | r => r)
  | _ => none

/-- A change of one stream's context, and nothing else. -/
def onlyStream (s : State) (t : TileId) (st : Stream) (f : StreamCtx → StreamCtx) : State :=
  modTile s t fun T => modStrm T st f

/-- A checked command: what it does, its counter specifier, and whether its issue raises CLAMPED. -/
abbrev Checked := Except (Nat × Word) (CmdKind × Word × Bool)

/-- The check of a counter specifier (R245): KIND 3 is invalid, and a virtual address lies below 2^56. -/
def specRule (w : Word) (k : CmdKind) (clamped : Bool) : Checked :=
  if w.toNat % 4 = 3 then .error (causeInvalid, w)
  else if w.toNat % 4 = 2 ∧ 2 ^ 56 ≤ w.toNat then .error (causePermission, word (w.toNat / 8 * 8))
  else .ok (k, w, clamped)

/-- A word that reads a frame record: the record's own checks (R239, R241), then the word's, then the specifier's. -/
def frameRule (T : Tile) (o spec : Word) (f : Frame → Except (Nat × Word) CmdKind) : Checked :=
  match readFrame T o with
  | .error e => .error e
  | .ok fr => match f fr with
    | .error e => .error e
    | .ok k => specRule spec k fr.clamped

/-- The launch words: the engine, the entries they pop, ACQ, REL, scope, and what their checks give for those entries, top
first (R219, R226 to R229, R245, R250 to R262, R337). -/
def launchRule (s : State) (T : Tile) (k : Task) (ws : List Word) :
    Instr → Option (Option Stream × Nat × Bool × Bool × Fin 4 × Checked)
  | .enginePegp p => some (none, 0, false, false, 0, .ok (.pegp p, 0, false))
  | .engineCtraddLocal q r sc => some (none, 2, q, r, sc, .ok (.ctradd false (recw ws 1) (recw ws 0), 0, false))
  | .engineCtraddGlobal q r sc => some (none, 2, q, r, sc,
      if (recw ws 1).toNat % 8 ≠ 0 then .error (causeMisaligned, recw ws 1)
      else if 2 ^ 56 ≤ (recw ws 1).toNat then .error (causePermission, recw ws 1)
      else .ok (.ctradd true (recw ws 1) (recw ws 0), 0, false))
  | .mma q r sc x => some (some .M, 3, q, r, sc,
      let c : Fin 16 := Fin.ofNat 16 ((recw ws 0).toNat % 16)
      if k.acc.getLsbD c.val = false then .error (causePrivilege, insnWord (.mma q r sc x))
      else match readShape T true (recw ws 2), readShape T false (recw ws 1) with
        | .error e, _ => .error e
        | _, .error e => .error e
        | .ok (a, ca), .ok (b, cb) =>
          if a.lrows ≤ 64 ∧ b.lcols ≤ 128 ∧ a.lcols = b.lrows ∧ (groupWidth a.fmt b.fmt).isSome ∧
              (b.fmt = 5 → a.lcols ≤ 2 ^ 14) then
            .ok (.mma a b c x, 0, ca || cb)
          else .error (causeShape, word ((recw ws 2).toNat / 32 * 32)))
  | .accz q r sc => some (some .M, 1, q, r, sc,
      if (List.range 16).all fun c => !(recw ws 0).getLsbD c || k.acc.getLsbD c then .ok (.accz (recw ws 0), 0, false)
      else .error (causePrivilege, insnWord (.accz q r sc)))
  | .accdrain q r sc => some (some .M, 1, q, r, sc,
      if (List.range 16).all fun c => !(recw ws 0).getLsbD c || k.acc.getLsbD c then .ok (.accdrain (recw ws 0), 0, false)
      else .error (causePrivilege, insnWord (.accdrain q r sc)))
  | .scaleset b => some (some .M, 1, false, false, 0, .ok (.scaleset b (BitVec.ofNat 32 (recw ws 0).toNat), 0, false))
  | .copyin q r sc p => some (some .A, 2, q, r, sc, frameRule T (recw ws 1) (recw ws 0) fun f => .ok (.copyin f p))
  | .copyout q r sc p => some (some .A, 2, q, r, sc, frameRule T (recw ws 1) (recw ws 0) fun f => .ok (.copyout f p))
  | .nest q r sc p => some (some .A, 2, q, r, sc,
      match readNest T (recw ws 1) with
      | .error e => .error e
      | .ok (f, w) => specRule (recw ws 0) (.nest f w p) f.clamped)
  | .gath q r sc p => some (some .A, 3, q, r, sc, frameRule T (recw ws 2) (recw ws 0) fun f =>
      if 2 ≤ f.rank then .ok (.gath f (recw ws 1).toNat p) else .error (causeInvalid, word f.off))
  | .scat q r sc p => some (some .A, 3, q, r, sc, frameRule T (recw ws 2) (recw ws 0) fun f =>
      if 2 ≤ f.rank then .ok (.scat f (recw ws 1).toNat p) else .error (causeInvalid, word f.off))
  | .qstream q r sc n => some (some .A, 3, q, r, sc, frameRule T (recw ws 2) (recw ws 0) fun f =>
      let m := (queueOf T n).fmt
      if qStreamOk m = true ∧ f.fmt = m.toNat % 16 then .ok (.qstream f n (recw ws 1))
      else .error (causeQueueFormat, word n.val))
  | .qdrain q r sc n => some (some .A, 2, q, r, sc, frameRule T (recw ws 1) (recw ws 0) fun f =>
      let m := (queueOf T n).fmt
      if qStreamOk m = true ∧ m.toNat % 16 ≠ 5 ∧ f.fmt = m.toNat % 16 then .ok (.qdrain f n)
      else .error (causeQueueFormat, word n.val))
  | .mlr q r sc b => some (some .A, 4, q, r, sc,
      let d := recw ws 1
      if membersOf s k.part ((recw ws 3).toNat % 256) = [] then .error (causeInvalid, recw ws 3)
      else if bfld d 63 48 ≠ 0 ∨ bfld d 31 25 ≠ 0 ∨ 5 ≤ bfld d 24 21 then .error (causeInvalid, d)
      else if (recw ws 2).toNat % (fmtBits (bfld d 24 21) / 8) ≠ 0 then .error (causeMisaligned, recw ws 2)
      else specRule (recw ws 0) (.mlr (recw ws 3) (recw ws 2) d b) false)
  | .mst q r sc => some (some .A, 4, q, r, sc,
      let d := recw ws 1
      if membersOf s k.part ((recw ws 3).toNat % 256) = [] then .error (causeInvalid, recw ws 3)
      else if bfld d 63 48 ≠ 0 ∨ bfld d 31 21 ≠ 0 then .error (causeInvalid, d)
      else specRule (recw ws 0) (.mst (recw ws 3) (recw ws 2) d) false)
  | .pref q r sc => some (some .A, 2, q, r, sc, .ok (.pref (recw ws 1) (recw ws 0), 0, false))
  | _ => none

/-- The command that a stream stalls for as a launch word comes to issue: the one it stalls for already, or with its queue full
the oldest (R207, R232). -/
def stallRule (c : StreamCtx) (depth : Nat) (cmds : List Cmd) : Option Nat :=
  match c.stall with
  | some id => if ∃ d ∈ cmds, d.id = id then some id else none
  | none => if depth ≤ cmds.length then cmds.head?.map Cmd.id else none

/-- Commands with what they will read of the scratchpad, the model's own, set aside. -/
def viewsAside (cs : List Cmd) : List Cmd := cs.map fun c => { c with view := none }

/-! ### What the commands move -/

/-- A number from digits in mixed bases, lowest first. -/
def mixed : List Nat → List Nat → Nat
  | e :: es, w :: ws => w + e * mixed es ws
  | _, _ => 0

/-- The landing index of a window position; with TRANSPOSE dimensions 0 and 1 trade places (R242). -/
def landingIndex (f : Frame) (ws : List Nat) : Nat :=
  if f.transpose then mixed (swap01 f.extents) (swap01 ws) else mixed f.extents ws

/-- A frame holds as many sizes, strides, origins and extents as its RANK says (R238). -/
def FrameShape (f : Frame) : Prop :=
  1 ≤ f.rank ∧ f.sizes.length = f.rank ∧ f.strides.length + 1 = f.rank ∧ f.origins.length = f.rank ∧ f.extents.length = f.rank

/-- The tensor index of a window position in a dimension: of dimension 1 from an index list, where the word has one (R240,
R256). -/
def tensorAt (T : Tile) (f : Frame) (idx : Option Nat) (ws : List Nat) (i : Nat) : Int :=
  match idx with
  | some o =>
    if i = 1 then
      (BitVec.ofNat 32 (littleEndian (fun j => mget T.spad (winAddr T (o / 4 * 4 + 4 * ws.getD 1 0 + j))) 4)).toInt
    else f.origins.getD i 0 + ws.getD i 0
  | none => f.origins.getD i 0 + ws.getD i 0

/-- The dimension that a dynamic count governs (R241). -/
def countedDim (f : Frame) : Nat := if 2 ≤ f.rank then 1 else 0

/-- A window position is in bounds (R240, R241). -/
def InBounds (T : Tile) (f : Frame) (idx : Option Nat) (ws : List Nat) : Prop :=
  (∀ i, i < f.rank → 0 ≤ tensorAt T f idx ws i ∧ tensorAt T f idx ws i < f.sizes.getD i 0) ∧
    ∀ n, f.dyn = some n → ws.getD (countedDim f) 0 < n

/-- The address of a tensor element, and whether an NQ4 element is the high half of its byte (R34, R240). -/
def addrAt (f : Frame) (t : Nat → Int) : Nat × Bool :=
  (f.base + (if f.fmt = 5 then (t 0).toNat / 2 else (t 0).toNat * (fmtBits f.fmt / 8)) +
    ((List.range (f.rank - 1)).map fun i => (t (i + 1)).toNat * f.strides.getD i 0).sum,
   decide (f.fmt = 5 ∧ (t 0).toNat % 2 = 1))

/-- The bytes that a landing index has in the scratchpad (R242, R244). -/
def landsAt (T : Tile) (f : Frame) (p j : Nat) : Nat :=
  winAddrIn T f.interleave f.xormask (f.dest + (if f.fmt = 5 then p / 2 else p * (fmtBits f.fmt / 8)) + j)

/-- Bytes of an element; an NQ4 element lies in one. -/
def bytesOf (f : Frame) : Nat := if f.fmt = 5 then 1 else fmtBits f.fmt / 8

/-- The encoding of logical element (r, c) of a matrix operand; none in a stored row that the dynamic count leaves out (R213
to R215). -/
def encodedAt (T : Tile) (s : Shape) (r c : Nat) : Option Nat :=
  let y := if s.transpose then c else r
  let x := if s.transpose then r else c
  let byte := fun o => mget T.spad (winAddrIn T s.interleave s.xormask (s.off + y * s.stride + o))
  if s.live ≤ y then none
  else if s.fmt = 5 then some ((byte (x / 2)).toNat / 16 ^ (x % 2) % 16)
  else some (littleEndian (fun j => byte (x * (fmtBits s.fmt / 8) + j)) (fmtBits s.fmt / 8))

/-- The value of a matrix operand's element, its scale entry having index `n` (R35, R36, R216, R217); and whether a signalling NaN
or 0 x infinity stands in it. -/
def operandAt (T : Tile) (s : Shape) (ss : Lane) (bits : Option Nat) (n : Nat) : Num × Bool :=
  match bits with
  | none => (.exact false 0 0, false)
  | some x =>
    let z := if s.scaleFmt = 1 then 2 else 1
    let entry := littleEndian (fun j => mget T.spad (winAddr T (s.scaleOff + n * z + j))) z
    let y : Num × Flags :=
      if s.scaled = false then (widen s.fmt x, flagIf (widen s.fmt x).isSnan fInvalid)
      else if s.fmt = 5 then nq4 x entry ss.toNat
      else if s.scaleFmt = 0 then num2 mulNum (widen s.fmt x) (widen 0 ss.toNat)
      else num2 mulNum (widen s.fmt x) (widen s.scaleFmt entry)
    (y.1, decide (y.2 ≠ 0))

/-- A byte with the four bits `n` in one half. -/
def withHalf (old : Byte) (hi : Bool) (n : Nat) : Byte :=
  if hi then (old &&& 0x0F) ||| BitVec.ofNat 8 (n % 16 * 16) else (old &&& 0xF0) ||| BitVec.ofNat 8 (n % 16)

/-- The byte at a place after an element's bits are written at `places`; of an NQ4 element one half is (R34, R253). -/
def afterElem (f : Frame) (hi : Bool) (places : Nat → Nat) (n : Nat) (old : Nat → Byte) (q : Nat) : Byte :=
  if f.fmt = 5 then (if q = places 0 then withHalf (old q) hi n else old q)
  else afterStore places (fmtBits f.fmt / 8) n old q

/-- The bits of an element in its bytes: all of them, or one half of an NQ4 byte (R34). -/
def elemBits (f : Frame) (hi : Bool) (b : Nat → Byte) : Nat :=
  if f.fmt = 5 then (if hi then (b 0).toNat / 16 else (b 0).toNat % 16) else littleEndian b (fmtBits f.fmt / 8)

/-- The bytes at virtual addresses lie where `ip` and `pa` say for a command, whatever commands and stores stand on its
tile. -/
def Translates (s : State) (t : TileId) (k : Task) (id : Nat) (r : Right) (n a : Nat) (ip pa : Nat → Nat) : Prop :=
  ∀ u, (∃ cs gs qs, u = setTile s t { tileOf s t with cmdsA := cs, stores := gs, queues := qs }) → ∀ i, i < n →
    accessXlat u t k (some id) (a + i) r = (u, .ok (ip i, pa i))

/-- Every granule of the publish buffer notes a byte once. -/
def BufferClean (T : Tile) : Prop := ∀ g ∈ T.stores, (g.bytes.map StoreByte.off).Nodup

/-- A command of the A stream, the only one of its number. -/
def IsCmd (T : Tile) (c : Cmd) : Prop := c ∈ T.cmdsA ∧ ∀ d ∈ T.cmdsA, d.id = c.id → d = c

/-- One element of MLR: RNE additions in FP32 over the members in their order, and the rounding to BF16 (R260). -/
def reduceRule (s : State) (t : TileId) (ms : List Member) (roff fmt : Nat) (bf : Bool) (e : Nat) : Nat × Flags :=
  let z := fmtBits fmt / 8
  let r := ms.foldl (fun (a : Nat × Flags) m =>
    let x := littleEndian (fun i => memberByte s t m.dev m.rvf (m.base + roff + e * z + i)) z
    let v := rounded 0 0 false 0 (num2 (addNum 0) (widen 0 a.1) (widen fmt x))
    (v.1, a.2 ||| v.2)) (0, 0)
  if bf then ((cvt 0 r.1 1 0 false 0).1, r.2 ||| (cvt 0 r.1 1 0 false 0).2) else r

/-- A tile with a stream's command list changed. -/
def withCmds (T : Tile) (onM : Bool) (f : List Cmd → List Cmd) : Tile :=
  if onM then { T with cmdsM := f T.cmdsM } else { T with cmdsA := f T.cmdsA }

/-! ### Gangs -/

/-- The x registers of a member at its first start (R130). -/
def entryReg (g : Gang) (rank runs : Nat) (r : XReg) : Word :=
  match r.val with
  | 2 => g.x2
  | 3 => g.x3
  | 4 => g.x4
  | 5 => g.key
  | 6 => g.x6
  | 7 => word rank
  | 8 => word g.size
  | 9 => word runs
  | 10 => g.x10
  | _ => 0

/-- A tile without a task after its gang has left it: no stream runs, no command, store or effect is left. -/
def Vacant (T : Tile) : Prop :=
  T.task = none ∧ (∀ st, (strm T st).run = .idle) ∧ T.cmdsM = [] ∧ T.cmdsA = [] ∧ T.stores = [] ∧ T.effects = [] ∧
    T.sWait = .none

/-- A pre-emption message's fields are valid for a Steward thread of the partition (R309). -/
def PreemptFits (s : State) (n : ThreadId) (p : PartId) (w0 w1 : Word) : Prop :=
  isStewardOf s p n = true ∧ bfld w0 31 6 = 0 ∧ bbit w0 3 = false ∧ w1 = 0 ∧ bfld w0 5 4 ≠ 3 ∧
    preemptTarget s p (bfld w0 5 4) (bfld w0 63 32) = true

/-! ### Services, links, contexts and the device -/

/-- A state with the events and counters of threads set aside: what a step that only sends events leaves alone. -/
def sameButThreads (u s : State) : Prop := { u with threads := s.threads } = s

/-- The classes of R353, in the order in which they are served: a snapshot, an expert's fetch, other copies. -/
def serviceClass : DroverKind → Nat
  | .save _ => 0
  | .fetch _ _ => 1
  | _ => 2

/-- A request for the Drovers or the queue pairs has been added, with the next number: it is served at once where no other of
its pool waits and a unit is free, and nothing else changes but for who is served (R353). -/
def Requested (s u : State) (x : Drover) : Prop :=
  tfind u.drovers s.seq = some x ∧ u.seq = s.seq + 1 ∧
    { u with drovers := s.drovers, seq := s.seq, lastServed := s.lastServed } = s ∧
    (∀ id, id ≠ s.seq → (tfind u.drovers id).map (fun y => { y with unit := none }) =
      (tfind s.drovers id).map fun y => { y with unit := none }) ∧
    ((∀ e ∈ s.drovers, e.2.pool = x.pool → e.2.unit.isSome = true) →
      (s.drovers.filter fun e => decide (e.2.pool = x.pool)).length < (if x.pool = 0 then 16 else 8192) → x.unit.isSome = true)

/-- A message bound to a booking stands as its packet left it. -/
def BoundAs (m : InMessage) (v : VfId) (num : Nat) (b : Booking) (p : Packet) : Prop :=
  m.vf = v ∧ m.booking = num ∧ m.words = b.words ∧ m.ctr = b.ctr ∧ m.order = b.bound ∧ m.kind = p.kind ∧ m.tag = p.tag ∧
    m.offset = p.offset ∧ m.total = p.total ∧ m.launch = false

/-- A packet that has gone out once more: it keeps the bytes of its first try, and counts the try or waits longer after a
retry-later answer, which restarts the count (R391, R403). -/
def SentAgain (p p' : OutPacket) : Prop :=
  p'.sent = true ∧ p'.acked = p.acked ∧ (p.sent = true → p'.bytes = p.bytes) ∧
    ((p'.tries = p.tries + 1 ∧ p'.backoff = none ∧ p'.answer ≠ 1 ∧ p'.ticks = p.ticks) ∨
      (p'.answer = 1 ∧ p'.tries = 0 ∧ p'.ticks = 0 ∧
        p'.backoff = some (if p.backoffLen = 0 then 1000 else min (2 * p.backoffLen) 100000)))

/-- The state after a SEND to a peer has ended: it is gone, and the thread of its NOTIFY, if it has one, gets its
MSG_COMPLETE. The member mask of the event is the model's reading (log 67). -/
def sendEnded (s : State) (id : Nat) (m : Send) (status : Nat) : State :=
  let s1 := { s with outbound := tdel s.outbound id }
  let purlin := decide (bfld (epWord (partOf s m.part) (bfld m.handle 11 0) 0) 19 16 = 2)
  match m.notify with
  | none => s1
  | some n => sendEvent s1 n { summary := summaryWord 1 status (m.vf.elim 0 (·.val)) (bfld m.handle 11 0),
                               record := pad16 [m.cookie, if status = 2 ∧ purlin = true then 1 else 0] }

/-! ### The machine as a whole -/

/-- Words that the spec writes out, with the instructions they stand for. -/
def writtenWords : List (Family × Nat × Instr) :=
  [(.scalar, 0x02281FFD, .addi 5 0 0x1FFD), (.scalar, 0x1620A20B, .extu 4 5 8 11), (.scalar, 0x2428DFFD, .blt 5 6 0x1FFD),
   (.scalar, 0x2FF00010, .jal 62 16), (.scalar, 0x3007C000, .jalr 0 62 0), (.scalar, 0x5818A260, .amos 3 5 4 3 0),
   (.scalar, 0x82188280, .faddDyn 3 4 5), (.scalar, 0x90480002, .qpops 9 2), (.scalar, 0xA0028005, .fork 20 5),
   (.scalar, 0xA2000000, .join), (.scalar, 0xB228C005, .waitv 5 6 false 5), (.scalar, 0xB2398013, .waitv 7 12 true 3),
   (.scalar, 0xC4014581, .ctraddGlobal 10 11), (.scalar, 0xC828C380, .bkarm 5 6 7), (.scalar, 0xE0280002, .csrr 5 1),
   (.scalar, 0xE4390005, .csrxS 7 8 2), (.scalar, 0xE6000013, .trap 0x13), (.scalar, 0xE8000000, .sret),
   (.scalar, 0xEE02A000, .segrel 21), (.vector, 0x04011004, .vmul 0 1 2 0 0 false false true),
   (.vector, 0x62030000, .vsts 3 0), (.vector, 0x53400003, .vselk 10 0 0 0 3), (.vector, 0x70600052, .vaccr 3 5 2),
   (.vector, 0x84000000, .vEnd 0 0), (.engine, 0x8004, .lit 4), (.engine, 0x6345, .litx 0x2345),
   (.engine, 0x0780, .engineDo true), (.engine, 0x0883, .engineLoop true 3), (.engine, 0x0AFC, .engineBz 0xFC),
   (.engine, 0x1000, .engineEnd), (.engine, 0x20A8, .mma true false 2 true), (.engine, 0x3170, .copyout false true 3 false),
   (.engine, 0x3502, .qstream false false 0 2), (.engine, 0x3870, .mst false true 3)]

end Sys2Proof.Machine.Claims

open Sys2Proof Sys2Proof.Machine Sys2Proof.Safety Sys2Proof.Machine.Claims

/-- R151: DIV, DIVU, REM and REMU complete for every operand, also by 0, and write quotient or remainder to xd. -/
def Obligations.DivisionWords : Prop :=
  ∀ (i : Instr) (s : State) (d : XReg) (w : Word), ScalarTurn s → divisionRule (rx s) i = some (d, w) →
    ∃ t, exec i s = .next t ∧ WroteReg s t d w (pcOf s + 4)

/-- R150: the other register words of the integer group complete and write what the rule's row gives. -/
def Obligations.IntegerWords : Prop :=
  ∀ (i : Instr) (s : State) (d : XReg) (w : Word), ScalarTurn s → integerRule (rx s) i = some (d, w) →
    ∃ t, exec i s = .next t ∧ WroteReg s t d w (pcOf s + 4)

/-- R152: ADDI, ANDI, ORI, XORI, SHLI, SHRI, SARI, SLTI, SLTIU and LIH. -/
def Obligations.ImmediateWords : Prop :=
  ∀ (i : Instr) (s : State) (d : XReg) (w : Word), ScalarTurn s → immediateRule (rx s) i = some (d, w) →
    ∃ t, exec i s = .next t ∧ WroteReg s t d w (pcOf s + 4)

/-- R153: EXTU, EXTS and INS complete where pos + len is at most 64, and raise ILLEGAL_INSTR with the word as TVAL where
it is not. -/
def Obligations.BitfieldWords : Prop :=
  ∀ (i : Instr) (s : State) (p l : Nat) (d : XReg) (w : Word), ScalarTurn s →
    bitfieldRule (rx s) i = some (p, l, d, w) →
    (p + (l + 1) ≤ 64 → ∃ t, exec i s = .next t ∧ WroteReg s t d w (pcOf s + 4)) ∧
    (64 < p + (l + 1) → exec i s = raise s causeIllegal (insnWord i))

/-- R154: a branch goes on at its target where its condition holds, else at the next word; J always jumps; JAL and JALR
write the address after them; JALR to a target that is no multiple of 4 raises MISALIGNED. Nothing else changes. -/
def Obligations.BranchWords : Prop :=
  (∀ (i : Instr) (s : State) (c : Bool) (o : Int), ScalarTurn s → branchRule (rx s) i = some (c, o) →
    ∃ t, exec i s = .next t ∧
      WroteReg s t 0 0 (if c then pcOf s + BitVec.ofInt 64 (4 * o) else pcOf s + 4)) ∧
  (∀ (i : Instr) (s : State) (d : XReg) (g : Word), ScalarTurn s → jumpRule (rx s) (pcOf s) i = some (d, g) →
    (∀ o, i = .jal d o → ∃ t, exec i s = .next t ∧ WroteReg s t d (pcOf s + 4) g) ∧
    (∀ a o, i = .jalr d a o →
      if g.toNat % 4 = 0 then ∃ t, exec i s = .next t ∧ WroteReg s t d (pcOf s + 4) g
      else exec i s = raise s causeMisaligned g))

/-- R155: LDS loads the bytes at its offset, each reduced to the window or the core-local store, least significant first,
sign- or zero-extended. -/
def Obligations.LocalLoads : Prop :=
  ∀ (i : Instr) (s : State) (d a : XReg) (o : BitVec 13) (n : Nat) (g : Bool), ScalarTurn s →
    loadRule i = some (d, a, o, n, g) →
    ∃ t, exec i s = .next t ∧
      WroteReg s t d (extended n g (littleEndian (fun j => localByte s (localPlace s (localAt s a o + j))) n)) (pcOf s + 4)

/-- R155: STS writes the low bytes of its register at its offset, each byte's offset reduced, and no other byte. -/
def Obligations.LocalStores : Prop :=
  ∀ (i : Instr) (s : State) (r a : XReg) (o : BitVec 13) (n : Nat), ScalarTurn s → storeRule i = some (r, a, o, n) →
    ∃ t, exec i s = .next t ∧ (∀ q, rx t q = rx s q) ∧ pcOf t = pcOf s + 4 ∧ OnlyLocal s t ∧
      ∀ p, localByte t p =
        afterStore (fun j => localPlace s (localAt s a o + j)) n (rx s r).toNat (localByte s) p

/-- R156: AMOS and CASS of 4 or 8 bytes read the old value at their aligned offset, store what their operation gives (for
CASS only where the old value is xd's), and write the old value to xd, sign-extended. -/
def Obligations.LocalAtomics : Prop :=
  ∀ (i : Instr) (s : State) (d a : XReg) (n : Nat) (f : Nat → Option Nat), ScalarTurn s → wellFormed i = true →
    localAtomicRule (rx s) i = some (d, n, a, f) →
    let o := (rx s a).toNat / n * n
    let places := fun j => localPlace s (o + j)
    let old := littleEndian (fun j => localByte s (places j)) n
    ∃ t, exec i s = .next t ∧ rx t d = (if d = 0 then 0 else extended n true old) ∧ (∀ q, q ≠ d → rx t q = rx s q) ∧
      pcOf t = pcOf s + 4 ∧ OnlyLocal s t ∧
      ∀ p, localByte t p =
        match f old with
        | some v => afterStore places n v (localByte s) p
        | none => localByte s p

/-- R159, R160: FADD, FSUB, FMUL, FDIV, FMA, FSQRT and FCVT, static and .DYN, write the exact result rounded once in
their mode, raise its flags in FPSR, and take one draw exactly where the mode is SR. -/
def Sys2Proof.Machine.Claims.FloatWords : Prop :=
  ∀ (i : Instr) (s : State) (mode : Nat) (d : XReg) (w : Word) (fl : Flags), ScalarTurn s → wellFormed i = true →
    fpModeOf ((fpcrOf s).toNat % 8) i = some mode →
    fpRule (rx s) mode (if mode = 5 then (draw16 (genOf s)).1 else 0) i = some (d, w, fl) →
    ∃ t, exec i s = .next t ∧ WroteFp s t d w fl (if mode = 5 then (draw16 (genOf s)).2 else genOf s)

/-- R48, R161, R162: FMIN, FMAX, FMINN, FMAXN, FCMP and FCLASS write their result, raise their flags and draw nothing. -/
def Sys2Proof.Machine.Claims.FloatTests : Prop :=
  ∀ (i : Instr) (s : State) (d : XReg) (w : Word) (fl : Flags), ScalarTurn s → wellFormed i = true →
    fpTestRule (rx s) i = some (d, w, fl) →
    ∃ t, exec i s = .next t ∧ WroteFp s t d w fl (genOf s)

/-- R37, R38, R42: a value that lies at m x 2^e, or strictly between it and the next multiple where `t` is set, rounds once:
to what the rational rule gives, with its sign, or by the overflow table; and it raises exactly the flags of R38. -/
def Sys2Proof.Machine.Claims.RoundsOnce : Prop :=
  ∀ (c : Fin 5) (mode draw m : Nat) (sat neg t : Bool) (e b : Int) (v : Rat), mode ≤ 5 → draw < 2 ^ 16 → m ≠ 0 →
    (t = false → v = scaled m e) → (t = true → 2 ^ 63 ≤ m ∧ scaled m e < v ∧ v < scaled (m + 1) e) →
    (2 : Rat) ^ b ≤ v → v < (2 : Rat) ^ (b + 1) →
    let f := floatFmt c.val
    let r := encodeF f mode sat draw (.fin neg m e t)
    let u := roundRule f mode neg draw v b
    let top := largestRule f
    let finite := fun (x : Rat) => ∃ n k, widenF f r.1 = .exact neg n k ∧ scaled n k = x
    (u.1 ≤ top → finite u.1 ∧ r.2 = flagIf (decide (u.1 ≠ v)) fInexact ||| flagIf (u.2 && decide (u.1 ≠ v)) fUnderflow) ∧
    (top < u.1 →
      (overflowInf mode neg = false → finite top ∧ r.2 = flagIf (!sat) fOverflow ||| fInexact) ∧
      (overflowInf mode neg = true → sat = true → finite top ∧ r.2 = fClamped ||| fInexact) ∧
      (overflowInf mode neg = true → sat = false → r.2 = fOverflow ||| fInexact ∧
        if f.ieee = true then widenF f r.1 = .inf neg else (widenF f r.1).isNan = true))

/-- R44, R45: the arithmetic that is rounded. Sums and products are exact, with R45's zeros; a quotient and a square root are
exact or bracketed to 64 bits or more; a NaN operand passes, the first one, quieted; and what R44 and R45 call invalid or a
division by zero raises its flag. -/
def Sys2Proof.Machine.Claims.ExactArithmetic : Prop :=
  (∀ (mode m1 m2 : Nat) (n1 n2 : Bool) (e1 e2 : Int),
    (∃ n m e, addNum mode (.exact n1 m1 e1) (.exact n2 m2 e2) = (.exact n m e, 0) ∧
      exactOf n m e = exactOf n1 m1 e1 + exactOf n2 m2 e2 ∧
      (m = 0 → n = if m1 = 0 ∧ m2 = 0 ∧ n1 = n2 then n1 else decide (mode = 2))) ∧
    (∃ m e, mulNum (.exact n1 m1 e1) (.exact n2 m2 e2) = (.exact (n1 != n2) m e, 0) ∧
      scaled m e = scaled m1 e1 * scaled m2 e2) ∧
    (m2 ≠ 0 → ∃ m e t, divNum (.exact n1 m1 e1) (.exact n2 m2 e2) = (.fin (n1 != n2) m e t, 0) ∧
      (m1 ≠ 0 → 2 ^ 63 ≤ m) ∧ (t = false → scaled m e = scaled m1 e1 / scaled m2 e2) ∧
      (t = true → scaled m e < scaled m1 e1 / scaled m2 e2 ∧ scaled m1 e1 / scaled m2 e2 < scaled (m + 1) e)) ∧
    (m2 = 0 → divNum (.exact n1 m1 e1) (.exact n2 m2 e2) =
      if m1 = 0 then (.dnan, fInvalid) else (.inf (n1 != n2), fDivzero)) ∧
    (m1 = 0 → ∃ e, sqrtNum (.exact n1 m1 e1) = (.exact n1 0 e, 0)) ∧
    (m1 ≠ 0 → n1 = true → sqrtNum (.exact n1 m1 e1) = (.dnan, fInvalid)) ∧
    (m1 ≠ 0 → n1 = false → ∃ m e t, sqrtNum (.exact n1 m1 e1) = (.fin false m e t, 0) ∧ 2 ^ 63 ≤ m ∧
      (t = false → scaled m e * scaled m e = scaled m1 e1) ∧
      (t = true → scaled m e * scaled m e < scaled m1 e1 ∧ scaled m1 e1 < scaled (m + 1) e * scaled (m + 1) e))) ∧
  (∀ (mode : Nat) (a b : Bool) (m : Nat) (n : Bool) (e : Int),
    addNum mode (.inf a) (.inf b) = (if a = b then (.inf a, 0) else (.dnan, fInvalid)) ∧
    addNum mode (.inf a) (.exact n m e) = (.inf a, 0) ∧ addNum mode (.exact n m e) (.inf a) = (.inf a, 0) ∧
    mulNum (.inf a) (.inf b) = (.inf (a != b), 0) ∧
    mulNum (.inf a) (.exact n m e) = (if m = 0 then (.dnan, fInvalid) else (.inf (a != n), 0)) ∧
    mulNum (.exact n m e) (.inf a) = (if m = 0 then (.dnan, fInvalid) else (.inf (n != a), 0)) ∧
    divNum (.inf a) (.inf b) = (.dnan, fInvalid) ∧ divNum (.inf a) (.exact n m e) = (.inf (a != n), 0) ∧
    (∃ k, divNum (.exact n m e) (.inf a) = (.exact (n != a) 0 k, 0)) ∧
    sqrtNum (.inf a) = (if a then (.dnan, fInvalid) else (.inf false, 0))) ∧
  (∀ (g : Num → Num → Num × Flags) (h : Num → Num × Flags) (mode : Nat) (a b c : Num),
    let signals := fun (xs : List Num) => flagIf (xs.any Num.isSnan) fInvalid
    num2 g a b = (if a.isNan then (a.quiet, signals [a, b]) else if b.isNan then (b.quiet, signals [a, b]) else g a b) ∧
    num1 h a = (if a.isNan then (a.quiet, signals [a]) else h a) ∧
    (a.isNan = false → b.isNan = false → (mulNum a b).1.isNan = false → c.isNan = false →
      fmaNum mode a b c = addNum mode (mulNum a b).1 c) ∧
    (a.isNan = false → b.isNan = false → (mulNum a b).1.isNan = true →
      fmaNum mode a b c = if c.isNan then (c.quiet, fInvalid) else (.dnan, fInvalid)))

/-- R26 to R30, R36: the formats' layouts, and what an encoding widens to: in a floating-point format an infinity, a NaN with its
fraction, or the exact rational of its fields; in an integer format its two's complement or unsigned value; in E8M0 a power
of two or a NaN. -/
def Sys2Proof.Machine.Claims.EncodingsWiden : Prop :=
  [floatFmt 0, floatFmt 1, floatFmt 2, floatFmt 3, floatFmt 4] =
    [⟨8, 23, 127, true⟩, ⟨8, 7, 127, true⟩, ⟨5, 10, 15, true⟩, ⟨4, 3, 7, false⟩, ⟨5, 2, 15, true⟩] ∧
  (∀ (c : Fin 5) (x : Nat),
    let f := floatFmt c.val
    let neg := x.testBit (f.exp + f.frac)
    let e := x / 2 ^ f.frac % 2 ^ f.exp
    let fr := x % 2 ^ f.frac
    if f.ieee ∧ e = 2 ^ f.exp - 1 then
      widen c.val x = if fr = 0 then .inf neg else .nan neg (fr.testBit (f.frac - 1)) (fr * 2 ^ (23 - f.frac))
    else if f.ieee = false ∧ x % 128 = 127 then widen c.val x = .nan neg true (7 * 2 ^ 20)
    else ∃ m q, widen c.val x = .exact neg m q ∧
      scaled m q = if e = 0 then (2 : Rat) ^ (1 - (f.bias : Int)) * (fr / 2 ^ f.frac)
        else (2 : Rat) ^ ((e : Int) - f.bias) * (1 + fr / 2 ^ f.frac)) ∧
  (∀ x : Nat,
    let whole := fun (c : Nat) (v : Int) => widen c x = .exact (decide (v < 0)) v.natAbs 0
    whole 6 (signedElem 8 (x % 2 ^ 8)) ∧ whole 7 (x % 2 ^ 8 : Nat) ∧ whole 8 (signedElem 16 (x % 2 ^ 16)) ∧
    whole 9 (signedElem 32 (x % 2 ^ 32)) ∧
    widen 10 x = if x % 256 = 255 then .dnan else .exact false 1 ((x % 256 : Nat) - (127 : Int)))

/-- R49 to R53: conversions. A value that is no number, or infinite, or 0 becomes an encoding of a floating-point format by its
rule; any value becomes an integer by rounding to the grid of integers and the ends of the range; a conversion raises
invalid for a signalling source, and between integer formats takes the nearest value of the range. -/
def Sys2Proof.Machine.Claims.Conversions : Prop :=
  (∀ (c : Fin 5) (mode draw : Nat) (sat : Bool) (x : Num × Flags),
    let f := floatFmt c.val
    let sign := fun (n : Bool) => if n then 2 ^ (f.exp + f.frac) else 0
    let ones := (2 ^ f.exp - 1) * 2 ^ f.frac
    (∀ n q fr, fr < 2 ^ 23 → encodeF f mode sat draw (.nan n q fr) =
      (sign n + if f.ieee then ones + (fr / 2 ^ (23 - f.frac) ||| 2 ^ (f.frac - 1)) else 127, 0)) ∧
    (∀ n, encodeF f mode sat draw (.inf n) = if f.ieee then (sign n + ones, 0)
      else if sat then (sign n + 126, fClamped) else (sign n + 127, fInvalid)) ∧
    (∀ n e t, encodeF f mode sat draw (.fin n 0 e t) = (sign n, 0)) ∧
    (let r := encodeF f mode sat draw x.1
     rounded c.val mode sat draw x = (r.1, r.2 ||| x.2) ∧ encodeNum c.val mode sat draw x.1 = r)) ∧
  (∀ (d mode draw : Nat) (sat : Bool), 6 ≤ d → d ≤ 9 → mode ≤ 5 → draw < 2 ^ 16 →
    let put := fun (v : Int) => (v % 2 ^ fmtBits d).toNat
    (∀ n q fr, encodeNum d mode sat draw (.nan n q fr) = (0, fInvalid)) ∧
    (∀ n, encodeNum d mode sat draw (.inf n) = (put (if n then (rangeRule d).1 else (rangeRule d).2), fInvalid)) ∧
    (∀ n m e,
      let k : Nat := gridRule mode n draw (scaled m e) 0
      let v : Int := if n then -k else k
      encodeNum d mode sat draw (.exact n m e) = (put (nearest (rangeRule d) v),
        if nearest (rangeRule d) v = v then flagIf (decide ((k : Rat) ≠ scaled m e)) fInexact else fInvalid))) ∧
  (∀ (c d mode draw x : Nat) (sat : Bool),
    let whole := fun (n : Nat) => 6 ≤ n ∧ n ≤ 9
    if whole c ∧ whole d then
      ∃ v : Int, (v : Rat) = valueOf (widen c x) ∧
        cvt c x d mode sat draw = (((nearest (rangeRule d) v) % 2 ^ fmtBits d).toNat,
          flagIf (decide (nearest (rangeRule d) v ≠ v)) fClamped)
    else
      let r := encodeNum d mode sat draw (widen c x)
      cvt c x d mode sat draw = (r.1, r.2 ||| flagIf (widen c x).isSnan fInvalid))

/-- R48, R162, R182: the order of exact values, the table of minima and maxima, and the classes. -/
def Sys2Proof.Machine.Claims.OrderAndClass : Prop :=
  (∀ (a b : Bool) (m k : Nat) (e g : Int),
    let u := exactOf a m e
    let v := exactOf b k g
    numCompare (.exact a m e) (.exact b k g) = (if u < v then .lt else if v < u then .gt else .eq) ∧
    numCompare (.inf a) (.exact b k g) = (if a then .lt else .gt) ∧
    numCompare (.exact b k g) (.inf a) = (if a then .gt else .lt) ∧
    numCompare (.inf a) (.inf b) = (if a = b then .eq else if a then .lt else .gt)) ∧
  (∀ (c : Fin 5) (mx number : Bool) (a b : Nat),
    let x := widen c.val a
    let y := widen c.val b
    let quiet := fun v => if c.val = 3 then v else v ||| 2 ^ ((floatFmt c.val).frac - 1)
    let less := fun (p q : Num) => decide (numCompare p q = .lt ∨ (numCompare p q = .eq ∧ p.sign = true ∧ q.sign = false))
    minMax c.val mx number a b =
      (if x.isNan && (y.isNan || !number) then quiet a
       else if x.isNan then b
       else if y.isNan then (if number then a else quiet b)
       else if (if mx then less x y else less y x) then b else a, flagIf (x.isSnan || y.isSnan) fInvalid)) ∧
  (∀ (c : Fin 5) (x : Nat), classOf c.val x = fieldClass (floatFmt c.val) x)

/-- R37, R38, R42, R44, R45: rounding and the arithmetic that is rounded, against exact rational values.
R26 to R30, R36: the formats' layouts, and what an encoding widens to: in a floating-point format an infinity, a NaN with its
fraction, or the exact rational of its fields; in an integer format its two's complement or unsigned value; in E8M0 a power
of two or a NaN.
R49 to R53: conversions. A value that is no number, or infinite, or 0 becomes an encoding of a floating-point format by its
rule; any value becomes an integer by rounding to the grid of integers and the ends of the range; a conversion raises
invalid for a signalling source, and between integer formats takes the nearest value of the range.
R48, R162, R182: the order of exact values, the table of minima and maxima, and the classes.
R159, R160: FADD, FSUB, FMUL, FDIV, FMA, FSQRT and FCVT, static and .DYN, write the exact result rounded once in
their mode, raise its flags in FPSR, and take one draw exactly where the mode is SR.
R48, R161, R162: FMIN, FMAX, FMINN, FMAXN, FCMP and FCLASS write their result, raise their flags and draw nothing. -/
def Obligations.FloatOperations : Prop :=
  Claims.FloatWords ∧ Claims.FloatTests ∧ Claims.RoundsOnce ∧ Claims.ExactArithmetic ∧ Claims.EncodingsWiden ∧
  Claims.Conversions ∧ Claims.OrderAndClass

/-- R158, R346, R349, R350, R358, R372: what a thread's translation does to the machine: it asks for an ABSENT expert where it
raises a cause, adds or takes out accesses that are held at a segment row, and has a frame that a write waits for saved first
(log 69); nothing else.
R317, R320: what a thread has seen of publishes changes nothing but who knows of them and who they are carried by (log 10). -/
def Sys2Proof.Machine.Claims.ThreadFrames : Prop :=
  (∀ (s : State) (n : ThreadId) (va : Nat) (r : Right),
    { (threadXlat s n va r).1 with holds := s.holds, lodging := s.lodging, snapshots := s.snapshots } = s ∧
    (threadXlat s n va r).1.snapshots.map (fun x => { x with wanted := [] }) = s.snapshots.map fun x => { x with wanted := [] }) ∧
  (∀ (s s1 : State) (n : ThreadId) (va pa : Nat) (r : Right), threadXlat s n va r = (s1, .ok pa) →
    { s1 with holds := s.holds } = s ∧ ∀ h ∈ s1.holds, h ∈ s.holds) ∧
  (∀ (s s1 : State) (n : ThreadId) (va : Nat) (r : Right), threadXlat s n va r = (s1, .wait) →
    { s1 with holds := s.holds, snapshots := s.snapshots } = s ∧ ∀ h ∈ s.holds, h ∈ s1.holds) ∧
  (∀ (s : State) (n : ThreadId) (ms : List Mark), { observeThread s n ms with olds := s.olds } = s ∧
    (observeThread s n ms).olds.map (fun x => { x with known := [] }) = s.olds.map fun x => { x with known := [] }) ∧
  (∀ (s : State) (n : ThreadId), { carryThread s n with olds := s.olds } = s ∧
    (carryThread s n).olds.map (fun x => { x with overs := [] }) = s.olds.map fun x => { x with overs := [] })

/-- R158: a global load of a thread needs its alignment; it translates its address, raises the cause of a translation that
fails, waits where the translation waits, and else loads the bytes at the physical address, least significant first. A
configuration word is read through the configuration space (R385). A granule or a table entry that ECC cannot correct raises
ECC_UNCORRECTABLE (R428). -/
def Sys2Proof.Machine.Claims.ThreadLoadWords : Prop :=
  ∀ (i : Instr) (s : State) (n : ThreadId) (d a : XReg) (o : BitVec 13) (w : Nat) (g : Bool), s.cur = .thread n →
    globalLoadRule i = some (d, a, o, w, g) →
    let va := rx s a + BitVec.ofInt 64 o.toInt
    if va.toNat % w ≠ 0 then exec i s = raise s causeMisaligned va
    else match threadXlat s n va.toNat .read with
      | (s1, .fault c) => exec i s = raise s1 c va
      | (s1, .ecc b) => exec i s = raise s1 causeEcc (word b)
      | (s1, .wait) => ∃ u, exec i s = .next u ∧ unheld u n = unheld s1 n
      | (s1, .ok pa) => match badIn s1 pa w with
        | some b => exec i s = raise s1 causeEcc (word b)
        | none =>
          if inConfig pa then match spaceRead (unheld s1 n) n pa w with
            | none => exec i s = raise (unheld s1 n) causeSegment va
            | some v => ∃ t, exec i s = .next t ∧ WroteReg (seenAt s1 n pa) t d (extended w g v) (pcOf s + 4)
          else ∃ t, exec i s = .next t ∧
            WroteReg (seenAt s1 n pa) t d (extended w g (littleEndian (fun j => physByte s (pa + j)) w)) (pcOf s + 4)

/-- R158, R346, R349, R350, R358, R372: what a thread's translation does to the machine: it asks for an ABSENT expert where it
raises a cause, adds or takes out accesses that are held at a segment row, and has a frame that a write waits for saved first
(log 69); nothing else.
R317, R320: what a thread has seen of publishes changes nothing but who knows of them and who they are carried by (log 10).
R158: a global load of a thread needs its alignment; it translates its address, raises the cause of a translation that
fails, waits where the translation waits, and else loads the bytes at the physical address, least significant first. A
configuration word is read through the configuration space (R385). A granule or a table entry that ECC cannot correct raises
ECC_UNCORRECTABLE (R428). -/
def Obligations.ThreadLoads : Prop := Claims.ThreadFrames ∧ Claims.ThreadLoadWords

/-- R158: a global store of a thread writes the low bytes of its register at the physical address and no other byte; a
byte of a counter window takes nothing (R394), and a configuration word is written through the configuration space. A write
carries what the thread has seen of publishes (R317, log 10), and one of a FROZEN VF's endpoint slot waits (R415, log 71). -/
def Obligations.ThreadStores : Prop :=
  ∀ (i : Instr) (s : State) (n : ThreadId) (r a : XReg) (o : BitVec 13) (w : Nat), s.cur = .thread n →
    globalStoreRule i = some (r, a, o, w) →
    let va := rx s a + BitVec.ofInt 64 o.toInt
    if va.toNat % w ≠ 0 then exec i s = raise s causeMisaligned va
    else match threadXlat s n va.toNat .write with
      | (s1, .fault c) => exec i s = raise s1 c va
      | (s1, .ecc b) => exec i s = raise s1 causeEcc (word b)
      | (s1, .wait) => ∃ u, exec i s = .next u ∧ unheld u n = unheld s1 n
      | (s1, .ok pa) =>
        if slotHeld s1 pa then exec i s = .next s1
        else if inConfig pa then match spaceWrite (carryThread (unheld s1 n) n) n pa w ((rx s r).toNat % 256 ^ w) with
          | none => exec i s = raise (unheld s1 n) causeSegment va
          | some u => exec i s = .next (advance u 4)
        else ∃ t, exec i s = .next t ∧ (∀ q, rx t q = rx s q) ∧ pcOf t = pcOf s + 4 ∧
          (∀ q, physByte t q = memAfterStore s pa w (rx s r).toNat q) ∧
          { t with mem := [], olds := [] } = { setPc (unheld s1 n) (pcOf s + 4) with mem := [], olds := [] }

/-- R156, R158, R394: AMO and CAS of a thread need write right and alignment; they read the old value, store what the
operation gives, and write the old value to xd, sign-extended; in the configuration space they read and write as LD and ST
do (R385). At an arrival counter an addition of 8 bytes counts, unless its VF is FROZEN, and every other atomic stores
nothing. A granule that ECC cannot correct raises ECC_UNCORRECTABLE (R428). That write right is all that an atomic needs, and
that one which a counter window ignores still answers the old value, are the model's choices (log 31); so are what it observes
and carries (log 10) and that it waits at a FROZEN VF's endpoint slot (log 71). -/
def Obligations.ThreadAtomics : Prop :=
  ∀ (i : Instr) (s : State) (n : ThreadId) (d a : XReg) (w : Nat) (f : Nat → Option Nat) (add : Bool),
    s.cur = .thread n → wellFormed i = true → globalAtomicRule (rx s) i = some (d, w, a, f, add) →
    let va := rx s a
    if va.toNat % w ≠ 0 then exec i s = raise s causeMisaligned va
    else match threadXlat s n va.toNat .write with
      | (s1, .fault c) => exec i s = raise s1 c va
      | (s1, .ecc b) => exec i s = raise s1 causeEcc (word b)
      | (s1, .wait) => ∃ u, exec i s = .next u ∧ unheld u n = unheld s1 n
      | (s1, .ok pa) =>
        let seen := carryThread (seenAt s1 n pa) n
        match badIn s1 pa w, slotHeld s1 pa, spaceRead (unheld s1 n) n pa w with
        | some b, _, _ => exec i s = raise s1 causeEcc (word b)
        | none, true, _ => exec i s = .next s1
        | none, false, none => exec i s = raise (unheld s1 n) causeSegment va
        | none, false, some old =>
          (inConfig pa = false → old = littleEndian (fun j => physByte s (pa + j)) w) ∧
          match windowCtr s pa with
          | some (c, _) =>
            if add = true ∧ w = 8 then
              ∀ b z, i = .amo d a b z 0 →
                if ctrHeld s c then exec i s = .next (unheld s1 n)
                else exec i s = .next (advance (wx (addCounter seen c (rx s b)) d (word old)) 4)
            else ∃ t, exec i s = .next t ∧ WroteReg seen t d (extended w true old) (pcOf s + 4)
          | none => match f old with
            | none => ∃ t, exec i s = .next t ∧ WroteReg seen t d (extended w true old) (pcOf s + 4)
            | some v =>
              if inConfig pa then match spaceWrite seen n pa w v with
                | none => exec i s = raise (unheld s1 n) causeSegment va
                | some u => exec i s = .next (advance (wx u d (extended w true old)) 4)
              else ∃ t, exec i s = .next t ∧ rx t d = (if d = 0 then 0 else extended w true old) ∧
                (∀ q, q ≠ d → rx t q = rx s q) ∧ pcOf t = pcOf s + 4 ∧ (∀ q, physByte t q = memAfterStore s pa w v q) ∧
                aside { t with mem := [], olds := [] } = aside { unheld s1 n with mem := [], olds := [] }

/-- R163, R173, R174: QPOPS raises QUEUE_FORMAT on a format that serves no pop, waits behind a V pop that stands before it in
the queue's line and for an element, keeping a place there, and else takes the oldest element, converts it, raises its flags, draws exactly in SR, and writes it to xd. -/
def Sys2Proof.Machine.Claims.PopScalarWord : Prop :=
  ∀ (s : State) (t : TileId) (k : Task) (d : XReg) (q : Fin 4), StreamTurn s t .S k →
    let Q := queueOf (tileOf s t) q
    if qPopOk Q.fmt = false then exec (.qpops d q) s = raise s causeQueueFormat (word q.val)
    else
      let wait := exec (.qpops d q) s = .next (modTile s t fun T => modQueue T q fun Q =>
        { Q with waits := if ∃ w ∈ Q.waits, w.1 = .S then Q.waits else Q.waits ++ [(.S, acOf s t)] })
      match Q.waits.head?.map Prod.fst, Q.inb with
      | some .V, _ => wait
      | some .M, _ => wait
      | some .A, _ => wait
      | _, [] => wait
      | _, e :: es =>
        let sr := decide (qRm Q.fmt = 5)
        let r := popConvert Q.fmt (if sr then (draw16 (genOf s)).1 else 0) e
        ∃ u, exec (.qpops d q) s = .next u ∧
          WroteFp (modTile s t fun T => modQueue T q fun Q =>
              { Q with inb := es, waits := Q.waits.filter fun w => decide (w.1 ≠ .S) }) u d
            (placed (qSnk Q.fmt) r).1 r.2 (if sr then (draw16 (genOf s)).2 else genOf s)

/-- R33, R35, R251: an NQ4 element of a queue is the exact product of its code's value, its block code plus 1 over 256, and the
superscale, with IEEE's answers to an infinite superscale or a NaN, rounded once into the sink format; any other element is
converted from the source format. -/
def Sys2Proof.Machine.Claims.PopConversions : Prop :=
  (∀ q c ss, q < 16 → c < 256 → match widen 0 ss with
    | .nan n t fr => nq4 q c ss = (.nan n true fr, flagIf (!t) fInvalid)
    | .inf n => nq4 q c ss = if q = 7 then (.dnan, fInvalid) else (.inf (decide (q < 7) != n), 0)
    | .fin n m e _ => ∃ m' e', nq4 q c ss = (.exact (decide (q < 7) != n) m' e', 0) ∧
        exactOf (decide (q < 7)) m' e' = codeValue q * ((c + 1) / 256) * scaled m e) ∧
  (∀ (f : Word) (draw : Nat) (e : BitVec 32 × Byte),
    let src := f.toNat % 16
    let snk := f.toNat / 16 % 16
    let mode := f.toNat / 2 ^ 8 % 8
    let sat := f.getLsbD 11
    popConvert f draw e =
      if src = 5 then
        let x := nq4 e.1.toNat e.2.toNat (f.toNat / 2 ^ 32)
        ((encodeNum snk mode sat draw x.1).1, (encodeNum snk mode sat draw x.1).2 ||| x.2)
      else cvt src e.1.toNat snk mode sat draw)

/-- R163, R173, R174: QPOPS raises QUEUE_FORMAT on a format that serves no pop, waits behind a V pop that stands before it in
the queue's line and for an element, keeping a place there, and else takes the oldest element, converts it, raises its flags, draws exactly in SR, and writes it to xd.
R33, R35, R251: an NQ4 element of a queue is the exact product of its code's value, its block code plus 1 over 256, and the
superscale, with IEEE's answers to an infinite superscale or a NaN, rounded once into the sink format; any other element is
converted from the source format. -/
def Obligations.QueuePopScalar : Prop := Claims.PopScalarWord ∧ Claims.PopConversions

/-- R133: FORK of a mask that names a stream of the forked set raises ILLEGAL_INSTR; with none of them forked, the first
stream in the order V, M, A whose address is no multiple of its words' size raises MISALIGNED with that address. It starts
none. -/
def Sys2Proof.Machine.Claims.ForkRefuses : Prop :=
  ∀ (s : State) (t : TileId) (k : Task) (a : XReg) (m : Fin 8), StreamTurn s t .S k → wellFormed (.fork a m) = true →
    let T := tileOf s t
    ((∃ st, forkNames m st = true ∧ (strm T st).run ≠ .idle) →
      exec (.fork a m) s = raise s causeIllegal (insnWord (.fork a m))) ∧
    ∀ st, (∀ z, forkNames m z = true → (strm T z).run = .idle) → forkNames m st = true →
      (forkAt T k a st).toNat % streamWord st ≠ 0 →
      (∀ z ∈ forkedBefore st, forkNames m z = true → (forkAt T k a z).toNat % streamWord z = 0) →
      exec (.fork a m) s = raise s causeMisaligned (forkAt T k a st)

/-- R133: FORK of streams that are not forked, at aligned addresses, completes: it starts each stream of its mask at the task
entry plus its offset register, and changes nothing else but the pc. -/
def Sys2Proof.Machine.Claims.ForkCompletes : Prop :=
  ∀ (s : State) (t : TileId) (k : Task) (a : XReg) (m : Fin 8), StreamTurn s t .S k → wellFormed (.fork a m) = true →
    (∀ st, forkNames m st = true → (strm (tileOf s t) st).run = .idle) →
    (∀ st, forkNames m st = true → (forkAt (tileOf s t) k a st).toNat % streamWord st = 0) →
    ∃ u, exec (.fork a m) s = .next u ∧
      let T := tileOf s t
      u = setTile s t (nextS
        { T with vs := if forkNames m .V then startedStream T.vs T.s.fpcr (forkAt T k a .V) .V else T.vs
                 m := if forkNames m .M then startedStream T.m T.s.fpcr (forkAt T k a .M) .M else T.m
                 a := if forkNames m .A then startedStream T.a T.s.fpcr (forkAt T k a .A) .A else T.a
                 bypass := if forkNames m .V then [] else T.bypass
                 vloops := if forkNames m .V then [] else T.vloops
                 ssa := if forkNames m .M then 0x3F800000 else T.ssa
                 ssb := if forkNames m .M then 0x3F800000 else T.ssb })

/-- R133: FORK of a mask that names a stream of the forked set raises ILLEGAL_INSTR; with none of them forked, the first
stream in the order V, M, A whose address is no multiple of its words' size raises MISALIGNED with that address. It starts
none.
R133: FORK of streams that are not forked, at aligned addresses, completes: it starts each stream of its mask at the task
entry plus its offset register, and changes nothing else but the pc. -/
def Obligations.ForkStarts : Prop := Claims.ForkRefuses ∧ Claims.ForkCompletes

/-- R134, R136: JOIN waits until every forked stream has ended and then collects them; END publishes at SYSTEM scope,
discards what the queues hold, and raises ILLEGAL_INSTR while a stream is forked. That a waiting JOIN keeps its
pc, what END's publish takes along and carries, and when it does, are the model's readings (log 10, 12, 25). -/
def Obligations.JoinAndEnd : Prop :=
  ∀ (s : State) (t : TileId) (k : Task), StreamTurn s t .S k →
    let T := tileOf s t
    (if ∀ c ∈ [T.vs, T.m, T.a], c.run = .idle ∨ c.run = .ended then
      exec .join s = .next (setTile s t (nextS { T with vs := { T.vs with run := .idle }, m := { T.m with run := .idle },
                                                        a := { T.a with run := .idle } }))
     else exec .join s = .next s) ∧
    (if ∀ c ∈ [T.vs, T.m, T.a], c.run = .idle then
      exec .taskEnd s = .next (setTile (carried s t k .taskEnd 3) t (committed s k .taskEnd 3 .ended
        { T with queues := T.queues.map fun q => { fmt := q.fmt } }))
     else exec .taskEnd s = raise s causeIllegal (insnWord .taskEnd))

/-- R137, R332, R334: PHASE and BAR.P publish the buffered stores and effects at their scope and wait for it; BAR without
P arrives at the next generation at once. That what is visible to the task is carried by the publish as it begins is a
reading of R317 (log 10). That the publish takes the buffer and the effects along and marks the region irrevocable as it
begins, and that the pc stands at the next word while the stream waits, are the model's choices (log 25, log 12). -/
def Obligations.PhaseAndBar : Prop :=
  ∀ (s : State) (t : TileId) (k : Task) (sc : Fin 4), StreamTurn s t .S k →
    exec (.phase sc) s = .next (modTile (carried s t k .phase sc) t (committed s k .phase sc .publish)) ∧
    exec (.bar true sc) s = .next (modTile (carried s t k .bar sc) t (committed s k .bar sc .publish)) ∧
    exec (.bar false 0) s = .next (modTile s t fun T =>
      nextS { T with sWait := .bar 1, task := some { k with barGen := k.barGen + 1 } }) ∧
    (sc ≠ 0 → exec (.bar false sc) s = raise s causeIllegal (insnWord (.bar false sc)))

/-- R140, R141, R142: CKPT with no stream forked and a valid table publishes at SYSTEM scope and keeps the table for its
second step. With a stream forked it raises ILLEGAL_INSTR; else a table with a reserved bit set raises RECORD_RESERVED, and
one with a bad NR, LEN or ACC RECORD_INVALID, with the table's offset as TVAL. That the publish carries what is visible to
the task is a reading of R317 (log 10). What the publish takes along as it begins and where the pc stands meanwhile (log 25,
log 12), and that a forked stream is found before a reserved bit and that before an invalid field (log 26, log 15), are the
model's choices. -/
def Obligations.CheckpointBegins : Prop :=
  ∀ (s : State) (t : TileId) (k : Task) (a : XReg) (i : BitVec 13), StreamTurn s t .S k →
    let T := tileOf s t
    let o := (rx s a + BitVec.ofInt 64 i.toInt).toNat / 8 * 8 % 2 ^ k.log2
    let h := windowWord T o
    let ws := (List.range (1 + bfld h 5 0)).map fun j => windowWord T (o + 8 * j)
    let forkedAny := ∃ c ∈ [T.vs, T.m, T.a], c.run ≠ .idle
    (forkedAny → exec (.ckpt a i) s = raise s causeIllegal (insnWord (.ckpt a i))) ∧
    (¬forkedAny → ¬tableClean ws → exec (.ckpt a i) s = raise s causeReserved (word o)) ∧
    (¬forkedAny → tableClean ws → ¬tableFits k ws → exec (.ckpt a i) s = raise s causeInvalid (word o)) ∧
    (¬forkedAny → tableClean ws → tableFits k ws →
      exec (.ckpt a i) s = .next (modTile (carried s t k (.ckpt ws) 3) t (committed s k (.ckpt ws) 3 .publish)))

/-- R323, R326, R327, R331, R335: PEGP adds 1 to its peg; PEGW and WAITC complete when their counts allow it, else they
wait with nothing changed; FENCE of a thread completes and changes nothing but the pc.
R317, R319: FENCE of a tile acquires at its scope, which changes nothing but the older values its task may still read: none
stays that a visible publish made old, and a granule of which none stays reads as memory stands, under the task's own
stores. How long a task reads an older value is open, and the model's turns choose it (log 9, log 10). -/
def Sys2Proof.Machine.Claims.PegsAndFences : Prop :=
  (∀ (s : State) (t : TileId) (k : Task) (p : Fin 16), StreamTurn s t .S k →
    exec (.pegp p) s = .next (modTile s t fun T => nextS { T with pegs := vset T.pegs p (vget T.pegs p + 1) })) ∧
  (∀ (s : State) (t : TileId) (k : Task) (a : XReg) (p : Fin 16), StreamTurn s t .S k →
    exec (.pegw a p) s =
      if (rx s a).toNat ≤ (vget (tileOf s t).pegs p).toNat then .next (modTile s t nextS) else .next s) ∧
  (∀ (s : State) (t : TileId) (k : Task) (l st c o : Fin 16), StreamTurn s t .S k →
    let n := fun x => ((tileOf s t).cmdsM ++ (tileOf s t).cmdsA).countP fun e => decide (cmdClass e.kind = x)
    exec (.waitc l st c o) s =
      if n 0 ≤ l.val ∧ n 1 ≤ st.val ∧ n 2 ≤ c.val ∧ n 3 ≤ o.val then .next (modTile s t nextS) else .next s) ∧
  (∀ (s : State) (t : TileId) (k : Task) (sc : Fin 4), StreamTurn s t .S k →
    exec (.fence sc) s = .next (modTile (acquire s t sc) t nextS)) ∧
  (∀ (s : State) (n : ThreadId) (sc : Fin 4), s.cur = .thread n →
    ∃ u, exec (.fence sc) s = .next u ∧ WroteReg s u 0 0 (pcOf s + 4)) ∧
  (∀ (s : State) (t : TileId) (sc : Fin 4), { acquire s t sc with olds := s.olds } = s ∧
    FreshFor s (acquire s t sc) t sc ∧
    ∀ (ipa pa : Nat), (∀ x ∈ s.olds, x.tile = t → x.addr = pa / 64 * 64 → ∃ o ∈ x.overs, visible s t sc o = true) →
      taskByte (acquire s t sc) t ipa pa = ownByte s t ipa (physByte s pa))

/-- R328 to R330: WAITV checks its block, and looks at its enabled counters. With every enabled counter in the window:
where every one (.ALL) or some one (.ANY) has reached its target, it writes the mask of those that have to xd; with a
time-out of 0 it writes that mask and bit 8; else the stream waits at it. That TVAL is the block's offset before R128 reduces it
and a virtual address without its low 3 bits (log 27), and where the pc stands while a word waits (log 12), are the model's
choices. -/
def Sys2Proof.Machine.Claims.WaitOnCounters : Prop :=
  (∀ (s : State) (t : TileId) (k : Task) (d a : XReg) (all : Bool), StreamTurn s t .S k →
    exec (.waitv d a all 0) s = raise s causeIllegal (insnWord (.waitv d a all 0))) ∧
  ∀ (s : State) (t : TileId) (k : Task) (d a : XReg) (all : Bool) (m : Fin 16), StreamTurn s t .S k → m.val ≠ 0 →
    let T := tileOf s t
    let o := (rx s a).toNat / 8 * 8
    let w := fun j => windowWord T (o + 8 * j)
    let on := fun j => m.val / 2 ^ j % 2 = 1
    let kind := fun j => (w (1 + 2 * j)).toNat % 4
    let timeout := bfld (w 0) 47 0
    if bfld (w 0) 63 48 ≠ 0 then exec (.waitv d a all m) s = raise s causeReserved (word o)
    else if ∃ j, j < 4 ∧ on j ∧ (kind j = 0 ∨ kind j = 3) then exec (.waitv d a all m) s = raise s causeInvalid (word o)
    else
      (∀ j, j < 4 → on j → kind j = 2 → bfld (w (1 + 2 * j)) 63 56 ≠ 0 →
        (∀ l, l < j → on l → kind l = 2 → bfld (w (1 + 2 * l)) 63 56 = 0) →
        exec (.waitv d a all m) s = raise s causePermission (word ((w (1 + 2 * j)).toNat / 8 * 8))) ∧
      ((∀ j, j < 4 → on j → kind j = 2 → bfld (w (1 + 2 * j)) 63 56 = 0) →
        exec (.waitv d a all m) s =
          .next (waitLook s t k d all m.val (waitConds ((List.range 9).map w) m.val) timeout 0)) ∧
      ((∀ j, j < 4 → on j → kind j = 1) →
        let has := fun j => on j ∧ w (2 + 2 * j) ≤ windowWord T (bfld (w (1 + 2 * j)) 20 3 * 8)
        let mask := (List.range 4).foldl (fun v j => if has j then v + 2 ^ j else v) 0
        let write := fun v =>
          Host.Outcome.next (modTile s t fun T => nextS { T with x := xset T.x d (word v), sWait := .none })
        if (if all then mask = m.val else mask ≠ 0) then exec (.waitv d a all m) s = write mask
        else if timeout = 0 then exec (.waitv d a all m) s = write (mask + 2 ^ 8)
        else ∃ cs, exec (.waitv d a all m) s =
          .next (modTile s t fun T => { T with sWait := .waitv d all m.val cs timeout 0 }))

/-- R323, R326, R327, R331, R335: PEGP adds 1 to its peg; PEGW and WAITC complete when their counts allow it, else they
wait with nothing changed; FENCE of a thread completes and changes nothing but the pc.
R317, R319: FENCE of a tile acquires at its scope, which changes nothing but the older values its task may still read: none
stays that a visible publish made old, and a granule of which none stays reads as memory stands, under the task's own
stores. How long a task reads an older value is open, and the model's turns choose it (log 9, log 10).
R328 to R330: WAITV checks its block, and looks at its enabled counters. With every enabled counter in the window:
where every one (.ALL) or some one (.ANY) has reached its target, it writes the mask of those that have to xd; with a
time-out of 0 it writes that mask and bit 8; else the stream waits at it. That TVAL is the block's offset before R128 reduces it
and a virtual address without its low 3 bits (log 27), and where the pc stands while a word waits (log 12), are the model's
choices. -/
def Obligations.WaitsAndFences : Prop := Claims.PegsAndFences ∧ Claims.WaitOnCounters

/-- R320, R325, R336: CTRADD.LOCAL adds to the word at its aligned local offset. CTRADD.GLOBAL of a tile needs alignment
and an address below 2^56, and joins the task's effect list; of a thread it adds at once, to memory or to the counter. That
the thread's addition waits for a frame that a snapshot has still to save, and observes and carries what the word has taken,
are readings of R372 and R317 (log 69, log 10). The order of the checks, alignment before the bound of 2^56 before the
translation before PUBLISH_FULL, is the model's choice (log 15). -/
def Obligations.CounterAdditions : Prop :=
  (∀ (s : State) (a b : XReg), ScalarTurn s →
    let o := (rx s a).toNat / 8 * 8
    let places := fun j => localPlace s (o + j)
    let sum := word (littleEndian (fun j => localByte s (places j)) 8) + rx s b
    ∃ u, exec (.ctraddLocal a b) s = .next u ∧ (∀ q, rx u q = rx s q) ∧ pcOf u = pcOf s + 4 ∧ OnlyLocal s u ∧
      ∀ p, localByte u p = afterStore places 8 sum.toNat (localByte s) p) ∧
  (∀ (s : State) (a b : XReg), ScalarTurn s →
    ((rx s a).toNat % 8 ≠ 0 → exec (.ctraddGlobal a b) s = raise s causeMisaligned (rx s a)) ∧
    ((rx s a).toNat % 8 = 0 → 2 ^ 56 ≤ (rx s a).toNat → exec (.ctraddGlobal a b) s = raise s causePermission (rx s a))) ∧
  (∀ (s s1 : State) (t : TileId) (k : Task) (a b : XReg) (ipa pa : Nat), StreamTurn s t .S k → (rx s a).toNat % 8 = 0 →
    (rx s a).toNat < 2 ^ 56 → tileXlat s t k (rx s a).toNat .write = (s1, .ok (ipa, pa)) →
    exec (.ctraddGlobal a b) s =
      if (tileOf s t).effects.length < 256 then
        .next (modTile s1 t fun T => nextS { T with effects := T.effects ++ [.incr k.vf ipa (rx s b)] })
      else raise s1 causePublishFull (word ((tileOf s t).stores.length * 64))) ∧
  (∀ (s s1 : State) (n : ThreadId) (a b : XReg) (pa : Nat), s.cur = .thread n → (rx s a).toNat % 8 = 0 →
    (rx s a).toNat < 2 ^ 56 → threadXlat s n (rx s a).toNat .write = (s1, .ok pa) → inConfig pa = false →
    match windowCtr s pa with
    | some (c, _) => exec (.ctraddGlobal a b) s =
        if ctrHeld s c then .next (unheld s1 n)
        else .next (advance (addCounter (carryThread (seenAt s1 n pa) n) c (rx s b)) 4)
    | none =>
      let sum := word (littleEndian (fun j => physByte s (pa + j)) 8) + rx s b
      ∃ u, exec (.ctraddGlobal a b) s = .next u ∧ pcOf u = pcOf s + 4 ∧ (∀ q, rx u q = rx s q) ∧
        (∀ q, physByte u q = memAfterStore s pa 8 sum.toNat q) ∧
        { u with mem := [], olds := [] } = { setPc (unheld s1 n) (pcOf s + 4) with mem := [], olds := [] })

/-- R102, R103, R104: CSRR of a number that is not assigned where it runs raises ILLEGAL_INSTR, of one above the current
level PRIVILEGE, and else writes to xd what the CSR holds; nothing else changes. What VTICK, VFINFO and CYCLE read where the
spec gives no value, of a Guest thread that belongs to no VF and before a thread's first EVGET, is the model's choice
(log 67). -/
def Sys2Proof.Machine.Claims.CsrReads : Prop :=
  ∀ (s : State) (d : XReg) (c : BitVec 12), ScalarTurn s → (∀ t, s.cur = .tile t .S → (tileOf s t).task.isSome) →
    c.toNat ≠ 0x408 →
    match csrRule s c.toNat with
    | none => exec (.csrr d c) s = raise s causeIllegal (insnWord (.csrr d c))
    | some w =>
      if levelInTurn s < c.toNat / 1024 then exec (.csrr d c) s = raise s causePrivilege (insnWord (.csrr d c))
      else ∃ u, exec (.csrr d c) s = .next u ∧ WroteReg s u d w (pcOf s + 4)

/-- R41, R46, R47, R104, R105: CSRW, CSRW.C, CSRX and CSRX.S of FPCR, FPSR, the trap sets and DBGSEL: the old value to xd,
and the fields written as their access says. A read-only CSR raises ILLEGAL_INSTR. -/
def Sys2Proof.Machine.Claims.CsrWrites : Prop :=
  ∀ (i : Instr) (s : State) (d : XReg) (c : BitVec 12) (f : Word → Word) (old : Word), ScalarTurn s →
    csrWriteRule (rx s) i = some (d, c, f) → csrRule s c.toNat = some old → c.toNat / 1024 ≤ levelInTurn s →
    (c.toNat / 512 % 2 = 1 → exec i s = raise s causeIllegal (insnWord i)) ∧
    (c.toNat = 0x001 → ∀ t, s.cur = .tile t .S →
      let g := fpcrRule old (f old)
      exec i s = .next (modTile (gave s d old) t fun T => { T with s := { T.s with fpcr := g.1, gen := g.2 } })) ∧
    (c.toNat = 0x001 → ∀ n, s.cur = .thread n →
      let g := fpcrRule old (f old)
      exec i s = .next (modThr (gave s d old) n fun h => { h with fpcr := g.1, gen := g.2 })) ∧
    (c.toNat = 0x002 → ∀ a, i = .csrw a c ∨ i = .csrwC a c ∨ i = .csrx d a c →
      exec i s = .next (match s.cur with
        | .tile t _ => modTile (gave s d old) t fun T => { T with s := { T.s with fpsr := old &&& ~~~(rx s a) } }
        | .thread n => modThr (gave s d old) n fun h => { h with fpsr := old &&& ~~~(rx s a) })) ∧
    (c.toNat = 0x002 → ∀ a, i = .csrxS d a c → exec i s = .next (gave s d old)) ∧
    (∀ n, s.cur = .thread n →
      (0x400 ≤ c.toNat → c.toNat ≤ 0x404 → exec i s = .next (modThr (gave s d old) n fun h =>
        { h with steward := trapWriteRule h.steward (c.toNat - 0x400) f })) ∧
      (0x800 ≤ c.toNat → c.toNat ≤ 0x804 → exec i s = .next (modThr (gave s d old) n fun h =>
        { h with keeper := trapWriteRule h.keeper (c.toNat - 0x800) f })) ∧
      (c.toNat = 0x407 → exec i s = .next (modThr (gave s d old) n fun h =>
        { h with dbgsel := f old &&& 0x001FFFFF00000FFF, dbgErr := false })))

/-- R104, R105, R120: the words of DBGDATA. A read answers the 8 bytes at DBGSEL's selection, each place reduced to its space;
a write puts 8 bytes there, and no other byte of the tile changes; each access moves OFFSET on by 8 within the space, and ERR
says whether it found its tile halted and reported: else a read answers 0 and a write does nothing. A clear and a set take the
bytes they change from such a read. On a tile the CSR is not assigned, and below level 1 it raises PRIVILEGE. The layout of
spaces 5 and 6, and what a Keeper thread may see, are the model's own (log 35, log 51). -/
def Sys2Proof.Machine.Claims.DebugDataWords : Prop :=
  ∀ (i : Instr) (s : State) (d : XReg) (f : Option (Word → Word)), ScalarTurn s →
    (i = .csrr d 0x408 ∧ f = none ∨ ∃ g, csrWriteRule (rx s) i = some (d, 0x408, g) ∧ f = some g) →
    (∀ t, s.cur = .tile t .S → exec i s = raise s causeIllegal (insnWord i)) ∧
    ∀ n, s.cur = .thread n →
      let w := (thrOf s n).dbgsel
      let T := tileOf s (dbgTile w)
      let old := debugDataRule s n
      ((thrOf s n).level = 0 → exec i s = raise s causePrivilege (insnWord i)) ∧
      ((thrOf s n).level ≠ 0 → f = none → exec i s = .next (gave (debugMoved s n s) d old)) ∧
      ((thrOf s n).level ≠ 0 → ∀ g, f = some g →
        (seenHalted s n (w.toNat % 256) = false → exec i s = .next (debugMoved s n (gave s d 0))) ∧
        (seenHalted s n (w.toNat % 256) = true → ((dbgSpace w) = 6 → ∀ st, (strm T st).fpsr.toNat < 64) →
          ∃ U, DebugWritten T U (dbgSpace w) (dbgOffset w) (g old) ∧
            exec i s = .next (debugMoved s n (setTile (gave s d old) (dbgTile w) U))))

/-- R102, R103, R104: CSRR of a number that is not assigned where it runs raises ILLEGAL_INSTR, of one above the current
level PRIVILEGE, and else writes to xd what the CSR holds; nothing else changes. What VTICK, VFINFO and CYCLE read where the
spec gives no value, of a Guest thread that belongs to no VF and before a thread's first EVGET, is the model's choice
(log 67).
R41, R46, R47, R104, R105: CSRW, CSRW.C, CSRX and CSRX.S of FPCR, FPSR, the trap sets and DBGSEL: the old value to xd,
and the fields written as their access says. A read-only CSR raises ILLEGAL_INSTR.
R104, R105, R120: the words of DBGDATA. A read answers the 8 bytes at DBGSEL's selection, each place reduced to its space;
a write puts 8 bytes there, and no other byte of the tile changes; each access moves OFFSET on by 8 within the space, and ERR
says whether it found its tile halted and reported: else a read answers 0 and a write does nothing. A clear and a set take the
bytes they change from such a read. On a tile the CSR is not assigned, and below level 1 it raises PRIVILEGE. The layout of
spaces 5 and 6, and what a Keeper thread may see, are the model's own (log 35, log 51). -/
def Obligations.CsrWords : Prop := Claims.CsrReads ∧ Claims.CsrWrites ∧ Claims.DebugDataWords

/-- R104, R105: a plain write (CSRW, CSRX) of VFCTL, DBGCTL or PARTCTL starts the command that its value names, or raises
PRIVILEGE where the command may not name its target; CSRX also writes the 0 that the register reads to xd. A clear (CSRW.C) or
a set (CSRX.S) starts none. -/
def Obligations.CommandRegisters : Prop :=
  ∀ (s : State) (n : ThreadId) (a : XReg) (c : BitVec 12), s.cur = .thread n → c.toNat / 1024 ≤ (thrOf s n).level →
    (∀ i d, (i = .csrw a c ∧ d = 0) ∨ i = .csrx d a c →
      let s1 := wx (advance s 4) d 0
      (c.toNat = 0x405 → match vfctl s1 n (rx s a) with
        | some u => exec i s = .next u
        | none => exec i s = raise s causePrivilege (insnWord i)) ∧
      (c.toNat = 0x406 → match dbgctl s1 n (rx s a) with
        | some u => exec i s = .next u
        | none => exec i s = raise s causePrivilege (insnWord i)) ∧
      (c.toNat = 0x805 → exec i s = .next (partctl s1 n (rx s a)))) ∧
    (∀ i d, (i = .csrwC a c ∧ d = 0) ∨ i = .csrxS d a c → c.toNat = 0x405 ∨ c.toNat = 0x406 ∨ c.toNat = 0x805 →
      ∃ u, exec i s = .next u ∧ WroteReg s u d 0 (pcOf s + 4))

/-- R106: TRAP with BREAKPOINT or a software cause traps its thread one level up, with TEPC at the next word and
TSTAT.SW; on a tile a breakpoint of an armed VF halts the task, and any other cause is the task's. Any other code raises
ILLEGAL_INSTR. -/
def Obligations.TrapWord : Prop :=
  ∀ (s : State) (c : BitVec 8), ScalarTurn s →
    if c.toNat ≠ 0x13 ∧ c.toNat < 0x80 then exec (.trap c) s = raise s causeIllegal (insnWord (.trap c))
    else
      let val := if c.toNat = 0x13 then pcOf s else rx s 1
      (∀ n, s.cur = .thread n → exec (.trap c) s = .next (threadTrap s n c.toNat true (pcOf s) (pcOf s + 4) val)) ∧
      (∀ t, s.cur = .tile t .S → match (tileOf s t).task.bind fun k => (vfOf s k.vf).breakpoints with
        | none => exec (.trap c) s = .next (tileTrap s t 0 c.toNat (pcOf s) val)
        | some n =>
          if c.toNat = 0x13 then exec (.trap c) s = .next (modTile s t fun T =>
            nextS { T with debug := .halting n causeBreakpoint (pcOf s) })
          else exec (.trap c) s = .next (tileTrap s t 0 c.toNat (pcOf s) val))

/-- R115: a trap on a thread, where the level it goes to is not in use: PL and ACT, TEPC, TCAUSE and TVAL of that level are
set, the level rises, and the pc is the level's TVEC. Nothing else of the machine changes but what the thread waits for.
SW tells TRAP; that another trap leaves it 0 is a reading of R104 (log 48). The levels are 0, 1 and 2 (R98). -/
def Obligations.TrapEntry : Prop :=
  ∀ (s : State) (n : ThreadId) (c : Nat) (sw : Bool) (pc epc val : Word),
    let h := thrOf s n
    let l := if h.level = 0 then 1 else 2
    let r := if l = 1 then h.steward else h.keeper
    let r' : TrapRegs := { r with tstat := word (h.level % 4 + 4 + (if sw then 8 else 0)), tepc := epc &&& ~~~(3 : Word)
                                  tcause := word c, tval := val }
    h.level < 3 → r.tstat.toNat / 4 % 2 = 0 →
    threadTrap s n c sw pc epc val = setThr s n
      { h with steward := if l = 1 then r' else h.steward, keeper := if l = 1 then h.keeper else r', level := l,
               pc := r.tvec, wait := .none }

/-- R79, R115: a thread's word that raises a cause other than ECC_UNCORRECTABLE has no effect of its own: no register, no
counter and no byte changes, and TEPC holds its address. -/
def Sys2Proof.Machine.Claims.ThreadRaises : Prop :=
  ∀ (s : State) (n : ThreadId) (c : Nat) (val : Word), s.cur = .thread n → c ≠ causeEcc → (thrOf s n).level < 3 →
    let l := if (thrOf s n).level = 0 then 1 else 2
    let regs := fun (h : Thread) => if l = 1 then h.steward else h.keeper
    (regs (thrOf s n)).tstat.toNat / 4 % 2 = 0 →
    ∃ u, raise s c val = .next u ∧ setThr u n (thrOf s n) = s ∧ (∀ q, rx u q = rx s q) ∧
      (regs (thrOf u n)).tepc = pcOf s &&& ~~~(3 : Word) ∧ (regs (thrOf u n)).tcause = word c ∧
      (regs (thrOf u n)).tval = val ∧ (thrOf u n).level = l ∧ pcOf u = (regs (thrOf s n)).tvec

/-- R108, R116: a trap into a level whose TSTAT.ACT is set, and ECC_UNCORRECTABLE of a thread's word, end the handler: the
thread is at its home level, with TSTAT.ACT clear above it and its watchdog at 0; a JQ_NOTIFY handler's entry is FREE (R283,
R384); the supervisor is sent the record, with DOUBLE set for the trap. The thread parks at the EVGET that began the handler,
its registers and its store as they were, or where it has issued none it starts over at offset 0. -/
def Sys2Proof.Machine.Claims.DoubleTrap : Prop :=
  (∀ (s : State) (n : ThreadId) (c : Nat) (sw : Bool) (pc epc val : Word),
    (if (thrOf s n).level = 0 then (thrOf s n).steward else (thrOf s n).keeper).tstat.toNat / 4 % 2 = 1 →
    Killed s n 1 c pc val (threadTrap s n c sw pc epc val)) ∧
  ∀ (s : State) (n : ThreadId) (val : Word), s.cur = .thread n →
    ∃ u, raise s causeEcc val = .next u ∧ Killed s n 0 causeEcc (pcOf s) val u

/-- R79, R115: a thread's word that raises a cause other than ECC_UNCORRECTABLE has no effect of its own: no register, no
counter and no byte changes, and TEPC holds its address.
R108, R116: a trap into a level whose TSTAT.ACT is set, and ECC_UNCORRECTABLE of a thread's word, end the handler: the
thread is at its home level, with TSTAT.ACT clear above it and its watchdog at 0; a JQ_NOTIFY handler's entry is FREE (R283,
R384); the supervisor is sent the record, with DOUBLE set for the trap. The thread parks at the EVGET that began the handler,
its registers and its store as they were, or where it has issued none it starts over at offset 0. -/
def Obligations.ThreadTraps : Prop := Claims.ThreadRaises ∧ Claims.DoubleTrap

/-- R107: SRET is the word 0xE8000000 and runs only on threads. At Guest level it raises PRIVILEGE, at a level that handles
no trap ILLEGAL_INSTR, and else it clears ACT and goes to the level and the pc that the trap saved. Nothing else
changes. -/
def Obligations.ReturnFromTrap : Prop :=
  encode .sret = some (.scalar, 0xE8000000) ∧
  (∀ (s : State) (t : TileId) (st : Stream), s.cur = .tile t st → exec .sret s = raise s causeIllegal (insnWord .sret)) ∧
  ∀ (s : State) (n : ThreadId), s.cur = .thread n →
    let h := thrOf s n
    let r := if h.level = 1 then h.steward else h.keeper
    let r' := { r with tstat := r.tstat &&& ~~~(4 : Word) }
    if h.level = 0 then exec .sret s = raise s causePrivilege (insnWord .sret)
    else if r.tstat.toNat / 4 % 2 = 0 then exec .sret s = raise s causeIllegal (insnWord .sret)
    else exec .sret s = .next (setThr s n
      { h with steward := if h.level = 1 then r' else h.steward, keeper := if h.level = 1 then h.keeper else r'
               level := r.tstat.toNat % 4, pc := r.tepc })

/-- R67, R78: a word in the wrong place raises ILLEGAL_INSTR: thread words on a tile, S-stream words on a thread, and
stream words of V, M and A anywhere else. -/
def Obligations.WrongIssuer : Prop :=
  (∀ (i : Instr) (s : State) (t : TileId) (st : Stream), s.cur = .tile t st →
    (globalLoadRule i).isSome ∨ (globalStoreRule i).isSome ∨ i = .evdone ∨ i = .sret ∨ i = .tlbiAll ∨
      (∃ d a b, i = .bkarm d a b) ∨ (∃ d, i = .evget d) ∨ (∃ a b, i = .tlbiVa a b) ∨ (∃ b, i = .tlbiAsid b) ∨
      (∃ a, i = .seghold a ∨ i = .segrel a) ∨ (∃ d a b z o, i = .amo d a b z o) ∨ (∃ d a b z, i = .cas d a b z) →
    exec i s = raise s causeIllegal (insnWord i)) ∧
  (∀ (i : Instr) (s : State) (n : ThreadId), s.cur = .thread n →
    i = .join ∨ i = .taskEnd ∨ (∃ d q, i = .qpops d q) ∨ (∃ a m, i = .fork a m) ∨ (∃ a o, i = .ckpt a o) ∨
      (∃ l st c o, i = .waitc l st c o) ∨ (∃ d a l m, i = .waitv d a l m) ∨ (∃ p, i = .pegp p) ∨ (∃ a p, i = .pegw a p) ∨
      (∃ p sc, i = .bar p sc) ∨ (∃ sc, i = .phase sc) ∨ (∃ w, encode i = some (.vector, w)) ∨
      (∃ w, encode i = some (.engine, w)) →
    exec i s = raise s causeIllegal (insnWord i)) ∧
  (∀ (i : Instr) (s : State) (t : TileId) (st : Stream) (w : Nat), s.cur = .tile t st →
    (encode i = some (.vector, w) ∧ st ≠ .V) ∨ (encode i = some (.engine, w) ∧ st ≠ .M ∧ st ≠ .A) ∨
      (encode i = some (.scalar, w) ∧ st ≠ .S) →
    exec i s = raise s causeIllegal (insnWord i))

/-- R277, R286: an operation's handle passes exactly the checks of the rule, and a reservation takes a guaranteed unit, or a
pool unit where the VF stands below JQGUAR + JQBURST and one is left, or none. A slot that nothing has used yet counts as
free, of generation 1 (log 17); a unit that an ABSENT VF still holds stays out of the pool (log 34). -/
def Sys2Proof.Machine.Claims.HandlesAndQuotas : Prop :=
  (∀ (s : State) (p : PartId) (v : Option VfId) (h : Word) (need : Nat) (l : HandleSlot),
    checkHandle s p v h need = some l ↔ HandleServes s p v h need l) ∧
  (∀ (q : Partition) (n : Nat), tfind q.handles n = none → (slotAt q n).used = false ∧ (slotAt q n).gen = 1) ∧
  ∀ (s : State) (v : VfId), let f := vfOf s v
    if usageRule s v < f.jqGuar ∨ (usageRule s v < f.jqGuar + f.jqBurst ∧ 0 < poolRule s f.part) then
      reserve s v = some { s with reserved := v :: s.reserved }
    else reserve s v = none

/-- R277, R279, R280, R286: JQPUT raises JQ_RIGHTS for a handle that fails its checks and for a reserved bit, PUBLISH_FULL
with 256 effects buffered, answers 6 in xd where the quota refuses, and else reserves a unit, answers 0, and hands the put
to the task's effect list or, from a thread, to the port at once. That a thread without a partition has no handle and raises
JQ_RIGHTS is the model's choice (log 29); what a thread's put carries is a reading of R317 (log 10). -/
def Sys2Proof.Machine.Claims.QueuePutWord : Prop :=
  ∀ (s : State) (d a b : XReg), ScalarTurn s →
    let h := rx s a
    let desc := localRecord s (rx s b).toNat 10
    match (putterOf s).bind fun pv => (checkHandle s pv.1 pv.2 h 1).map fun l => (pv, l) with
    | none => exec (.jqput d a b) s = raise s causeRights h
    | some ((p, v), l) =>
      if bfld (recw desc 1) 31 8 ≠ 0 ∨ bfld (recw desc 1) 6 4 ≠ 0 then exec (.jqput d a b) s = raise s causeRights h
      else
        let put : Put := { part := p, handle := h, cls := l.cls, desc := desc, unitVf := l.vf, putter := v }
        let full := ∃ t, s.cur = .tile t .S ∧ 256 ≤ (tileOf s t).effects.length
        (full → ∀ t, s.cur = .tile t .S →
          exec (.jqput d a b) s = raise s causePublishFull (word ((tileOf s t).stores.length * 64))) ∧
        (¬full → match reserve s l.vf with
          | none => ∃ u, exec (.jqput d a b) s = .next u ∧ WroteReg s u d 6 (pcOf s + 4)
          | some s1 => s1 = { s with reserved := l.vf :: s.reserved } ∧
            (∀ t, s.cur = .tile t .S → exec (.jqput d a b) s =
              .next (gave (modTile s1 t fun T => { T with effects := T.effects ++ [.put put] }) d 0)) ∧
            (∀ n, s.cur = .thread n → exec (.jqput d a b) s = .next (gave (arrive (carryThread s1 n) 2 n.val (.put put)) d 0)))

/-- R277, R286: an operation's handle passes exactly the checks of the rule, and a reservation takes a guaranteed unit, or a
pool unit where the VF stands below JQGUAR + JQBURST and one is left, or none. A slot that nothing has used yet counts as
free, of generation 1 (log 17); a unit that an ABSENT VF still holds stays out of the pool (log 34).
R277, R279, R280, R286: JQPUT raises JQ_RIGHTS for a handle that fails its checks and for a reserved bit, PUBLISH_FULL
with 256 effects buffered, answers 6 in xd where the quota refuses, and else reserves a unit, answers 0, and hands the
put to the task's effect list or, from a thread, to the port at once. That a thread without a partition has no handle and
raises JQ_RIGHTS is the model's choice (log 29); what a thread's put carries is a reading of R317 (log 10). -/
def Obligations.QueuePuts : Prop := Claims.HandlesAndQuotas ∧ Claims.QueuePutWord

/-- R277, R288, R293: a JQCTL word other than QUERY raises PRIVILEGE on a tile, waits on a thread for its earlier requests and
for its phase of the port cycle, and raises JQ_RIGHTS for a handle that fails R277's checks or lacks its right. QUERY waits on
a tile until the states are those of a match phase, and on a thread as the others do, and needs any right. That a thread
without a partition has no handle (log 29), and that the wait comes before the handle's check (log 12), are the model's
choices. -/
def Obligations.QueueControlChecks : Prop :=
  ∀ (i : Instr) (s : State) (a : XReg) (need : Nat), jqctlRule i = some (a, need) →
    (∀ t, s.cur = .tile t .S → exec i s = raise s causePrivilege (insnWord i)) ∧
    (∀ n, s.cur = .thread n → ¬JqReady s n (jqPhase i) → exec i s = .next s) ∧
    (∀ n, s.cur = .thread n → JqReady s n (jqPhase i) →
      (∀ p v, putterOf s = some (p, v) → checkHandle s p v (rx s a) need = none) →
      exec i s = raise s causeRights (rx s a)) ∧
    ∀ d a b, ScalarTurn s → let i := Instr.jqctlQuery d a b
      (∀ t, s.cur = .tile t .S → s.selected = true → exec i s = .next s) ∧
      (∀ n, s.cur = .thread n → ¬JqReady s n .beforeSelect → exec i s = .next s) ∧
      ((∀ t, s.cur = .tile t .S → s.selected = false) → (∀ n, s.cur = .thread n → JqReady s n .beforeSelect) →
        (∀ p v, putterOf s = some (p, v) → checkHandle s p v (rx s a) 7 = none) →
        exec i s = raise s causeRights (rx s a))

/-- R287 to R290: with their right, FREEZE freezes the class and answers whether it was frozen; THAW ends that, sends its
FAULTED entries back to the port or frees them, and answers their number; CLASSGET makes a handle of narrower rights or,
with none left, frees its slot. That a CLASSGET of rights 0 frees the slot whatever xb's other bits and its VF say is the model's
choice (log 29); that THAW waits while the class's VF is FROZEN is a reading of R415 (log 71). -/
def Sys2Proof.Machine.Claims.QueueClassControl : Prop :=
  ∀ (s : State) (n : ThreadId) (d a b : XReg) (p : PartId) (v : Option VfId) (l : HandleSlot), s.cur = .thread n →
    JqReady s n .afterMatch → putterOf s = some (p, v) → checkHandle s p v (rx s a) 2 = some l →
    let q := partOf s p
    let x := rx s b
    let s1 := asked s n .afterMatch
    exec (.jqctlFreeze d a b) s =
      .next (gave (withClass s1 p l.cls fun r => { r with frozen := true }) d (if classFrozen s p l.cls then 1 else 0)) ∧
    exec (.jqctlThaw d a b) s = (if frozenClass s p l.cls then .next s else
      .next (gave (thawEntries (withClass s1 p l.cls fun r => { r with frozen := false }) (decide (x.toNat % 2 = 1))
        (faultedOf s p l.cls)) d (word (faultedOf s p l.cls).length))) ∧
    (l.rights &&& (x.toNat % 8) = 0 → exec (.jqctlClassget d a b) s =
      .next (gave (modPart s1 p fun q => { q with handles := tmod q.handles (bfld (rx s a) 11 0) freeSlot }) d 0)) ∧
    (l.rights &&& (x.toNat % 8) ≠ 0 →
      let w : VfId := Fin.ofNat 128 (x.toNat / 2 ^ 16 % 128)
      if x.toNat / 2 ^ 23 ≠ 0 ∨ bfld x 15 3 ≠ 0 ∨ vfStands s w = false ∨ (vfOf s w).part ≠ p ∨
         ((List.range 4096).all fun j => (slotAt q j).used) = true then
        exec (.jqctlClassget d a b) s = .next (gave s1 d 0)
      else ∃ j, j < 4096 ∧ (slotAt q j).used = false ∧ (∀ i, i < j → (slotAt q i).used = true) ∧
        let h : HandleSlot := { gen := (slotAt q j).gen, used := true, cls := l.cls, clsGen := l.clsGen,
                                rights := l.rights &&& (x.toNat % 8), vf := w }
        exec (.jqctlClassget d a b) s =
          .next (gave (modPart s1 p fun q => { q with handles := tput q.handles j h }) d
            (word (h.gen % 2 ^ 32 * 2 ^ 32 + h.rights * 2 ^ 12 + j))))

/-- R265, R266, R288: CLASSSET raises PRIVILEGE on a tile, for an issuer without a partition, and for a Guest whose class it
is not, JQ_RIGHTS for an operator code of 16 or more, and answers 0 for a record that it refuses. A thread without a partition
has no class of its own, and PRIVILEGE is the model's answer to it (log 29). -/
def Sys2Proof.Machine.Claims.ClassSetRefuses : Prop :=
  (∀ (s : State) (t : TileId) (d a b : XReg), s.cur = .tile t .S →
    exec (.jqctlClassset d a b) s = raise s causePrivilege (insnWord (.jqctlClassset d a b))) ∧
  ∀ (s : State) (n : ThreadId) (d a b : XReg), s.cur = .thread n →
    let i := Instr.jqctlClassset d a b
    let c := (rx s a).toNat % 256
    let w := localRecord s (rx s b).toNat 16
    (¬JqReady s n .afterMatch → exec i s = .next s) ∧
    (JqReady s n .afterMatch → putterOf s = none → exec i s = raise s causePrivilege (insnWord i)) ∧
    ∀ p v, JqReady s n .afterMatch → putterOf s = some (p, v) →
      (v ≠ none ∧ (tfind (partOf s p).classes c).map JqClass.vf ≠ v →
        exec i s = raise s causePrivilege (insnWord i)) ∧
      (v = none ∨ (tfind (partOf s p).classes c).map JqClass.vf = v →
        (16 ≤ bfld (recw w 0) 4 0 → exec i s = raise s causeRights (rx s a)) ∧
        (bfld (recw w 0) 4 0 < 16 → RecordRefused s p v c w → exec i s = .next (gave (asked s n .afterMatch) d 0)))

/-- R265, R266, R288: CLASSSET of an accepted record completes. The class takes the record, not frozen, and a new generation;
every handle slot of the class is freed; the lowest free slot takes the rights PUT, TAKE and STEAL for the owning VF, and its
handle goes to xd. Every other class, every other slot and the rest of the partition stand. That the slot is chosen before
those of the class are freed is a reading (log 29), as is the first generation (log 17). -/
def Sys2Proof.Machine.Claims.ClassSetCompletes : Prop :=
  ∀ (s : State) (n : ThreadId) (d a b : XReg) (p : PartId) (v : Option VfId), s.cur = .thread n → JqReady s n .afterMatch →
    putterOf s = some (p, v) →
    let q := partOf s p
    let c := (rx s a).toNat % 256
    let w := localRecord s (rx s b).toNat 16
    let r := classOfRecord w
    v = none ∨ (tfind q.classes c).map JqClass.vf = v → bfld (recw w 0) 4 0 < 16 → ¬RecordRefused s p v c w →
    ∃ (j : Nat) (q' : Partition), j < 4096 ∧ (slotAt q j).used = false ∧ (∀ i, i < j → (slotAt q i).used = true) ∧
      exec (.jqctlClassset d a b) s = .next (gave (setPart (asked s n .afterMatch) p q') d
        (word ((slotAt q j).gen % 2 ^ 32 * 2 ^ 32 + 7 * 2 ^ 12 + j))) ∧
      tfind q'.classes c = some r ∧ r.frozen = false ∧ (∀ e, e ≠ c → tfind q'.classes e = tfind q.classes e) ∧
      clsGenOf q' c = clsGenOf q c + 1 ∧ (∀ e, e ≠ c → clsGenOf q' e = clsGenOf q e) ∧
      slotAt q' j = { gen := (slotAt q j).gen, used := true, cls := c, clsGen := clsGenOf q c + 1, rights := 7, vf := r.vf } ∧
      (∀ i, i ≠ j → slotAt q' i = if (slotAt q i).used = true ∧ (slotAt q i).cls = c then
        { slotAt q i with used := false, gen := (slotAt q i).gen + 1, rights := 0 } else slotAt q i) ∧
      { q' with classes := [], clsGens := [], handles := [] } = { q with classes := [], clsGens := [], handles := [] }

/-- R265, R266, R288: CLASSSET raises PRIVILEGE on a tile, for an issuer without a partition, and for a Guest whose class it
is not, JQ_RIGHTS for an operator code of 16 or more, and answers 0 for a record that it refuses. A thread without a partition
has no class of its own, and PRIVILEGE is the model's answer to it (log 29).
R265, R266, R288: CLASSSET of an accepted record completes. The class takes the record, not frozen, and a new generation;
every handle slot of the class is freed; the lowest free slot takes the rights PUT, TAKE and STEAL for the owning VF, and its
handle goes to xd. Every other class, every other slot and the rest of the partition stand. That the slot is chosen before
those of the class are freed is a reading (log 29), as is the first generation (log 17). -/
def Obligations.QueueClassSet : Prop := Claims.ClassSetRefuses ∧ Claims.ClassSetCompletes

/-- R282, R291, R292: TAKE hands over the best READY entry of the class, STEAL the matchable entry of a key: its record
goes to the core-local store, it becomes FREE and xd reads 0; with none, xd reads 1. QUERY reports the matchable entry of
a key, and on any entry changes nothing. That TAKE and STEAL wait while the class's VF is FROZEN is a reading of R415 (log 71). -/
def Sys2Proof.Machine.Claims.QueueEntryControl : Prop :=
  (∀ (s : State) (n : ThreadId) (d a b : XReg) (p : PartId) (v : Option VfId) (l : HandleSlot), s.cur = .thread n →
    JqReady s n .inSelect → putterOf s = some (p, v) →
    let o := (rx s b).toNat / 8 * 8
    let s1 := asked s n .inSelect
    let hand := fun (id : Nat) (e : JqEntry) =>
      gave (modThr (freeEntry s1 id) n fun h => storePutWords h o
        ([e.key, word (e.folds * 2 ^ 32 + (if e.ovf then 2 ^ 31 else 0) + e.prio * 2 ^ 8 + stateCode e.state)] ++
          (List.range 8).map (payWord e.payload))) d 0
    let mine := fun (e : JqEntry) => e.part = p ∧ e.cls = l.cls
    (checkHandle s p v (rx s a) 2 = some l →
      if frozenClass s p l.cls then exec (.jqctlTake d a b) s = .next s
      else if ∀ x ∈ s.entries, mine x.2 → x.2.state ≠ .ready then exec (.jqctlTake d a b) s = .next (gave s1 d 1)
      else ∃ id e, (id, e) ∈ s.entries ∧ mine e ∧ e.state = .ready ∧
        (∀ x ∈ s.entries, mine x.2 → x.2.state = .ready → ¬before x.2 e) ∧
        exec (.jqctlTake d a b) s = .next (hand id e)) ∧
    (checkHandle s p v (rx s a) 4 = some l →
      if frozenClass s p l.cls then exec (.jqctlSteal d a b) s = .next s
      else match findMatch s p l.cls (storeWord (thrOf s n) o) none with
      | none => exec (.jqctlSteal d a b) s = .next (gave s1 d 1)
      | some (id, e) => exec (.jqctlSteal d a b) s = .next (hand id e))) ∧
  (∀ (s : State) (d a b : XReg) (p : PartId) (v : Option VfId) (l : HandleSlot), ScalarTurn s →
    (∀ t, s.cur = .tile t .S → s.selected = false) → (∀ n, s.cur = .thread n → JqReady s n .beforeSelect) →
    putterOf s = some (p, v) → checkHandle s p v (rx s a) 7 = some l →
    ∃ u, exec (.jqctlQuery d a b) s = .next u ∧
      WroteReg (match s.cur with
        | .tile _ _ => s
        | .thread n => asked s n .beforeSelect) u d
          (queryWord (classFrozen s p l.cls) (queryEntry s p l.cls (rx s b))) (pcOf s + 4))

/-- R287 to R290: with their right, FREEZE freezes the class and answers whether it was frozen; THAW ends that, sends its
FAULTED entries back to the port or frees them, and answers their number; CLASSGET makes a handle of narrower rights or,
with none left, frees its slot. That a CLASSGET of rights 0 frees the slot whatever xb's other bits and its VF say is the model's
choice (log 29); that THAW waits while the class's VF is FROZEN is a reading of R415 (log 71).
R282, R291, R292: TAKE hands over the best READY entry of the class, STEAL the matchable entry of a key: its record
goes to the core-local store, it becomes FREE and xd reads 0; with none, xd reads 1. QUERY reports the matchable entry of
a key, and on any entry changes nothing. That TAKE and STEAL wait while the class's VF is FROZEN is a reading of R415 (log 71). -/
def Obligations.QueueControl : Prop := Claims.QueueClassControl ∧ Claims.QueueEntryControl

/-- R402, R403: SEND refuses a descriptor or data out of range, and a handle it may not use, with 1; answers 2 where no
transmit resource is free; and else answers 0 and joins the task's effect list or, from a thread, starts at once. A
thread's message to a local service does what that service does with it, or is refused with 1; it waits while its data lie in
memory that waits, and its read of a held segment keeps its place there (R341, R348, R349). The order of the checks, and the free value that says whether a transmit resource is free, are
the model's (log 44, log 21). -/
def Obligations.Sends : Prop :=
  ∀ (s : State) (d a b : XReg), ScalarTurn s →
    let h := rx s a
    let w := localRecord s (rx s b).toNat 5
    let refused := exec (.send d a b) s = .next (gave s d 1)
    if sdInRange s w = false ∨ sdDataOk s w = false then refused
    else if h.toNat < 8 then match s.cur with
      | .tile _ _ => refused
      | .thread n =>
        let s1 := (sdRow s n w).1
        let s2 := if sdFromMem w then unheld s1 n else s1
        { s1 with holds := s.holds } = s ∧ (sdFromMem w = false → sdRow s n w = (s, true)) ∧
        if (sdRow s n w).2 = false ∨ sdWaits s1 w = true then ∃ u, exec (.send d a b) s = .next u ∧ unheld u n = unheld s1 n
        else match sendLocal s2 n h.toNat w with
          | none => exec (.send d a b) s = .next (gave s2 d 1)
          | some u => exec (.send d a b) s = .next (gave u d 0)
    else match issuerPart s with
      | none => refused
      | some p =>
        if endpointOk s p (issuerVf s) h = false ∨ noVfGuest s = true then refused
        else if Config.transmitFree s.freeCtr = false then exec (.send d a b) s = .next (gave s d 2)
        else match s.cur with
          | .thread _ => exec (.send d a b) s = .next (gave (acceptSend s (sendOf s p h w)) d 0)
          | .tile t _ =>
            if 256 ≤ (tileOf s t).effects.length then
              exec (.send d a b) s = raise s causePublishFull (word ((tileOf s t).stores.length * 64))
            else exec (.send d a b) s =
              .next (gave (modTile s t fun T => { T with effects := T.effects ++ [.send (sendOf s p h w)] }) d 0)

/-- R317, R380, R383, R384: EVGET ends an active handler and takes the oldest event: its summary to xd, its record to the
core-local store, the watchdog to 0, and the publishes whose increments made it observed; with no event it parks at its own
address. EVDONE ends the handler. That an EVGET in an active handler ends it as EVDONE does, and that the parked state holds
the pc, are readings (log 12, log 47). -/
def Obligations.EventWords : Prop :=
  (∀ (s : State) (n : ThreadId) (d : XReg), s.cur = .thread n →
    let s1 := if (thrOf s n).handler.isSome then endHandler s n else s
    let park := exec (.evget d) s = .next (modThr s1 n fun h =>
      { h with wait := .evget d, watchdog := 0, evgetPc := some h.pc, evgetReg := d })
    match (thrOf s1 n).queue with
    | [] => park
    | e :: _ =>
      if eventsHeld s1 n then park
      else
        let s2 := observeThread (takenEvent (modThr s1 n fun h =>
          { h with queue := h.queue.tail ++ h.waiting.take 1, waiting := h.waiting.drop 1 }) e) n e.marks
        exec (.evget d) s = .next (gave (modThr s2 n fun h =>
          { storePutWords h 0 e.record with wait := .none, handler := some e, evgetPc := some h.pc, evgetReg := d
                                            watchdog := 0, startCycle := s1.ik }) d e.summary)) ∧
  (∀ (s : State) (n : ThreadId), s.cur = .thread n →
    exec .evdone s = .next (advance (if (thrOf s n).handler.isSome then endHandler s n else s) 4))

/-- R393, R396 to R400: BKARM raises PRIVILEGE for a number or a level record that a Guest may not name, answers 1 for a
number or a record that is refused, 2 after a disarm, and 0 after arming; it waits for the next Innkeeper cycle where the
booking unit has gone past its thread in this one. That it waits for a booking or a counter of a FROZEN VF, which fields
another ACTION or PLACE leaves unused, and the order of events of one rank are readings (log 41, 43, 65). -/
def Obligations.BookingWord : Prop :=
  ∀ (s : State) (n : ThreadId) (d a b : XReg), s.cur = .thread n →
    let i := Instr.bkarm d a b
    let num := (rx s a).toNat % 2 ^ 17
    let w := localRecord s (rx s b).toNat 18
    let p := partOfThread s n
    let guest := if (thrOf s n).level = 0 then vfOfThread s n else none
    let barred : Bool := match guest with
      | none => true
      | some v => !bookOfVf (vfOf s v) num || (bkArm w && bkLvl w)
    if (thrOf s n).level = 0 ∧ barred = true then
      exec i s = raise s causePrivilege (insnWord i)
    else if bookNumberOk s p num = false then exec i s = .next (gave s d 1)
    else if n.val < s.bookPos ∨ armHeld s p num w = true then exec i s = .next s
    else if bkArm w = false then exec i s = .next (gave (disarmBooking { s with bookPos := n.val } p num) d 2)
    else if bkAccepted s p guest num w then exec i s = .next (gave (armBooking { s with bookPos := n.val } p num w) d 0)
    else exec i s = .next (gave s d 1)

/-- R98, R347: TLBI.VA and TLBI.ASID of an ASID that the thread may name, and TLBI.ALL above Guest level, begin and hold
the thread until they complete; else they raise PRIVILEGE. -/
def Sys2Proof.Machine.Claims.InvalidationWords : Prop :=
  ∀ (s : State) (n : ThreadId) (a b : XReg), s.cur = .thread n →
    let asid := (rx s b).toNat % 256
    let begun := fun kind (va : Word) asid =>
      Host.Outcome.next (modThr s n fun h => { nextT h with wait := .tlbi kind va asid })
    exec (.tlbiVa a b) s =
      (if mayNameAsid s n asid then begun 0 (rx s a) asid else raise s causePrivilege (insnWord (.tlbiVa a b))) ∧
    exec (.tlbiAsid b) s =
      (if mayNameAsid s n asid then begun 1 0 asid else raise s causePrivilege (insnWord (.tlbiAsid b))) ∧
    exec .tlbiAll s =
      (if (thrOf s n).level ≠ 0 ∧ (partOfThread s n).isSome then begun 2 0 0
       else raise s causePrivilege (insnWord .tlbiAll))

/-- R348, R349: SEGHOLD and SEGREL name a VF of the thread's partition from Steward level or above, else PRIVILEGE. SEGHOLD
holds the VF's segment and the thread; SEGREL gives it a new base inside the carve-out, or raises SEGMENT_BOUND. -/
def Sys2Proof.Machine.Claims.SegmentMoves : Prop :=
  ∀ (s : State) (n : ThreadId) (a : XReg), s.cur = .thread n →
    let v : VfId := Fin.ofNat 128 ((rx s a).toNat % 128)
    let f := vfOf s v
    let q := partOf s f.part
    let base := bfld (rx s a) 47 21 * 2 ^ 21
    if (thrOf s n).level = 0 ∨ partOfThread s n = none ∨ partOfVf s v ≠ partOfThread s n then
      exec (.seghold a) s = raise s causePrivilege (insnWord (.seghold a)) ∧
      exec (.segrel a) s = raise s causePrivilege (insnWord (.segrel a))
    else
      exec (.seghold a) s =
        (if (f.state = 1 ∨ f.state = 2 ∨ f.state = 3) ∧ f.segHeld = false then
          .next (modVf (modThr s n fun h => { nextT h with wait := .seghold v }) v fun f => { f with segHeld := true })
         else .next (modThr s n nextT)) ∧
      exec (.segrel a) s =
        (if f.segHeld = false then .next (modThr s n nextT)
         else if q.carveBase ≤ base ∧ base + f.segSize ≤ q.carveBase + q.carveSize then
           .next (modThr (setVf s v { f with segBase := base, segHeld := false }) n nextT)
         else raise s causeSegment (word base))

/-- R98, R347: TLBI.VA and TLBI.ASID of an ASID that the thread may name, and TLBI.ALL above Guest level, begin and hold
the thread until they complete; else they raise PRIVILEGE.
R348, R349: SEGHOLD and SEGREL name a VF of the thread's partition from Steward level or above, else PRIVILEGE. SEGHOLD
holds the VF's segment and the thread; SEGREL gives it a new base inside the carve-out, or raises SEGMENT_BOUND. -/
def Obligations.TranslationWords : Prop := Claims.InvalidationWords ∧ Claims.SegmentMoves

/-- R163, R167, R170, R173, R174: a V word of a wrong form, or that reads a dead bypass slot, raises ILLEGAL_INSTR; one whose
queue has a format that does not serve it raises QUEUE_FORMAT with the first such queue; one whose queues hold too little, or
at which an S pop stands before it, waits, holds its place there, and changes nothing else. For VPUSH and VACCW so far as the
queue they push to and the block they write pass (VectorStores says what happens else). That the illegal form comes first, and
the line that the waiting pops of both streams form, are readings (log 28, 67). -/
def Obligations.VectorIssue : Prop :=
  ∀ (i : Instr) (s : State) (t : TileId) (k : Task) (w : Option Nat) (cs : List VOpnd), StreamTurn s t .V k →
    operandRule i = some (w, cs) →
    let T := tileOf s t
    let serves := fun (q : Fin 4) =>
      let f := (queueOf T q).fmt
      qPopOk f = true ∧ (match w with
        | some w => snkBits f = w
        | none => snkBits f = 8 ∨ snkBits f = 16 ∨ snkBits f = 32)
    (wellFormed i = false ∨ (∃ c ∈ cs, deadBypass T c = true) → exec i s = raise s causeIllegal (insnWord i)) ∧
    (wellFormed i = true → (∀ c ∈ cs, deadBypass T c = false) →
      (∀ a q, i = .vpush a q → qPopOk (queueOf T q).fmt = true) →
      (∀ a c g, i = .vaccw a c g → k.acc.getLsbD c.val = true) →
      (∀ (j : Nat) (q : Fin 4), (cs.filterMap queueCode)[j]? = some q → ¬serves q →
        (∀ (l : Nat) (r : Fin 4), l < j → (cs.filterMap queueCode)[l]? = some r → serves r) →
        exec i s = raise s causeQueueFormat (word q.val)) ∧
      ((∀ q ∈ cs.filterMap queueCode, serves q) → ¬Fed T (cs.filterMap queueCode) →
        ∃ U, exec i s = .next (setTile s t U) ∧ VWaits T (acOf s t) (cs.filterMap queueCode) U))

/-- R31, R32, R42, R175 to R188, R200, R201: the words that compute elements read their operands, give each result element
what its row of the rules says, one draw for each result element where the mode is SR, raise the flags of all of them in
the V stream's FPSR, and put the result into the bypass window and, without NW, into vd. The transcendental words rest on
the free value of log 8 where an argument's enclosure does not settle the rounding; that the pops' draws come before the
results' is the model's choice (log 28). -/
def Sys2Proof.Machine.Claims.VectorElements : Prop :=
  ∀ (i : Instr) (s : State) (t : TileId) (k : Task) (r : ResultRule), StreamTurn s t .V k → resultRule i = some r →
    vReady (tileOf s t) i (some r.srcWidth) r.cs →
    let U := (vRead (tileOf s t) r.cs).1
    let a := (vRead (tileOf s t) r.cs).2.getD 0 zeroImage
    let b := (vRead (tileOf s t) r.cs).2.getD 1 zeroImage
    let mode := match r.rm with
      | none => 0
      | some (m, y) => if y then U.vs.fpcr.toNat % 8 else m.val
    let n := 32768 / r.width
    let g := drawsFor U.vs.gen mode n
    let out := fun j => r.f U a b mode (g.1.getD j 0) j
    let fl := (List.range n).foldl (fun x j => x ||| (out j).2) 0
    ∃ v : Image, (∀ j, j < n → elemAt r.width v j = (out j).1 % 2 ^ r.width) ∧
      exec i s = .next (setTile s t (vNext
        (produce { U with vs := { U.vs with gen := g.2, fpsr := U.vs.fpsr ||| fl.setWidth 64 } } r.d r.nw v)))

/-- R188: the reductions. A floating-point SUM is the exact sum rounded once, with the first NaN quieted, opposite infinities
invalid, one infinity itself, and the sign of an exact zero; an integer SUM wraps; the minima and maxima fold from the first
element. -/
def Sys2Proof.Machine.Claims.Reductions : Prop :=
  (∀ (t o : Fin 8) (mode r : Nat) (xs : List Nat), t.val ≤ 4 → o.val = 0 →
    let ws := xs.map (widen t.val)
    let sum := reduce t o mode r xs
    let becomes := fun y => sum = rounded t.val mode false r y
    (∀ (i : Nat) (w : Num), ws[i]? = some w → w.isNan = true → (∀ (j : Nat) (y : Num), j < i → ws[j]? = some y → y.isNan = false) →
      becomes (w.quiet, flagIf (ws.any Num.isSnan) fInvalid)) ∧
    ((∀ w ∈ ws, w.isNan = false) →
      (Num.inf false ∈ ws → Num.inf true ∈ ws → becomes (.dnan, fInvalid)) ∧
      (∀ n, Num.inf n ∈ ws → Num.inf (!n) ∉ ws → becomes (.inf n, 0)) ∧
      ((∀ n, Num.inf n ∉ ws) → ∃ n m e, becomes (.exact n m e, 0) ∧ exactOf n m e = (ws.map valueOf).sum ∧
        (m = 0 → n = ((ws.all fun w => w.isZero && w.sign) || decide (mode = 2)))))) ∧
  (∀ (t o : Fin 8) (mode r : Nat) (xs : List Nat), 5 ≤ t.val → o.val = 0 → (∀ x ∈ xs, x < 2 ^ typeWidth t) →
    reduce t o mode r xs = (((xs.map (signedElem (typeWidth t))).sum % 2 ^ typeWidth t).toNat, 0)) ∧
  (∀ (t o : Fin 8) (mode r x : Nat) (xs : List Nat), 1 ≤ o.val → o.val ≤ 4 → xs ≠ [] → (∀ y ∈ x :: xs, y < 2 ^ typeWidth t) →
    let m := minMaxRule t (decide (o.val = 2 ∨ o.val = 4)) (decide (3 ≤ o.val)) (reduce t o mode r xs).1 x
    reduce t o mode r [x] = (x, 0) ∧
    reduce t o mode r (xs ++ [x]) = (m.1, (reduce t o mode r xs).2 ||| m.2))

/-- R183, R184: the transcendental words. A NaN is quieted; a special operand gives the value of the table, rounded into the
format; an integer power of 2 and the logarithm of a power of 2 are exact; a reciprocal square root is exact or lies strictly
between two neighbours of 63 bits or more. -/
def Sys2Proof.Machine.Claims.Transcendentals : Prop :=
  ∀ (c : Fin 5) (mode r a : Nat) (sat : Bool),
    let x := widen c.val a
    let gives := fun (g : Fun) (y : Num × Flags) => fFun g c.val mode sat r a = rounded c.val mode sat r y
    (∀ g, x.isNan = true → gives g (x.quiet, flagIf x.isSnan fInvalid)) ∧
    (∀ g y, specialRule g x = some y → gives g y) ∧
    (∀ (n : Bool) (m : Nat) (e k : Int), x = .exact n m e → exactOf n m e = k → k.natAbs < 2 ^ 16 → gives .exp2 (.exact false 1 k, 0)) ∧
    (∀ (m : Nat) (e k : Int), x = .exact false m e → scaled m e = (2 : Rat) ^ k →
      gives .log2 (.exact (decide (k < 0)) k.natAbs 0, 0)) ∧
    (∀ (m : Nat) (e : Int), x = .exact false m e → m ≠ 0 → ∃ k g t, gives .rsq (.fin false k g t, 0) ∧ 2 ^ 63 ≤ k ∧
      (t = false → scaled k g * scaled k g * scaled m e = 1) ∧
      (t = true → scaled k g * scaled k g * scaled m e < 1 ∧ 1 < scaled (k + 1) g * scaled (k + 1) g * scaled m e))

/-- R31, R32, R42, R175 to R188, R200, R201: the words that compute elements read their operands, give each result element
what its row of the rules says, one draw for each result element where the mode is SR, raise the flags of all of them in
the V stream's FPSR, and put the result into the bypass window and, without NW, into vd. The transcendental words rest on
the free value of log 8 where an argument's enclosure does not settle the rounding; that the pops' draws come before the
results' is the model's choice (log 28).
R188: the reductions. A floating-point SUM is the exact sum rounded once, with the first NaN quieted, opposite infinities
invalid, one infinity itself, and the sign of an exact zero; an integer SUM wraps; the minima and maxima fold from the first
element.
R183, R184: the transcendental words. A NaN is quieted; a special operand gives the value of the table, rounded into the
format; an integer power of 2 and the logarithm of a power of 2 are exact; a reciprocal square root is exact or lies strictly
between two neighbours of 63 bits or more. -/
def Obligations.VectorResults : Prop := Claims.VectorElements ∧ Claims.Reductions ∧ Claims.Transcendentals

/-- R185, R186, R189, R192 to R194, R196 to R198: the words that move lanes give each lane of the result what their rule
says, put the result into the bypass window and, without NW, into vd, and change nothing else. VACCR of a block that the
task does not hold raises PRIVILEGE. -/
def Obligations.VectorMoves : Prop :=
  ∀ (i : Instr) (s : State) (t : TileId) (k : Task) (cs : List VOpnd) (d : VReg) (nw : Bool)
    (f : Tile → Image → Image → Nat → Nat → Lane), StreamTurn s t .V k → laneRule i = some (cs, d, nw, f) →
    (∀ e c g, i = .vaccr e c g → k.acc.getLsbD c.val = false → exec i s = raise s causePrivilege (insnWord i)) ∧
    (vReady (tileOf s t) i none cs → (∀ e c g, i = .vaccr e c g → k.acc.getLsbD c.val = true) →
      let U := (vRead (tileOf s t) cs).1
      let a := (vRead (tileOf s t) cs).2.getD 0 zeroImage
      let b := (vRead (tileOf s t) cs).2.getD 1 zeroImage
      ∃ v : Image, (∀ row col, row < 16 → col < 64 → laneOf v row col = f U a b row col) ∧
        exec i s = .next (setTile s t (vNext (produce U d nw v))))

/-- R193, R194, R197, R198: VSTS and VSTX write their bytes, and no others, to the window, VSTX lane by lane in ascending
order; VPUSH appends its operand's elements to the outbound side, waits while that has no room for them, and raises
QUEUE_FORMAT for a format that serves no push; VACCW replaces one segment of a block the task holds, else PRIVILEGE. None
of them touches a register or the bypass window. The order of the checks of one word is the model's reading (log 28, 67). -/
def Obligations.VectorStores : Prop :=
  ∀ (s : State) (t : TileId) (k : Task) (a b : VOpnd) (kr : Fin 8), StreamTurn s t .V k →
    let T := tileOf s t
    let wrote := fun (i : Instr) (cs : List VOpnd) (at_ : Tile → Nat → Nat) =>
      vReady T i none cs →
      let U := (vRead T cs).1
      let v := (vRead T cs).2.getD 0 zeroImage
      ∃ m, exec i s = .next (setTile s t (vNext { U with spad := m })) ∧
        ∀ p, mget m p = match (List.range 4096).reverse.find? fun j => decide (winAddr T (at_ U j) = p) with
          | some j => imageByte v j
          | none => mget T.spad p
    wrote (.vsts a kr) [a] (fun _ j => (vget T.k kr).toNat / 4 * 4 + j) ∧
    wrote (.vstx a b kr) [a, b] (fun _ j =>
      let y := (vRead T [a, b]).2.getD 1 zeroImage
      (vget T.k kr).toNat / 4 * 4 + 4 * (vget y (Fin.ofNat 1024 (j / 4))).toNat + j % 4) ∧
    (∀ q : Fin 4,
      let f := (queueOf T q).fmt
      (wellFormed (.vpush a q) = true → deadBypass T a = false → qPopOk f = false →
        exec (.vpush a q) s = raise s causeQueueFormat (word q.val)) ∧
      (qPopOk f = true → vReady T (.vpush a q) none [a] →
        let v := (vRead T [a]).2.getD 0 zeroImage
        let w := fmtBits (f.toNat / 16 % 16)
        if (queueOf T q).outb.length * w + 32768 ≤ 65536 then
          exec (.vpush a q) s = .next (setTile s t (vNext (modQueue (vRead T [a]).1 q fun Q =>
            { Q with outb := Q.outb ++ (List.range (32768 / w)).map fun j => BitVec.ofNat 32 (elemAt w v j) })))
        else ∃ U, exec (.vpush a q) s = .next (setTile s t U) ∧ VWaits T (acOf s t) ([a].filterMap queueCode) U)) ∧
    (∀ (c : Fin 16) (g : Fin 8),
      (wellFormed (.vaccw a c g) = true → deadBypass T a = false → k.acc.getLsbD c.val = false →
        exec (.vaccw a c g) s = raise s causePrivilege (insnWord (.vaccw a c g))) ∧
      (k.acc.getLsbD c.val = true → vReady T (.vaccw a c g) none [a] →
        let v := (vRead T [a]).2.getD 0 zeroImage
        ∃ x : AccBlock, (∀ (i j : Nat), i < 64 → j < 128 → vget x (Fin.ofNat 8192 (i * 128 + j)) =
            if i / 8 = g.val then laneOf v (2 * (i % 8) + j / 64) (j % 64)
            else vget (vget T.acc c) (Fin.ofNat 8192 (i * 128 + j))) ∧
          exec (.vaccw a c g) s =
            .next (setTile s t (vNext { (vRead T [a]).1 with acc := vset T.acc c x }))))

/-- R167, R190, R191: VSELK writes, for each column, the group rows of the `k` highest elements in rank order to vd, and the
mask of the selected rows to vd + 1; a signalling NaN in the group raises INVALID. One that names no such registers, a queue
or a bypass slot included, raises ILLEGAL_INSTR. -/
def Obligations.VectorSelect : Prop :=
  ∀ (s : State) (t : TileId) (k : Task) (d : VReg) (a : VOpnd) (g ty : Fin 8) (n : Fin 16), StreamTurn s t .V k →
    (16 ≤ a.val ∨ wellFormed (.vselk d a g ty n) = false →
      exec (.vselk d a g ty n) s = raise s causeIllegal (insnWord (.vselk d a g ty n))) ∧
    (wellFormed (.vselk d a g ty n) = true →
    let T := tileOf s t
    let rows := 16 * (g.val + 1)
    let at_ := fun col h => (laneOf (vget T.v (Fin.ofNat 16 (a.val + h / 16))) (h % 16) col).toNat
    let key := fun col h => rankKey ty (at_ col h)
    let snan : Bool := decide (ty.val = 0) && (List.range 64).any fun col => (List.range rows).any fun h =>
      (widen 0 (at_ col h)).isSnan
    ∃ idx mask : Image,
      (∀ col row, col < 64 → row < 16 →
        if row ≤ n.val then ∃ h, h < rows ∧ rowsAbove (key col) rows h = row ∧ laneOf idx row col = BitVec.ofNat 32 h
        else laneOf idx row col = 0xFFFFFFFF) ∧
      (∀ col row bit, col < 64 → row < 16 → bit < 32 → (laneOf mask row col).getLsbD bit =
        decide (row < 4 ∧ 32 * row + bit < rows ∧ rowsAbove (key col) rows (32 * row + bit) ≤ n.val)) ∧
      exec (.vselk d a g ty n) s = .next (setTile s t (vNext
        { T with v := vset (vset T.v d idx) (Fin.ofNat 16 (d.val + 1)) mask, bypass := (idx :: T.bypass).take 3
                 vs := { T.vs with fpsr := if snan then T.vs.fpsr ||| 1 else T.vs.fpsr } })))

/-- R202 to R204: KLI and KADD write a k register; KBR goes to its target where its test holds, and leaves every loop whose
body does not hold the target together with the loops inside it; a body's last word goes back to its first as long as the
count says so; VLOOP opens a loop, or jumps over its body where the count is not above 0, and raises ILLEGAL_INSTR for a
third loop or one that reaches beyond the loop around it; a KBR to itself ends the stream. -/
def Obligations.VectorControl : Prop :=
  (∀ (s : State) (t : TileId) (k : Task) (r b : Fin 8) (i : BitVec 21) (j : BitVec 16), StreamTurn s t .V k →
    exec (.kli r i) s = .next (modTile s t fun T => vNext { T with k := vset T.k r (BitVec.ofInt 32 i.toInt) }) ∧
    exec (.kadd r b j) s =
      .next (modTile s t fun T => vNext { T with k := vset T.k r (BitVec.ofInt 32 ((vget T.k b).toInt + j.toInt)) })) ∧
  (∀ (T : Tile), (∀ l ∈ T.vloops, l.last ≠ T.vs.pc) → vNext T = { T with vs := { T.vs with pc := T.vs.pc + 4 } }) ∧
  (∀ (T : Tile) (l : VLoop) (ls : List VLoop), T.vloops = l :: ls → l.last = T.vs.pc →
    (1 < l.count.toNat →
      vNext T = { T with vloops := { l with count := l.count - 1 } :: ls, vs := { T.vs with pc := l.first } }) ∧
    (l.count.toNat ≤ 1 → vNext T = vNext { T with vloops := ls })) ∧
  (∀ (s : State) (t : TileId) (k : Task) (c : Fin 16) (b : Fin 8) (o : BitVec 16), StreamTurn s t .V k →
    c.val ≤ 3 → o ≠ 0 →
    let T := tileOf s t
    let v := (vget T.k b).toInt
    let dest := T.vs.pc + BitVec.ofInt 64 (4 * o.toInt)
    let holds : Bool := match c.val with
      | 0 => decide (v ≠ 0)
      | 1 => decide (v = 0)
      | 2 => decide (v < 0)
      | _ => decide (0 ≤ v)
    if holds = true then ∃ n, exec (.kbr c b o) s =
        .next (setTile s t { T with vloops := T.vloops.drop n, vs := { T.vs with pc := dest } }) ∧
      (∀ l ∈ T.vloops.drop n, inBody dest l) ∧ ∀ l, (T.vloops.take n).getLast? = some l → ¬inBody dest l
    else exec (.kbr c b o) s = .next (setTile s t (vNext T))) ∧
  (∀ (s : State) (t : TileId) (k : Task) (c : Fin 16) (b : Fin 8), StreamTurn s t .V k → c.val ≤ 3 →
    exec (.vEnd c b) s = .next (modTile s t fun T => { T with vs := { T.vs with run := .ending } })) ∧
  (∀ (s : State) (t : TileId) (k : Task) (b : Fin 8) (n : Fin 4096), StreamTurn s t .V k →
    let T := tileOf s t
    let last := T.vs.pc + BitVec.ofNat 64 (4 * (n.val + 1))
    let count := vget T.k b
    if 2 ≤ T.vloops.length ∨ (T.vloops.head?.any fun l => decide (l.last.toNat < last.toNat)) = true then
      exec (.vloop b n) s = raise s causeIllegal (insnWord (.vloop b n))
    else if count.toInt ≤ 0 then exec (.vloop b n) s = .next (setTile s t { T with vs := { T.vs with pc := last + 4 } })
    else exec (.vloop b n) s = .next (setTile s t
      { T with vloops := { first := T.vs.pc + 4, last := last, count := count } :: T.vloops
               vs := { T.vs with pc := T.vs.pc + 4 } }))

/-- R74, R229, R335, R337: the words of the M and A streams that issue no command. A stack word replaces the entries it
needs; too few, or a ninth entry, raise STACK and change nothing. DO sets a loop counter, LOOP counts it down and goes back
while it is above 0, BR and BZ branch by 2-byte words, PEGW, WAITC and FENCE wait or complete, FENCE with an acquire at its scope, and END
ends the stream. -/
def Obligations.EngineWords : Prop :=
  ∀ (s : State) (t : TileId) (st : Stream) (k : Task), StreamTurn s t st k → st = .M ∨ st = .A →
    let c := strm (tileOf s t) st
    let cmds := if st = .M then (tileOf s t).cmdsM else (tileOf s t).cmdsA
    let back := fun (d : Int) => c.pc + BitVec.ofInt 64 (2 * d)
    (∀ i n f, stackRule i = some (n, f) →
      if c.stack.length < n ∨ 8 < (f c.stack).length then exec i s = raise s causeStack (insnWord i)
      else exec i s = .next (onlyStream s t st fun c => { c with stack := f c.stack, pc := c.pc + 2 })) ∧
    (∀ l, match c.stack with
      | [] => exec (.engineDo l) s = raise s causeStack (insnWord (.engineDo l))
      | a :: ws => exec (.engineDo l) s = .next (onlyStream s t st fun c =>
          { c with stack := ws, l0 := if l then c.l0 else a, l1 := if l then a else c.l1, pc := c.pc + 2 })) ∧
    (∀ (l : Bool) (d : Fin 128), d ≠ 0 →
      let n := (if l then c.l1 else c.l0) - 1
      exec (.engineLoop l d) s = .next (onlyStream s t st fun c =>
        { c with l0 := if l then c.l0 else n, l1 := if l then n else c.l1
                 pc := if 0 < n.toInt then back (-d.val) else c.pc + 2 })) ∧
    (∀ o, exec (.engineBr o) s = .next (onlyStream s t st fun c => { c with pc := back o.toInt })) ∧
    (∀ o, match c.stack with
      | [] => exec (.engineBz o) s = raise s causeStack (insnWord (.engineBz o))
      | a :: ws => exec (.engineBz o) s = .next (onlyStream s t st fun c =>
          { c with stack := ws, pc := if a = 0 then back o.toInt else c.pc + 2 })) ∧
    (∀ p, match c.stack with
      | [] => exec (.enginePegw p) s = raise s causeStack (insnWord (.enginePegw p))
      | a :: ws => exec (.enginePegw p) s =
          if a.toNat ≤ (vget (tileOf s t).pegs p).toNat then
            .next (onlyStream s t st fun c => { c with stack := ws, pc := c.pc + 2 })
          else .next s) ∧
    (∀ (x : Fin 4) (n : Fin 16), exec (.engineWaitc x n) s =
      if (cmds.countP fun e => decide (cmdClass e.kind = x.val)) ≤ n.val then
        .next (onlyStream s t st fun c => { c with pc := c.pc + 2 })
      else .next s) ∧
    (∀ sc, exec (.engineFence sc) s =
      if cmds = [] then .next (onlyStream (acquire s t sc) t st fun c => { c with pc := c.pc + 2 }) else .next s) ∧
    exec .engineEnd s = .next (onlyStream s t st fun c => { c with run := .ending, pc := c.pc + 2 })

/-- R75, R207, R219, R226 to R229, R232, R245, R250 to R262, R337: a launch word of the other engine raises ILLEGAL_INSTR;
with its queue full (4 commands on M, 16 on A) it waits until the command that was the oldest completes; with too few entries
it raises STACK; a failed check raises its cause and pops nothing; else its entries are popped and its command joins the
queue. The order of a word's checks and two values of TVAL are readings (log 15, 26, 27). -/
def Obligations.CommandLaunches : Prop :=
  ∀ (i : Instr) (s : State) (t : TileId) (st : Stream) (k : Task) (eng : Option Stream) (n : Nat) (q r : Bool)
    (sc : Fin 4) (x : Checked), StreamTurn s t st k → st = .M ∨ st = .A → wellFormed i = true →
    let T := tileOf s t
    let ws := (strm T st).stack
    launchRule s T k ws i = some (eng, n, q, r, sc, x) →
    let cmds := if st = .M then T.cmdsM else T.cmdsA
    if (∃ e ∈ eng, e ≠ st) then exec i s = raise s causeIllegal (insnWord i)
    else match stallRule (strm T st) (if st = .M then 4 else 16) cmds with
    | some id => exec i s = .next (onlyStream s t st fun c => { c with stall := some id })
    | none =>
      let s1 := onlyStream s t st fun c => { c with stall := none }
      if ws.length < n then exec i s = raise s1 causeStack (insnWord i)
      else match x with
      | .error (c, v) => exec i s = raise s1 c v
      | .ok (kind, spec, clamped) =>
        let c : Cmd := { id := s.seq, kind := kind, acq := q, rel := r, scope := sc, cspec := spec
                         pc := (strm T st).pc, order := s.seq, issued := acOf s t }
        let u := modTile s t fun T => withCmds (modStrm T st fun c =>
          { c with stack := ws.drop n, pc := c.pc + 2, stall := none, fpsr := if clamped then c.fpsr ||| 32 else c.fpsr })
          (decide (st = .M)) (· ++ [c])
        exec i s = .next { u with seq := s.seq + 1 }

/-- R33 to R36, R54, R55, R220 to R222, R226 to R229, R235, R337: what the commands that walk no window do when they
complete, first in their queue, without REL and without a counter: ACCZ clears the blocks it names, SCALESET sets its
superscale, PEGP posts, CTRADD.LOCAL adds, ACCDRAIN does nothing, MMA applies its group steps in order; then the command is
gone. PREF does nothing but add to the TLB leaves of pages of its range, and where the TLB has room for them all, each page that
is present is found there (R262). Elements that an ACCZ has already set are not set again. -/
def Sys2Proof.Machine.Claims.CommandsComplete : Prop :=
  (∀ (s : State) (t : TileId) (k : Task) (onM : Bool) (c : Cmd) (cs : List Cmd),
    let T := tileOf s t
    T.task = some k → T.debug = .none → (if onM then T.cmdsM else T.cmdsA) = c :: cs → (∀ d ∈ cs, d.id ≠ c.id) →
    c.landed = false → c.rel = false → c.cspec = 0 → c.iter = 0 → c.pos = 0 → c.pend = [] →
    let T' := withCmds T onM fun _ => cs
    let becomes := fun (U : Tile) => exec (.commandCompletion t onM c.id) s = .next (setTile (begun s t c) t U)
    (∀ m, c.kind = .accz m → ∃ a : Vector AccBlock 16, becomes { T' with acc := a } ∧
      ∀ (b : Fin 16) (e : Fin 8192), vget (vget a b) e =
        if m.getLsbD b.val = true ∧ tget 0 c.ahead (8192 * b.val + e.val) = 0 then 0 else vget (vget T.acc b) e) ∧
    (∀ a n, c.kind = .pref a n →
      let u := begun s t c
      let pages := min 1024 (if n = 0 then 0 else (a.toNat + n.toNat - 1) / 2 ^ 16 - a.toNat / 2 ^ 16 + 1)
      let page := fun (j : Nat) => if j = 0 then a.toNat else (a.toNat / 2 ^ 16 + j) * 2 ^ 16
      let leaf := fun (va : Nat) e => walk u (some (dieOf t)) k.vf k.asid va = .leaf e
      ∃ l, becomes { T' with tlb := l } ∧ (∀ e ∈ l, e ∈ T.tlb ∨ ∃ j, j < pages ∧ leaf (page j) e) ∧
        (T.tlb.length + pages ≤ 1024 → (∀ e ∈ T.tlb, e ∈ l) ∧
          ∀ j e, j < pages → page j < 2 ^ 56 → expertAt u k.vf (page j) = none → leaf (page j) e →
            (tlbFind l k.asid (page j)).isSome = true)) ∧
    (∀ m, c.kind = .accdrain m → becomes T') ∧
    (∀ b v, c.kind = .scaleset b v → becomes { T' with ssa := if b then T.ssa else v, ssb := if b then v else T.ssb }) ∧
    (∀ p, c.kind = .pegp p → becomes { T' with pegs := vset T.pegs p (vget T.pegs p + 1) }) ∧
    (∀ loc v, c.kind = .ctradd false loc v →
      let o := loc.toNat / 8 * 8
      ∃ m ds, becomes { withCmds T onM fun _ => ds with spad := m } ∧ viewsAside ds = viewsAside cs ∧ ∀ p, mget m p =
        afterStore (fun j => winAddr T (o + j)) 8 (windowWord T o + v).toNat (mget T.spad) p) ∧
    (∀ a b blk red, c.kind = .mma a b blk red → c.ahead = [] →
      let m := c.view.getD T.spad
      let w := (groupWidth a.fmt b.fmt).getD 16
      becomes ((List.range ((a.lcols + w - 1) / w)).foldl (fun U g => groupStep U { U with spad := m } a b [] blk g) T')))

/-- R33 to R36, R54, R55, R216, R217, R220 to R222: a group step gives each element within the shapes that has not taken it its sum,
leaves every other element and block, and raises its flags in the M stream's FPSR. For INT8 the sum is exact modulo 2^32. For the
floating-point pairs it is the exact sum of the accumulator and the products of the group, rounded once to FP32 in RNE, with
R55's special values before it. -/
def Sys2Proof.Machine.Claims.GroupSteps : Prop :=
  (∀ (T R : Tile) (a b : Shape) (ahead : Table Nat) (blk : Fin 16) (g : Nat),
    let U := groupStep T R a b ahead blk g
    let takes := fun i j : Nat => i < a.lrows ∧ j < b.lcols ∧ tget 0 ahead (i * 128 + j) = 0
    let new := fun i j => stepAt R a b g i j (vget (vget T.acc blk) (Fin.ofNat 8192 (i * 128 + j))).toNat
    (∀ i j : Nat, i < 64 → j < 128 → vget (vget U.acc blk) (Fin.ofNat 8192 (i * 128 + j)) =
      if takes i j then BitVec.ofNat 32 (new i j).1 else vget (vget T.acc blk) (Fin.ofNat 8192 (i * 128 + j))) ∧
    (∀ d : Fin 16, d ≠ blk → vget U.acc d = vget T.acc d) ∧
    { U with acc := T.acc, m := T.m } = T ∧ { U.m with fpsr := T.m.fpsr } = T.m ∧
    (∀ n, U.m.fpsr.getLsbD n = (T.m.fpsr.getLsbD n ||
      (List.range 64).any fun i => (List.range 128).any fun j =>
        decide (takes i j) && ((new i j).2.setWidth 64).getLsbD n))) ∧
  (∀ (T : Tile) (a b : Shape) (g i j acc : Nat), a.fmt = 6 → b.fmt = 6 →
    let at_ := fun (s : Shape) r c => (BitVec.ofNat 8 ((encodedAt T s r c).getD 0)).toInt
    let ks := (List.range 32).filter fun k => decide (g * 32 + k < a.lcols)
    stepAt T a b g i j acc =
      ((((BitVec.ofNat 32 acc).toInt + (ks.map fun k => at_ a i (g * 32 + k) * at_ b (g * 32 + k) j).sum) % 2 ^ 32).toNat, 0)) ∧
  (∀ (T : Tile) (a b : Shape) (g i j acc w : Nat), a.fmt ≠ 6 → groupWidth a.fmt b.fmt = some w →
    let ks := ((List.range w).map (g * w + ·)).filter fun k => decide (k < a.lcols)
    let nb := (a.lcols + 2 ^ a.blockLog2 - 1) / 2 ^ a.blockLog2
    let x := fun k => operandAt T a T.ssa (encodedAt T a i k) (i * nb + k / 2 ^ a.blockLog2)
    let y := fun k => operandAt T b T.ssb (encodedAt T b k j) (k / 2 ^ b.blockLog2 * b.lcols + j)
    let p := fun k => num2 mulNum (x k).1 (y k).1
    let terms := widen 0 acc :: ks.map fun k => (p k).1
    let invalid := (widen 0 acc).isSnan = true ∨ (∃ k ∈ ks, (x k).2 = true ∨ (y k).2 = true ∨ (p k).2 ≠ 0) ∨
      (Num.inf false ∈ terms ∧ Num.inf true ∈ terms)
    let sum := (terms.map valueOf).sum
    let r := stepAt T a b g i j acc
    (invalid → r = (0x7FC00000, fInvalid)) ∧
    (¬invalid → (∃ v ∈ terms, v.isNan = true) → r = (0x7FC00000, 0)) ∧
    (¬invalid → (∀ v ∈ terms, v.isNan = false) →
      (∀ n, Num.inf n ∈ terms → r = (if n then 0xFF800000 else 0x7F800000, 0)) ∧
      ((∀ n, Num.inf n ∉ terms) →
        (sum = 0 → r = (if ∀ v ∈ terms, v.sign = true then 0x80000000 else 0, 0)) ∧
        (sum ≠ 0 → ∃ n m e, exactOf n m e = sum ∧ r = encodeF (floatFmt 0) 0 false 0 (.exact n m e)))))

/-- R34, R238, R240 to R242, R244, R256: a window position, counted by its landing index, has the tensor index that origins or
the index list give it. In bounds it is the element at the address of that index; out of bounds a store has no place and a load
takes what FILL says. It lands at its own bytes of the window. -/
def Sys2Proof.Machine.Claims.WindowPlaces : Prop :=
  ∀ (T : Tile) (f : Frame) (idx : Option Nat) (ws : List Nat), FrameShape f → ws.length = f.rank →
    (∀ i, i < f.rank → ws.getD i 0 < f.extents.getD i 0) → (idx.isSome = true → 2 ≤ f.rank) →
    let p := landingIndex f ws
    let a := addrAt f (tensorAt T f idx ws)
    p < windowCount f ∧ positionOf f p = ws ∧
    (InBounds T f idx ws → placeOf T f idx p = some a ∧ sourceOf T f idx p = .mem a.1 a.2) ∧
    (¬InBounds T f idx ws → placeOf T f idx p = none ∧
      (f.fill = 0 → sourceOf T f idx p = .bits 0) ∧
      (f.fill = 1 → sourceOf T f idx p = .bits (f.fillbits % 2 ^ fmtBits f.fmt)) ∧
      (f.fill = 2 →
        let vs := match f.dyn with
          | some n => ws.set (countedDim f) (min (ws.getD (countedDim f) 0) (n - 1))
          | none => ws
        let e := addrAt f fun i => max 0 (min (tensorAt T f idx vs i) ((f.sizes.getD i 0 : Int) - 1))
        sourceOf T f idx p = if f.dyn = some 0 ∨ ∃ i, i < f.rank ∧ f.sizes.getD i 0 = 0 then .bits 0 else .mem e.1 e.2)) ∧
    landingPlaces T f p = (List.range (bytesOf f)).map (landsAt T f p)

/-- R251, R253, R256 to R258: what one element of a command moves, where its bytes translate without a walk and no older value and
no mark of a publish stands. COPYIN, GATH and NEST to the scratchpad put the bits of memory, or the fill, in their own bytes of the window
and no others, once what they have read lands; COPYOUT, SCAT and NEST from it buffer the bits of those bytes at the element's
address and nowhere else; QSTREAM appends the bits and, for NQ4, the code byte to its queue, or waits for room; QDRAIN takes the
first element, converts it, raises its flags and stores it, or waits. -/
def Sys2Proof.Machine.Claims.ElementMoves : Prop :=
  (∀ (s : State) (t : TileId) (k : Task) (c : Cmd) (w : CopyWalk), let T := tileOf s t
    T.task = some k → IsCmd T c → walkOf c.kind c.iter = some w → s.olds = [] → s.marks = [] →
    let R := viewTile T c
    let z := bytesOf w.f
    (w.out = false → usesWindow c.kind = true → c.reads = [] → (c.pend.map StoreByte.off).Nodup →
      let puts := fun n => ∃ rs ps, moveElem s t k c w =
          (modTile s t fun T => modCmd T false c.id fun d => { d with reads := rs, pend := ps }, .ok ()) ∧
        ∀ m q, mget (layBytes m ps) q =
          afterElem w.f (decide (c.pos % 2 = 1)) (landsAt T w.f c.pos) n (mget (layBytes m c.pend)) q
      (∀ n, sourceOf R w.f w.idx c.pos = .bits n → puts n) ∧
      (∀ a hi ip pa, sourceOf R w.f w.idx c.pos = .mem a hi → Translates s t k c.id .read z a ip pa →
        (∀ i, i < z → badIn s (pa i) 1 = none) →
        puts (elemBits w.f hi fun i => ownByte s t (ip i) (physByte s (pa i))))) ∧
    (w.out = true → usesWindow c.kind = true → BufferClean T → T.stores.length + z ≤ 8192 →
      (placeOf R w.f w.idx c.pos = none → moveElem s t k c w = (s, .ok ())) ∧
      (∀ a hi ip pa, placeOf R w.f w.idx c.pos = some (a, hi) → Translates s t k c.id .write z a ip pa →
        let n := elemBits w.f (decide (c.pos % 2 = 1)) fun i => mget R.spad (landsAt T w.f c.pos i)
        ∃ gs, let u := setTile s t { T with stores := gs }
          moveElem s t k c w = (u, .ok ()) ∧
            ∀ x q, ownByte u t q x = afterElem w.f hi ip n (fun q => ownByte s t q x) q)) ∧
    (∀ f q scale, c.kind = .qstream f q scale → c.reads = [] →
      let Q := queueOf T q
      let pushes := fun n code => ∃ rs, moveElem s t k c w =
        (modTile s t fun T => modQueue (modCmd T false c.id fun d => { d with reads := rs }) q fun Q =>
          { Q with inb := Q.inb ++ [(BitVec.ofNat 32 n, code)] }, .ok ())
      if 65536 < (Q.inb.length + 1) * fmtBits (Q.fmt.toNat / 16 % 16) then moveElem s t k c w = (s, .wait)
      else
        let coded := fun n => (f.fmt ≠ 5 → pushes n 0) ∧
          ∀ jp ja, f.fmt = 5 → Translates s t k c.id .read 1 (scale.toNat + c.pos / 64) jp ja → badIn s (ja 0) 1 = none →
            pushes n (ownByte s t (jp 0) (physByte s (ja 0)))
        (∀ n, sourceOf T f none c.pos = .bits n → coded n) ∧
        (∀ a hi ip pa, sourceOf T f none c.pos = .mem a hi → Translates s t k c.id .read z a ip pa →
          (∀ i, i < z → badIn s (pa i) 1 = none) →
          coded (elemBits f hi fun i => ownByte s t (ip i) (physByte s (pa i))))) ∧
    (∀ f q, c.kind = .qdrain f q → BufferClean T → T.stores.length + z ≤ 8192 →
      let Q := queueOf T q
      match Q.outb with
      | [] => moveElem s t k c w = (s, .wait)
      | e :: es =>
        let m := Q.fmt.toNat / 2 ^ 8 % 8
        let g := drawsFor T.a.gen m 1
        let r := cvt (Q.fmt.toNat / 16 % 16) e.toNat (Q.fmt.toNat % 16) m (Q.fmt.getLsbD 11) (g.1.headD 0)
        let a' : StreamCtx := { T.a with gen := g.2, fpsr := T.a.fpsr ||| r.2.setWidth 64 }
        let took := fun gs => setTile s t (modQueue { T with stores := gs, a := a' } q fun Q => { Q with outb := es })
        (placeOf T f none c.pos = none → moveElem s t k c w = (took T.stores, .ok ())) ∧
        (∀ a hi ip pa, placeOf T f none c.pos = some (a, hi) → Translates s t k c.id .write z a ip pa →
          ∃ gs, moveElem s t k c w = (took gs, .ok ()) ∧
            ∀ x q, ownByte (took gs) t q x = afterElem f hi ip r.1 (fun q => ownByte s t q x) q))) ∧
  (∀ (T : Tile) (c : Cmd) (p : Nat → Bool) (q : Nat),
    mget (landWhere T c p).spad q = if p q then mget (layBytes T.spad c.pend) q else mget T.spad q) ∧
  (∀ (s : State) (t : TileId) (k : Task) (c : Cmd) (cs : List Cmd) (w : CopyWalk),
    (tileOf s t).cmdsA = c :: cs → IsCmd (tileOf s t) c → walkOf c.kind c.iter = some w → c.iter < iterations c.kind →
    c.pos < windowCount w.f → c.started = true → c.acq = false → c.members = none →
    (readsSpad c = true → c.view.isSome = true) → isProg c.kind = false → (c.pos = 0 → nestWaits (tileOf s t) c = false) →
    stepCmd s t k false c = match moveElem s t k c w with
      | (u, .ok _) => (modTile u t fun T => modCmd T false c.id fun d => { d with pos := d.pos + 1 }, .ok ())
      | r => r)

/-- R237, R262, R346, R348, R349, R358: what the translation of a tile's access does to the machine: it keeps a place at a held
segment's row, asks for an ABSENT expert, and gives the tile's TLB at most the leaf that a walk finds, the oldest entry making
room in a TLB of 1024 (log 11); nothing else. An element that a command moves adds nothing else to the TLB. -/
def Sys2Proof.Machine.Claims.AccessFrames : Prop :=
  (∀ (s : State) (who : Holder) (t : TileId) (k : Task) (va : Nat) (r : Right),
    let T := tileOf s t
    let u := (tileXlatFor s who t k va r).1
    ∃ l, { u with holds := s.holds, lodging := s.lodging } = setTile s t { T with tlb := l } ∧
      (l = T.tlb ∨ ∃ e, walk s (some (dieOf t)) k.vf k.asid va = .leaf e ∧
        l = (T.tlb ++ [e]).drop (T.tlb.length + 1 - 1024))) ∧
  (∀ (s : State) (t : TileId) (k : Task) (c : Cmd) (w : CopyWalk),
    ∀ e ∈ (tileOf (moveElem s t k c w).1 t).tlb, e ∈ (tileOf s t).tlb ∨
      ∃ va, walk s (some (dieOf t)) k.vf k.asid va = .leaf e)

/-- R259 to R261: MLR and MST, first in their queue, without REL and without a counter, where every member serves. MLR writes
the results of its elements, and nothing else, from SPOFF on and raises their flags in the A stream's FPSR; MST buffers its
bytes at each member, a later one over an earlier, and nothing else. Where a member is absent neither does anything; where ECC cannot
correct the group's entry the command raises ECC_UNCORRECTABLE at it (R428). That an
MST counts a whole store or none, and the time for which a member is asked, are readings (log 42, 53). -/
def Sys2Proof.Machine.Claims.GroupMoves : Prop :=
  ∀ (s : State) (t : TileId) (k : Task) (c : Cmd) (cs : List Cmd) (g roff d : Word), let T := tileOf s t
    T.task = some k → T.debug = .none → T.cmdsA = c :: cs → (∀ d ∈ cs, d.id ≠ c.id) → c.landed = false → c.rel = false →
    c.cspec = 0 → c.iter = 0 → c.members = none → c.pend = [] →
    let u := begun s t c
    let ms := membersOf s k.part (g.toNat % 256)
    let n := bfld d 47 32
    let o := bfld d 20 0
    let becomes := fun (U : Tile) => exec (.commandCompletion t false c.id) s = .next (setTile u t U)
    let answers := fun len => groupAnswers u ms roff.toNat len
    let serve := fun len => ∀ a ∈ answers len, a.2 = .serves
    let lacks := fun len => len ≠ 0 ∧ (∀ a ∈ answers len, a.2 = .serves ∨ a.2 = .absent) ∧ ∃ a ∈ answers len, a.2 = .absent
    (∀ b, (c.kind = .mst g roff d ∨ ∃ bf, c.kind = .mlr g roff d bf) → entryBad s k.part (g.toNat % 256) = some b →
      exec (.commandCompletion t false c.id) s = .next (tileTrapAt s t 3 causeEcc c.pc (word b) c.issued)) ∧
    (entryBad s k.part (g.toNat % 256) = none →
    (∀ bf, c.kind = .mlr g roff d bf →
      let z := fmtBits (bfld d 24 21) / 8
      let y := if bf then 2 else 4
      let out := fun e => reduceRule u t ms roff.toNat (bfld d 24 21) bf e
      (lacks (n * z) → becomes { T with cmdsA := cs }) ∧
      (serve (n * z) → groupBad u ms roff.toNat (n * z) = none →
        let fl := (List.range n).foldl (fun x e => x ||| (out e).2) (0 : Flags)
        ∃ m ds, becomes { T with cmdsA := ds, spad := m, a := { T.a with fpsr := T.a.fpsr ||| fl.setWidth 64 } } ∧
          viewsAside ds = viewsAside cs ∧
          ∀ q, mget m q = match (List.range (n * y)).reverse.find? fun j => decide (winAddr T (o + j) = q) with
            | some j => BitVec.ofNat 8 ((out (j / y)).1 / 256 ^ (j % y))
            | none => mget T.spad q)) ∧
    (c.kind = .mst g roff d →
      (lacks n → becomes { T with cmdsA := cs }) ∧
      (serve n → BufferClean T → T.stores.length + ms.length * n ≤ 8192 →
        let src := fun j => mget (c.view.getD T.spad) (winAddr T (o + j))
        ∃ gs, becomes { T with cmdsA := cs, stores := gs } ∧
          ∀ dev rvf a x, ownByteAt (setTile u t { T with cmdsA := cs, stores := gs }) t dev rvf a x =
            match (ms.flatMap fun m => (List.range n).map fun j => (m, j)).reverse.find? fun e =>
                decide (e.1.dev = dev ∧ e.1.rvf = rvf ∧ e.1.base + roff.toNat + e.2 = a) with
            | some e => src e.2
            | none => ownByteAt u t dev rvf a x)))

/-- What commands do. Those that walk no window: R33 to R36, R54, R55, R220 to R222, R226 to R229, R235, R337. What the others
move: R34, R238, R240 to R242, R244, R251, R253, R256 to R261. How pieces of commands may run before each other, and what is
read of a row that another command changes, is the agenda's (log 9, 23, 24). -/
def Obligations.CommandEffects : Prop :=
  Claims.CommandsComplete ∧ Claims.GroupSteps ∧ Claims.WindowPlaces ∧ Claims.ElementMoves ∧ Claims.AccessFrames ∧
  Claims.GroupMoves

/-- R129 to R131, R296, R304: a placed gang without a checkpoint starts in all members at once, after the cycle that placed it.
Every member stands at the entry with the registers of R130, its streams idle, its pegs, vector registers and flags 0, its
accumulator blocks 0, its queues empty in the launch's formats, its generators seeded, and x9 the count of the runs: the
dispatches, and the member's own RESUMEs. Its argument bytes come from window offset 0, those of a card's chunk from its array;
every other byte of the window, and in a tile that a booking placed into every byte, stays as it is in blocks of its own VF at
a first dispatch, and is else 0. A cause of the first member's argument read is its trap at the entry. That no member starts
while an argument read waits is a reading (log 58). -/
def Sys2Proof.Machine.Claims.FirstStarts : Prop :=
  ∀ (s : State) (id : Nat) (g : Gang), gangOf s id = some g → g.state = .placed → g.placedAt ≠ some s.portCycle → g.ckpts = [] →
    let base := (g.onTile.map Prod.snd).getD 0
    let g1 : Gang := { g with state := .running, runs := g.runs + 1 }
    let s1 := { s with gangs := tput s.gangs id g1 }
    (g.tiles.Nodup → base % 4096 = 0 → 12 ≤ g.log2 → g.args.length ≤ 2 ^ g.log2 →
      ∀ pa : Nat → Nat → Nat, (∀ a n, g.argAddr = some (a, n) → n ≤ 2 ^ g.log2 ∧
        ∀ (u : State) (rank : Nat) (t : TileId) (j : Nat), g.tiles[rank]? = some t → j < n / 16 →
          { u with tiles := s1.tiles, olds := s1.olds } = s1 → (∀ w, (tileOf u w).tlb = (tileOf s w).tlb) →
          badIn s (pa rank j) 16 = none ∧
          ∃ ip, tileXlat u t (memberTask u id g1 rank t) (a.toNat + 16 * j) .read = (u, .ok (ip, pa rank j))) →
      let arg := fun (rank o : Nat) => if g.onTile.isSome then none else match g.argAddr with
        | none => g.args[o]?
        | some (_, n) => if o < n / 16 * 16 then some (physByte s (pa rank (o / 16) + o % 16)) else none
      ∃ u cs, exec (.gangStart id) s = .next u ∧ gangOf u id = some { g1 with ckpts := cs } ∧ cs.length = g.tiles.length ∧
        (∀ c ∈ cs, c.start = true ∧ c.pc = g.entryAddr ∧ c.barGen = 0) ∧
        ∀ (rank : Nat) (t : TileId), g.tiles[rank]? = some t →
          let T := tileOf u t
          (∀ r, vget T.x r = entryReg g rank (g.runs + 1 + tget 0 g.resumes rank) r) ∧ T.s.pc = g.entryAddr ∧ T.s.run = .running ∧
            T.s.fpcr = (g.seed.setWidth 64) <<< 32 ∧ (∀ st, (strm T st).fpsr = 0) ∧ T.s.gen = seeded T.s.fpcr .S ∧
            T.vs.run = .idle ∧ T.m.run = .idle ∧ T.a.run = .idle ∧ (∀ p, vget T.pegs p = 0) ∧
            (∀ r l, vget (vget T.v r) l = 0) ∧ (∀ r, vget T.k r = 0) ∧
            (∀ q : Fin 4, queueOf T q = { fmt := g.qfmt.getD q.val 0 }) ∧
            (∀ c : Fin 16, g.acc.getLsbD c.val = true → vget T.acc c = Vector.replicate 8192 0) ∧
            (T.task.map fun k => (k.gang, k.rank, k.vf, k.base, k.log2, k.irrevocable, k.barGen, k.hasEnded)) =
              some (id, rank, g.vf, base, g.log2, false, 0, false) ∧
            ∀ o, o < 2 ^ g.log2 → mget T.spad (base + o) = match arg rank o with
              | some b => b
              | none =>
                if g.runs = 0 ∧ tfind (tileOf s t).tags ((base + o) / 4096) = some g.vf then mget (tileOf s t).spad (base + o)
                else 0) ∧
    (∀ (t : TileId) (ts : List TileId) (a : Word) (n j c : Nat), g.tiles = t :: ts → g.argAddr = some (a, n) → j < n / 16 →
      (tileOf s t).debug = .none →
      let k := memberTask s1 id g1 0 t
      let va := fun i => a.toNat + 16 * i
      (∀ i, i < j → ∃ ip pa, tileXlat s1 t k (va i) .read = (s1, .ok (ip, pa)) ∧ badIn s pa 16 = none) →
      tileXlat s1 t k (va j) .read = (s1, .error (.fault c)) →
      exec (.gangStart id) s = .next (tileTrap (modTile s1 t fun T => { T with task := some k }) t 0 c g.entryAddr (word (va j))))

/-- R143, R296: a gang that has a checkpoint resumes in all members at once, after the cycle that placed it: every member stands as
its checkpoint says, its window 0 but for the saved bytes, and x9 of a start checkpoint counts the runs. That a restart from a
later checkpoint keeps its x9 is a reading (log 30). -/
def Sys2Proof.Machine.Claims.Restarts : Prop :=
  ∀ (s : State) (id : Nat) (g : Gang), gangOf s id = some g → g.state = .placed → g.placedAt ≠ some s.portCycle →
    g.ckpts ≠ [] → g.tiles.Nodup → g.tiles.length = g.ckpts.length →
    ∃ u, exec (.gangStart id) s = .next u ∧
      gangOf u id = some { g with state := .running, runs := g.runs + 1 } ∧
      ∀ (rank : Nat) (t : TileId) (c : Checkpoint), g.tiles[rank]? = some t → g.ckpts[rank]? = some c →
        let T := tileOf u t
        T.x = (if c.start then vset c.x 9 (word (g.runs + 1 + tget 0 g.resumes rank)) else c.x) ∧ T.s.pc = c.pc ∧ T.s.run = .running ∧
          T.s.fpcr = c.fpcr ∧ T.vs.run = .idle ∧ T.m.run = .idle ∧ T.a.run = .idle ∧ T.pegs = c.pegs ∧
          T.v = c.v.getD (Vector.replicate 16 (Vector.replicate 1024 0)) ∧ T.k = c.k.getD (Vector.replicate 8 0) ∧
          (T.task.map fun k => (k.gang, k.rank, k.barGen)) = some (id, rank, c.barGen) ∧
          ∀ o, o < 2 ^ g.log2 → mget T.spad ((g.onTile.map Prod.snd).getD 0 + o) =
            match c.bytes.reverse.find? fun e => decide (e.1 % 2 ^ g.log2 = o) with
            | some e => e.2
            | none => 0

/-- R129 to R131, R296, R304: a placed gang without a checkpoint starts in all members at once, after the cycle that placed it.
Every member stands at the entry with the registers of R130, its streams idle, its pegs, vector registers and flags 0, its
accumulator blocks 0, its queues empty in the launch's formats, its generators seeded, and x9 the count of the runs: the
dispatches, and the member's own RESUMEs. Its argument bytes come from window offset 0, those of a card's chunk from its array;
every other byte of the window, and in a tile that a booking placed into every byte, stays as it is in blocks of its own VF at
a first dispatch, and is else 0. A cause of the first member's argument read is its trap at the entry. That no member starts
while an argument read waits is a reading (log 58).
R143, R296: a gang that has a checkpoint resumes in all members at once, after the cycle that placed it: every member stands as
its checkpoint says, its window 0 but for the saved bytes, and x9 of a start checkpoint counts the runs. That a restart from a
later checkpoint keeps its x9 is a reading (log 30). -/
def Obligations.GangStarts : Prop := Claims.FirstStarts ∧ Claims.Restarts

/-- R126, R142, R145, R146, R297, R298, R306, R309, R318, R332, R333: the ends of a gang's waits. GANG_COMPLETE frees the tiles
and the entry; DISCARD_COMPLETE queues an aborted gang at its entry's priority; CHECKPOINT_COMMIT keeps at once what every
member has saved, begins a new region with an acquire at SYSTEM, and with PREQ takes the gang off its tiles; BAR_COMPLETE lets
every waiting member go on, with an acquire at GANG and at the scope of its BAR.P; the end of a card's chunk completes the card's
entry, or faults it, once nothing of it runs or is left to deal (R303, R305); PREEMPT_FALLBACK aborts a gang whose region holds nothing irrevocable; PREEMPT and WITHDRAW set and clear PREQ in their scope. -/
def Obligations.GangEvents : Prop :=
  (∀ (s : State) (id : Nat) (g : Gang), gangOf s id = some g → g.state = .running → g.chunk = none →
    (∀ t ∈ g.tiles, memberDone s t = true) →
    ∃ u, exec (.gangComplete id) s = .next u ∧ gangOf u id = none ∧ tfind u.entries g.entry = none ∧
      ∀ t ∈ g.tiles, Vacant (tileOf u t)) ∧
  (∀ (s : State) (id slot f n : Nat) (g : Gang) (c : Card) (e : JqEntry), gangOf s id = some g → g.state = .running →
    g.chunk = some (slot, f, n) → (∀ t ∈ g.tiles, memberDone s t = true) → tfind (partOf s g.part).cards slot = some c →
    tfind s.entries c.entry = some e → e.card = some slot → e.part = g.part →
    let c' : Card := { c with live := c.live.erase id }
    ∃ u, exec (.gangComplete id) s = .next u ∧ gangOf u id = none ∧ (∀ t ∈ g.tiles, Vacant (tileOf u t)) ∧
      let stays := fun x => tfind (partOf u g.part).cards slot = some c' ∧ tfind u.entries c.entry = some x
      if c'.live ≠ [] then stays e
      else if c.stopped then stays { e with state := .faulted, pin := none }
      else if c.redeal ≠ [] ∨ c.next < bfld (recw c.words 2) 31 0 then stays e
      else tfind (partOf u g.part).cards slot = none ∧ tfind u.entries c.entry = none) ∧
  (∀ (s : State) (id : Nat) (g : Gang), gangOf s id = some g → g.state = .aborting →
    let prio := match tfind s.entries g.entry with
      | some e => e.prio
      | none => g.prio
    let g' : Gang := { g with state := .queued, tiles := [], prio := prio, preq := false, preqTicks := 0, aged := 0, unplaced := 0 }
    exec (.discardComplete id) s = .next { s with gangs := tput s.gangs id g' }) ∧
  (∀ (s : State) (id : Nat) (g : Gang), gangOf s id = some g → g.state = .running →
    ∀ save : TileId → Checkpoint, (∀ t ∈ g.tiles, (tileOf s t).sWait = .saved (save t) ∧ (tileOf s t).debug = .none) →
    ∃ u, exec (.checkpointCommit id) s = .next u ∧ (gangOf u id).map Gang.ckpts = some (g.tiles.map save) ∧
      (∀ t ∈ g.tiles, FreshFor s u t 3) ∧ (g.preq = false → (gangOf u id).map Gang.state = some .running ∧ ∀ t ∈ g.tiles, tileOf u t =
        { tileOf s t with sWait := .none, task := (tileOf s t).task.map fun k => { k with irrevocable := false } }) ∧
      (g.preq = true → (gangOf u id).map Gang.state = some .queued ∧ (gangOf u id).map Gang.tiles = some [] ∧
        ∀ t ∈ g.tiles, Vacant (tileOf u t))) ∧
  (∀ (s : State) (id : Nat) (g : Gang), gangOf s id = some g → g.state = .running →
    (∀ t ∈ g.tiles, barReady s t = true) →
    ∃ u, exec (.barComplete id) s = .next u ∧ { u with tiles := s.tiles, olds := s.olds } = s ∧
      (∀ t, tileOf u t = if t ∈ g.tiles ∧ ∃ sc, (tileOf s t).sWait = .bar sc then { tileOf s t with sWait := .none }
        else tileOf s t) ∧
      ∀ t ∈ g.tiles, ∀ sc, (tileOf s t).sWait = .bar sc → FreshFor s u t sc ∧ FreshFor s u t 1) ∧
  (∀ (s : State) (id : Nat) (g : Gang), gangOf s id = some g → g.state = .running → g.preq = true →
    10000 ≤ g.preqTicks → (∀ t ∈ g.tiles, ∀ k, (tileOf s t).task = some k → k.irrevocable = false) →
    ∃ u, exec (.preemptFallback id) s = .next u ∧ gangOf u id = some { g with state := .aborting } ∧
      ∀ t ∈ g.tiles, Vacant (tileOf u t)) ∧
  (∀ (s : State) (n : ThreadId) (m : Msg) (p : PartId) (b : Bool), partOfThread s n = some p →
    bfld m.w0 2 0 = (if b then 1 else 2) → PreemptFits s n p m.w0 m.w1 →
    ∃ u, exec (if b then .preempt n m else .withdraw n m) s = .next u ∧
      { u with gangs := s.gangs, tiles := s.tiles } = s ∧
      ∀ (id : Nat) (g : Gang), (id, g) ∈ s.gangs → gangOf s id = some g → g.state = .placed ∨ g.state = .running →
        inScope p (bfld m.w0 5 4) (bfld m.w0 63 32) g = true →
        (gangOf u id).map Gang.preq = some b ∧
          ∀ t ∈ g.tiles, (tileOf u t).task = (tileOf s t).task.map fun k => { k with preq := b })

/-- R135, R137, R255, R315, R316, R324, R330, R406: STREAM_END ends a stream whose END has issued and whose commands have
completed; PUBLISH_COMPLETE applies the stores and then the effects of the oldest publish, and the task goes on:
after PHASE with an acquire at the scope, after BAR.P to the barrier, after CKPT with its state saved;
NEST_ITERATION ends an iteration whose elements have moved, and posts its peg; a WAITV returns when its window counters
have reached their targets, or with bit 8 when its ticks have run out; after 10,000 ticks of retry-later answers a member
counts as absent. What a held publish and a read in progress do, and when CKPT saves, are readings (log 10, 25, 53, 57). -/
def Obligations.StreamEvents : Prop :=
  (∀ (s : State) (t : TileId) (st : Stream), (strm (tileOf s t) st).run = .ending →
    (st = .M → (tileOf s t).cmdsM = []) → (st = .A → (tileOf s t).cmdsA = []) →
    exec (.streamEnd t st) s = .next (onlyStream s t st fun c => { c with run := .ended })) ∧
  (∀ (s : State) (t : TileId) (p : Publish) (ps : List Publish), (tileOf s t).publishes = p :: ps →
    publishAtRows s t p = (s, true) → publishHeld s t p = false → (∀ g ∈ p.stores, granuleAnswer s p.vf g = .serves) →
    let s1 := p.stores.foldl (fun s g => g.bytes.foldl (fun s b => storeByte s (p.asOver t) p.vf g b) s)
      (noteReads s t p p.stores)
    let s2 := applyEffects (modTile { s1 with holds := s1.holds.filter fun h => decide (h.who ≠ .publish t p.num) } t
      fun T => { T with publishes := ps }) t { tile := t, gang := p.gang, num := p.num, rank := p.rank } p.effects
    exec (.publishComplete t) s = .next (afterPublish s2 t p) ∧
      ∀ k, (tileOf s2 t).task = some k → k.gang = p.gang → (gangOf s2 p.gang).elim 0 Gang.runs = p.runs →
        (p.why = .phase → afterPublish s2 t p = acquire (modTile s2 t fun T => { T with sWait := .none }) t p.scope) ∧
        (p.why = .bar → afterPublish s2 t p =
          modTile s2 t fun T => { T with sWait := .bar p.scope, task := some { k with barGen := k.barGen + 1 } }) ∧
        (∀ onM i, p.why = .release onM i → afterPublish s2 t p =
          modTile s2 t fun T => withCmds T onM fun cs => cs.filter fun c => decide (c.id ≠ i)) ∧
        (p.why = .taskEnd → afterPublish s2 t p = modTile s2 t fun T => { T with task := some { k with hasEnded := true } }) ∧
        ∀ ws, p.why = .ckpt ws → afterPublish s2 t p = modTile s2 t fun T => { T with
          sWait := if T.debug = .none then .saved (savedCheckpoint T k ws) else .ckpt ws }) ∧
  (∀ (s : State) (t : TileId) (k : Task) (c : Cmd) (cs : List Cmd) (f : Frame) (w : List Word) (prog : Bool),
    let T := tileOf s t
    T.task = some k → T.debug = .none → T.cmdsA = c :: cs → (∀ d ∈ cs, d.id ≠ c.id) → c.landed = false → c.cspec = 0 →
    c.kind = .nest f w prog → c.iter < iterations c.kind → c.pos = windowCount f → (c.pos = 0 → nestWaits T c = false) →
    let c' : Cmd := { c with started := true, acq := false, members := none, iter := c.iter + 1, pos := 0, reads := [], pend := []
                             view := none }
    let pegs' := if nestPostEn w ∧ c.iter + 1 < iterations c.kind then vset T.pegs (nestPostPeg w) (vget T.pegs (nestPostPeg w) + 1) else T.pegs
    ∃ ds, viewsAside ds = viewsAside cs ∧ exec (.nestIteration t c.id) s =
      .next (setTile (begun s t c) t { T with cmdsA := c' :: ds, pegs := pegs', spad := layBytes T.spad c.pend })) ∧
  (∀ (s : State) (t : TileId) (k : Task) (i : Instr) (d : XReg) (all : Bool) (mask timeout ticks : Nat)
    (cs : List WaitCond), i = .waitvReturn t ∨ i = .waitvTimeout t →
    let T := tileOf s t
    T.task = some k → T.debug = .none → T.sWait = .waitv d all mask cs timeout ticks → (∀ c ∈ cs, c.isGlobal = false) →
    let m := ((cs.filter fun c => decide (c.target.toNat ≤ (windowWord T c.loc).toNat)).map fun c => 2 ^ c.bit).sum
    let back := fun v => modTile s t fun T => nextS { T with x := xset T.x d (word v), sWait := .none }
    exec i s = .next (if (if all then m = mask else m ≠ 0) ∧ (timeout = 2 ^ 48 - 1 ∨ ticks ≤ timeout) then back m
      else if timeout ≤ ticks ∧ timeout ≠ 2 ^ 48 - 1 then back (m + 2 ^ 8) else s)) ∧
  (∀ (s : State) (t : TileId) (id : Nat) (c : Cmd), findCmd (tileOf s t) false id = some c → c.started = true →
    10000 ≤ c.retryTicks.getD 0 →
    exec (.purlinRetryExpiry t id) s = .next (modTile s t fun T =>
      { T with cmdsA := T.cmdsA.map fun d => if d.id = id then { d with retryOver := true } else d }))

/-- R268 to R274, R282, R302, R306, R308, R352, R366, R432: steps of the Joinery. A port cycle comes no earlier than its time,
counts, and touches no tile; with nothing to select and one put at the port, the put folds into its matchable entry by the
class's operator. A card's record is read and checked; a READY item's priority, a card's entry included, rises after 1,000,000
ticks; of the items that no die has placed for 1,000 ticks and some die can hold, the one of highest priority, of these the one of
smallest age, takes the hold;
a HELD entry re-enters after its back-off, and a page wait ends after 100,000 ticks. That a card at
its cap is no item, and that work for a FROZEN VF's class waits at the port, are readings (log 32, 71). -/
def Obligations.QueueTurns : Prop :=
  (∀ s : State, (s.ik / 2 < s.portCycle → exec .portCycle s = .next s) ∧ (s.portCycle ≤ s.ik / 2 →
    ∃ u, exec .portCycle s = .next u ∧ u.portCycle = s.portCycle + 1 ∧ u.selected = false ∧ u.tiles = s.tiles)) ∧
  (∀ (s : State) (a : Arrival) (p : Put) (l : HandleSlot) (r : JqClass) (id : Nat) (e : JqEntry),
    s.portCycle ≤ s.ik / 2 → (∀ q, (partOf s q).state = 1 → itemsOf s q = [] ∧ (partOf s q).hold = none) → s.lodging = [] →
    s.arrivals = [a] → a.work = .put p → vfStands s p.unitVf = true →
    frozenClass s p.part p.cls = false →
    checkHandle s p.part p.putter p.handle rightPut = some l → tfind (partOf s p.part).classes l.cls = some r → r.op ≠ 1 →
    findMatch s p.part l.cls (recw p.desc 0) none = some (id, e) →
    let w1 := recw p.desc 1
    let x := combine r.op e.payload (payloadOf (p.desc.drop 2))
    let e1 : JqEntry := { e with prio := if bbit w1 3 then max e.prio (bfld w1 2 0) else e.prio,
                                 folds := min (e.folds + 1) (2 ^ 32 - 1), payload := x.1, ovf := e.ovf || x.2
                                 marks := e.marks ++ p.marks }
    let goes := decide (r.op = 0 ∨ bbit w1 7 = true) && decide (e.state = .waiting)
    let e2 : JqEntry := if goes then { e1 with state := .ready, readyTick := tickOf s, aged := 0 } else e1
    let u := { s with portCycle := s.portCycle + 1, selected := false, arrivals := [], reserved := s.reserved.erase p.unitVf,
                      entries := tput s.entries id e2 }
    exec .portCycle s = .next (if a.rank = 2 then
      modThr u (Fin.ofNat 1024 a.source) fun h => { h with dealt := some s.portCycle } else u)) ∧
  (∀ (s : State) (p : PartId) (slot : Nat) (c : Card) (e : JqEntry) (r : JqClass) (pa : Nat),
    tfind (partOf s p).cards slot = some c → c.ready = false → c.pageWait = none → tfind s.entries c.entry = some e →
    tfind (partOf s p).classes e.cls = some r → vfStands s r.vf = true → asidXlat s (.card p slot) r.vf r.asid c.addr.toNat .read = (s, .ok pa) →
    badIn s pa 32 = none →
    let w := (List.range 4).map fun i => word (littleEndian (fun j => physByte s (pa + 8 * i + j)) 8)
    exec (.cardRead p slot) s = .next (
      if cardReserved w then faultCard s p slot 0x05 c e
      else if cardInvalid s p w then faultCard s p slot 0x06 c e
      else if bfld (recw w 2) 31 0 = 0 then freeEntry s c.entry
      else setPart s p { partOf s p with cards := tput (partOf s p).cards slot { c with ready := true, words := w } })) ∧
  (∀ (s : State) (id : Nat) (e : JqEntry), tfind s.entries id = some e → e.state = .ready → 1000000 ≤ e.aged →
    exec (.agingStep (.entry id)) s =
      .next { s with entries := tput s.entries id { e with prio := min 7 (e.prio + 1), aged := 0 } }) ∧
  (∀ (s : State) (id : Nat) (g : Gang), gangOf s id = some g → g.state = .queued → 1000000 ≤ g.aged →
    exec (.agingStep (.gang id)) s =
      .next { s with gangs := tput s.gangs id { g with prio := min 7 (g.prio + 1), aged := 0 } }) ∧
  (∀ (s : State) (p : PartId) (slot : Nat) (c : Card) (e : JqEntry), tfind (partOf s p).cards slot = some c →
    tfind s.entries c.entry = some e → c.ready = false ∨ c.redeal ≠ [] ∨ c.next < bfld (recw c.words 2) 31 0 → 1000000 ≤ c.aged →
    exec (.agingStep (.card p slot)) s = .next
      (setPart { s with entries := tput s.entries c.entry { e with prio := min 7 (e.prio + 1) } } p
        { partOf s p with cards := tput (partOf s p).cards slot { c with aged := 0 } })) ∧
  (∀ (s : State) (p : PartId),
    let claims := (itemsOf s p).filter fun i => i.tiles && decide (1000 ≤ i.unplaced ∧ ∃ d ∈ List.range 4, i.cost ≤ (partTiles s p d).length)
    claimants s p = claims ∧ (claims ≠ [] → (holdWinner claims).isSome = true) ∧
    ∀ i, holdWinner claims = some i → i ∈ claims ∧ ∀ j ∈ claims, j.prio ≤ i.prio ∧ (j.prio = i.prio →
      i.age < j.age ∨ (i.age = j.age ∧ (i.place < j.place ∨ (i.place = j.place ∧ i.sub ≤ j.sub))))) ∧
  (∀ (s : State) (p : PartId) (i : Item), (partOf s p).hold = none → holdWinner (claimants s p) = some i →
    ∃ d, exec (.holdClaim p i.id) s = .next (setPart s p { partOf s p with hold := some (i.id, d) }) ∧
      ∀ k, k < 4 → (freeTiles s p k).length ≤ (freeTiles s p d).length ∧
        ((freeTiles s p k).length = (freeTiles s p d).length → d ≤ k)) ∧
  (∀ (s : State) (id : Nat) (e : JqEntry) (v : VfId), tfind s.entries id = some e → entryVf s e = some v →
    e.state = .held → e.backoffLeft = 0 → (vfOf s v).state ≠ 3 → (∀ a ∈ s.arrivals, a.work ≠ .reentry id) →
    ∃ a : Arrival, a.cycle = s.portCycle ∧ a.rank = 4 ∧ a.order = s.seq ∧ a.work = .reentry id ∧
      exec (.backoffExpiry id) s = .next { s with seq := s.seq + 1, arrivals := insertArrival a s.arrivals }) ∧
  (∀ (s : State) (id : Nat) (g : Gang), gangOf s id = some g → g.pageWait ≠ none → 100000 ≤ g.pageTicks →
    exec (.pageWaitTimeout (.gang id)) s = .next { s with gangs := tput s.gangs id { g with pageWait := none } }) ∧
  (∀ (s : State) (p : PartId) (slot : Nat) (c : Card), tfind (partOf s p).cards slot = some c → c.pageWait ≠ none →
    100000 ≤ c.pageTicks → exec (.pageWaitTimeout (.card p slot)) s =
      .next (setPart s p { partOf s p with cards := tput (partOf s p).cards slot { c with pageWait := none } }))

/-- A lodging message of a command that its thread may send: the sender's partition, and no reserved bit set (R356). -/
def LodgeMsg (s : State) (n : ThreadId) (m : Msg) (p : PartId) (c : Nat) : Prop :=
  partOfThread s n = some p ∧ bfld m.w0 2 0 = c ∧ lodgeSender s n p m = true ∧ lodgeReserved m = false

/-- R346 to R349, R352, R355 to R363: steps of the page side. A TLBI waits while an access that one of its entries translated
is held at the segment row. It then removes exactly its entries and ends the page waits it covers: .VA those of its ASID whose
page holds the address, .ASID those of its ASID, .ALL those of the partition. SEGHOLD completes; INSTALL adds an entry, REMOVE frees one or evicts it, PREFETCH and EVICT move its state, POOL and
SPILL set their regions; a fetch whose transfers have all landed ends RESIDENT, and one that fails has its transfers cancelled
and its parked entries FAULTED; an eviction, once no access to the expert is held, ends ABSENT, ARRIVING again, or with its
entry gone. What a REMOVE and a park on it
do, the order of victims, and that the walkers' entries are dropped with the TLB's, are readings (log 11, 32, 63). -/
def Obligations.LodgingTurns : Prop :=
  (∀ (s : State) (n : ThreadId) (p : PartId) (kind asid : Nat) (va : Word), partOfThread s n = some p →
    (thrOf s n).wait = .tlbi kind va asid →
    let inPart := fun a : Nat => decide ((vfOfAsid s a).map (fun v => (vfOf s v).part) = some p)
    let gone := fun e : TlbEntry =>
      if kind = 0 then decide (e.asid = asid ∧ e.base ≤ va.toNat ∧ va.toNat < e.base + e.size)
      else if kind = 1 then decide (e.asid = asid) else inPart e.asid
    let goneKept := fun e : KeptEntry =>
      if kind = 0 then decide (e.asid = asid ∧ va.toNat < 2 ^ 56 ∧ e.range =
        if e.level = 0 then 0 else va.toNat / 2 ^ (if e.level = 1 then 43 else if e.level = 2 then 30 else 21))
      else if kind = 1 then decide (e.asid = asid) else inPart e.asid
    let covered := fun (g : Gang) (w : Nat × Nat) =>
      if kind = 0 then w = (asid, va.toNat / 65536) else if kind = 1 then w.1 = asid else g.part = p
    ((∃ h ∈ s.holds, holdLives s h = true ∧ ∃ e, h.leaf = some e ∧ gone e = true) →
      exec (.tlbiComplete n) s = .next s) ∧
    ((∀ h ∈ s.holds, holdLives s h = true → ∀ e, h.leaf = some e → gone e = false) →
      ∃ u, exec (.tlbiComplete n) s = .next u ∧ thrOf u n = { thrOf s n with wait := .none } ∧ u.mem = s.mem ∧
        u.kept = (s.kept.filter fun e => !goneKept e) ∧
        (∀ t, tileOf u t = if tileInPart (partOf s p) t
          then { tileOf s t with tlb := (tileOf s t).tlb.filter fun e => !gone e } else tileOf s t) ∧
        (∀ id g, gangOf s id = some g → (g.pageWait = none → gangOf u id = some g) ∧ ∀ w, g.pageWait = some w →
          (covered g w → gangOf u id = some { g with pageWait := none }) ∧ (¬ covered g w → gangOf u id = some g)))) ∧
  (∀ (s : State) (n : ThreadId) (v : VfId), (thrOf s n).wait = .seghold v →
    exec (.segholdComplete n) s = .next (setThr s n { thrOf s n with wait := .none })) ∧
  (∀ (s : State) (n : ThreadId) (m : Msg) (p : PartId) (l : Nat), LodgeMsg s n m p 1 → vfStands s (lodgeVf m) = true →
    (vfOf s (lodgeVf m)).part = p → lodgingOf s (lodgeVf m) (lodgeExpert m) = none →
    (s.lodging.filter fun e => decide (e.2.part = p)).length < (partOf s p).lodgeShare →
    (∀ e ∈ s.lodging, e.2.vf = lodgeVf m →
      e.2.vbase + e.2.length ≤ bfld m.w1 55 0 ∨ bfld m.w1 55 0 + bfld m.w2 47 0 ≤ e.2.vbase) →
    bfld m.w1 55 0 % 2 ^ 21 = 0 → 0 < bfld m.w2 47 0 →
    bfld m.w2 47 0 ≤ 2 ^ 21 * ((vfOf s (lodgeVf m)).frGuar + (vfOf s (lodgeVf m)).frBurst) →
    tierOk (partOf s p) (bbit m.w3 0) (bfld m.w3 10 8) m.w4.toNat (bfld m.w2 47 0) = true →
    tfree s.lodging 0 32768 = some l →
    ∃ (u : State) (e : Lodging), exec (.install n m) s = .next u ∧ u = { s with lodging := tput s.lodging l e } ∧
      e.part = p ∧ e.vf = lodgeVf m ∧ e.expert = bfld m.w0 63 44 ∧ e.vbase = bfld m.w1 55 0 ∧
      e.length = bfld m.w2 47 0 ∧ e.state = 0 ∧ e.frames = [] ∧ e.fetching = false ∧ e.pin = 0 ∧ e.parlour = [] ∧
      e.nvme = bbit m.w3 0 ∧
      e.port = bfld m.w3 10 8 ∧ e.nsid = bfld m.w3 63 32 ∧ e.loc = m.w4 ∧
      e.notify.map (·.val) = if bbit m.w0 31 then some (bfld m.w0 41 32) else none) ∧
  (∀ (s : State) (n : ThreadId) (m : Msg) (p : PartId) (l : Nat) (e : Lodging), LodgeMsg s n m p 2 →
    lodgingOf s (lodgeVf m) (lodgeExpert m) = some (l, e) → e.part = p → e.pin = 0 → parkedEntries s l e = [] →
    (e.state = 2 → exec (.remove n m) s = .next (modLodging s l fun e => { e with state := 3, removing := true })) ∧
    (e.state = 0 → exec (.remove n m) s = .next (lodgingDone { s with lodging := tdel s.lodging l } e 0 false))) ∧
  (∀ (s : State) (n : ThreadId) (m : Msg) (p : PartId) (l : Nat) (e : Lodging), LodgeMsg s n m p 3 →
    lodgingOf s (lodgeVf m) (lodgeExpert m) = some (l, e) → e.part = p →
    exec (.prefetch n m) s = .next (modLodging s l fun e => if e.state = 0 then { e with state := 1 } else e)) ∧
  (∀ (s : State) (n : ThreadId) (m : Msg) (p : PartId) (l : Nat) (e : Lodging), LodgeMsg s n m p 4 →
    lodgingOf s (lodgeVf m) (lodgeExpert m) = some (l, e) → e.part = p →
    exec (.evict n m) s = .next (if e.state = 2 ∧ e.pin = 0 then modLodging s l fun e => { e with state := 3 } else s)) ∧
  (∀ (s : State) (n : ThreadId) (m : Msg) (p : PartId), LodgeMsg s n m p 5 → vfStands s (lodgeVf m) = true →
    let f := vfOf s (lodgeVf m)
    f.part = p → (∀ a ∈ framesOf s (lodgeVf m), loanIpa ≤ a) → bfld m.w1 55 0 % 2 ^ 21 = 0 →
    bfld m.w1 55 0 + f.frGuar * 2 ^ 21 ≤ f.segSize →
    exec (.pool n m) s = .next (setVf s (lodgeVf m) { f with pool := some (bfld m.w1 55 0) })) ∧
  (∀ (s : State) (n : ThreadId) (m : Msg) (p : PartId) (k : Nat), LodgeMsg s n m p 6 →
    let q := partOf s p
    q.spillCount = 0 → bfld m.w1 55 0 % 4096 = 0 → q.carveBase ≤ bfld m.w1 55 0 →
    bfld m.w1 55 0 + 16 * bfld m.w2 47 0 ≤ q.carveBase + q.carveSize → 8 ≤ k → k ≤ 20 → bfld m.w2 47 0 = 2 ^ k →
    exec (.spill n m) s = .next (setPart s p { q with spillBase := bfld m.w1 55 0, spillSize := 2 ^ k, spillHead := 0 })) ∧
  (∀ (s : State) (l : Nat) (e : Lodging), tfind s.lodging l = some e → e.state = 1 → e.fetching = true →
    e.issued = pieceCount e → (∀ x ∈ s.drovers, pieceOf l x.2 = false) →
    writeWaits s (some e.vf) (tailIpa e) (tailBytes e) = false →
    ∃ u, exec (.fetchComplete l) s = .next u ∧
      (tfind u.lodging l).map (fun x => (x.state, x.fetching, x.frames)) = some (2, false, e.frames) ∧
      ∀ id g w, gangOf s id = some g → g.pageWait = some w → vfOfAsid s w.1 = some e.vf →
        e.vbase ≤ w.2 * 65536 + 65535 → w.2 * 65536 < e.vbase + e.length →
        gangOf u id = some { g with pageWait := none }) ∧
  (∀ (s : State) (l : Nat) (e : Lodging) (ta : Word), tfind s.lodging l = some e → e.state = 1 → e.fetching = true →
    (∃ x ∈ s.drovers, pieceOf l x.2 = true ∧ x.2.unit.isSome = true ∧ tierOf e x.2 = ta.toNat) →
    ∃ u, exec (.fetchFailure l ta) s = .next u ∧ (∀ x ∈ u.drovers, pieceOf l x.2 = false) ∧
      (tfind u.lodging l).map (fun x => (x.state, x.fetching, x.frames)) = some (0, false, []) ∧
      ∀ id x, id ∈ parkedEntries s l e → tfind s.entries id = some x →
        (tfind u.entries id).map JqEntry.state = some .faulted ∧
          (tfind (partOf u x.part).classes x.cls).map JqClass.frozen =
            (tfind (partOf s x.part).classes x.cls).map fun _ => true) ∧
  (∀ (s : State) (l : Nat) (e : Lodging), tfind s.lodging l = some e → e.state = 3 → expertHeld s e = true →
    exec (.evictionComplete l) s = .next s) ∧
  (∀ (s : State) (l : Nat) (e : Lodging), tfind s.lodging l = some e → e.state = 3 →
    (∀ h ∈ s.holds, h.vf = e.vf → e.vbase ≤ h.va → h.va < e.vbase + e.length → h.ipa = none) →
    ∃ u, exec (.evictionComplete l) s = .next u ∧
      tfind u.lodging l = (if e.removing then none
        else some { e with state := if e.wanted then 1 else 0, frames := [], issued := 0, wanted := false }) ∧
      ∀ a ∈ e.frames, loanIpa ≤ a → tget 0 u.owners (loanFrame (partOf s e.part) a) = 0)

/-- R353, R370 to R373, R375, R412: Drovers and snapshots. A request that ends leaves its engine or queue pair to the one
that is first by class and then by its partition's turn; a copy lands its bytes, a Guest's through stage 2, advances its done
counter and sends its event, with status 4 after a tier error; one that meets an unsaved frame waits and has it saved ahead;
and a frame is zeroed. An accepted snapshot waits for its cut, which fixes its frames and asks for their saves; a served save
writes the header, and then each frame as the cut holds it, one that a write waits for first; the snapshot ends with its counter and MSG_COMPLETE. The turn of the Keeper, what waits on an unsaved frame, and
when NOTIFY and DONE come, are the model's readings (log 45, 68, 69). -/
def Sys2Proof.Machine.Claims.Transfers : Prop :=
  (∀ (s : State) (xs : List (Nat × Drover)) (e : Nat × Drover), nextServed s xs = some e → e ∈ xs ∧ ∀ f ∈ xs,
    let r := fun x : Nat × Drover => serviceClass x.2.kind
    let d := fun x : Nat × Drover => (x.2.turn + 40 - tget 40 s.lastServed (3 * x.2.pool + r x)) % 41
    r e < r f ∨ (r e = r f ∧ (d e < d f ∨ (d e = d f ∧ e.1 ≤ f.1)))) ∧
  (∀ (s : State) (id : Nat) (x : Drover) (err : Bool), tfind s.drovers id = some x → x.unit.isSome = true → x.kind = .copy →
    let fin := fun u : State => match x.notify with
      | some (n, e) => sendEvent (addDone (dropDrover u id) x.done) n (withStatus e (if err then 4 else 0))
      | none => addDone (dropDrover u id) x.done
    (x.vf = none → unsaved s (x.dst + x.pos) (x.length - x.pos) = true →
      exec (.droverComplete id err) s = .next (wantSaved s (x.dst + x.pos) (x.length - x.pos))) ∧
    (x.vf = none → droverDown s x = false → unsaved s (x.dst + x.pos) (x.length - x.pos) = false →
      exec (.droverComplete id err) s = .next (fin
        (if err then s else physWrite s (x.dst + x.pos) (physRead s (x.src + x.pos) (x.length - x.pos))))) ∧
    (∀ (v : VfId) (da sa : Nat → Nat), x.vf = some v → (vfOf s v).state ≠ 3 → (vfOf s v).segHeld = false → s.holds = [] →
      (∀ j, j < x.length - x.pos → stage2 s v (x.dst + x.pos + j) = .ok (da j) ∧
        stage2 s v (x.src + x.pos + j) = .ok (sa j) ∧ unsaved s (da j) 1 = false) →
      exec (.droverComplete id err) s = .next (fin (if err then s
        else (List.range (x.length - x.pos)).foldl (fun u j => physSet u (da j) (physByte s (sa j))) s)))) ∧
  (∀ (s : State) (a n : Nat) (x : Snapshot), x ∈ s.snapshots → ∀ f ∈ x.frames, a < f.2 + 65536 → f.2 < a + n →
    ∃ y ∈ (wantSaved s a n).snapshots, f.2 ∈ y.wanted ∧ { y with wanted := x.wanted } = x) ∧
  (∀ (s : State) (id : Nat) (x : Drover), tfind s.drovers id = some x → x.unit.isSome = true → x.vf = none → x.done = none →
    x.notify = none → droverDown s x = false →
    (∀ n, x.kind = .frame n → unsaved s x.dst x.length = false → exec (.droverComplete id false) s =
      .next (dropDrover { zeroMem s x.dst x.length with zeroing := s.zeroing.erase n } id))) ∧
  (∀ (s : State) (n : ThreadId) (m : Msg) (sc : SnapScope) (c : Nat), snapScope s n = some sc → bfld m.w0 63 42 = 0 →
    bfld m.w0 15 9 = 0 → bfld m.w2 31 0 = 0 → m.w3 = 0 → m.w4 = 0 → m.w5 = 0 → m.w6 = 0 → m.w7 = 0 →
    (∀ x ∈ s.snapshots, x.scope ≠ sc) → (bbit m.w0 8 = false → m.w1.toNat % 65536 = 0) →
    (bbit m.w0 8 = true → bfld m.w0 7 0 ≠ 0) →
    snapTarget s sc (bbit m.w0 8) (bfld m.w0 7 0) (bfld m.w2 63 32) m.w1.toNat = true →
    doneCtr s n (bfld m.w0 31 16) = some c →
    ∃ x : Snapshot, exec (.snapshot n m) s = .next { s with snapshots := s.snapshots ++ [x] } ∧ x.scope = sc ∧
      x.ctr = c ∧ x.thread.val = bfld m.w0 41 32 ∧ x.nvme = bbit m.w0 8 ∧ x.loc = m.w1 ∧ x.nsid = bfld m.w2 63 32 ∧
      x.cut = false) ∧
  (∀ (s : State) (x : Snapshot), s.snapshots = [x] → x.cut = false →
    ∃ (u : State) (y : Snapshot) (r : Drover), exec (.snapshotCut x.scope) s = .next u ∧
      Requested { s with snapshots := [y] } u r ∧ r.kind = .save x.scope ∧ r.dst = x.loc.toNat ∧ r.length = 65536 ∧
      y.scope = x.scope ∧ y.cut = true ∧ y.loc = x.loc ∧ y.ctr = x.ctr ∧
      y.frames.map Prod.snd = snapFrames (snapRanges s x.scope) ∧
      y.frames.map Prod.fst = List.range y.frames.length ∧ y.header.length = 65536 ∧
      (∀ t n, (t, n) ∈ y.pubs ↔ ∃ p ∈ (tileOf s t).publishes, p.num = n) ∧
      ((∀ v, (vfOf s v).winEn = false) → y.image = s.mem)) ∧
  (∀ (s : State) (x : Snapshot) (id : Nat) (r : Drover), s.snapshots = [x] → x.nvme = false →
    saveRequest s x.scope = some (id, r) → r.unit.isSome = true → saveDown s x r = false →
    let saved := fun (at_ : Nat) (bs : List Byte) (y : Snapshot) =>
      ∃ u, exec (.snapshotFrameSave x.scope) s = .next u ∧
        { u with drovers := s.drovers, seq := s.seq, lastServed := s.lastServed } =
          { zeroMem s at_ 65536 with mem := mwrite s.mem at_ bs, snapshots := [y] } ∧
        ∀ f ∈ (y.frames.find? fun f => y.wanted.contains f.2).or y.frames.head?, ∃ e ∈ u.drovers, e.2.kind = .save x.scope ∧ e.2.dst = x.loc.toNat + 65536 * (f.1 + 1)
    (x.header ≠ [] → saved x.loc.toNat x.header { x with header := [] }) ∧
    (x.header = [] → ∀ i a, (x.frames.find? fun f => decide (x.loc.toNat + 65536 * (f.1 + 1) = r.dst)) = some (i, a) →
      (frameAwaits s x a = true → exec (.snapshotFrameSave x.scope) s = .next s) ∧
      (frameAwaits s x a = false → saved (x.loc.toNat + 65536 * (i + 1)) (mread x.image a 65536)
        { x with frames := x.frames.filter fun f => decide (f.1 ≠ i), wanted := x.wanted.erase a }))) ∧
  (∀ (s : State) (x : Snapshot) (err : Bool), s.snapshots = [x] → x.done = none → x.notify = none →
    (err = false → x.cut = true ∧ x.header = [] ∧ x.frames = []) →
    let u := dropDrovers s fun y => decide (y.kind = .save x.scope)
    exec (.snapshotComplete x.scope err) s = .next (sendEvent (addCounter { u with snapshots := [] } x.ctr 1) x.thread
      { summary := summaryWord 1 (if err then 4 else 0) 0 2, record := pad16 [x.cookie] }))

/-- R380, R384, R404, R409, R411, R413, R415: the other local services. An accepted request stands in its service's list, a
copy's with an engine if one is free; a completion entry is written or waits, with an interrupt where MSIX asks for it; a timer
and an admin command end with their events; the watchdog kills a thread after 5000 ticks. The opcodes that R413 guards, when a
SEND's own counter advances, and the watchdog's value are the model's readings (log 20, 45, 47). -/
def Sys2Proof.Machine.Claims.LocalServices : Prop :=
  (∀ (s : State) (n : ThreadId) (m : Msg),
    let taken : Prop := ∃ c : NvmeCmd, exec (.nvmeAdmin n m) s = .next { s with nvmeAdmin := s.nvmeAdmin ++ [c] } ∧
      c.cmd = m ∧ c.port.val = bfld m.w0 2 0
    let guarded : Prop := bfld m.w0 7 0 = 0x80 ∨ bfld m.w0 7 0 = 0x0D
    (∀ p, partOfThread s n = some p → isStewardOf s p n = true → (partOf s p).tierPorts.getLsbD (bfld m.w0 2 0) = true →
      (guarded → exec (.nvmeAdmin n m) s = .next s) ∧ (¬ guarded → taken)) ∧
    (partOfThread s n = none → isKeeper n = true →
      (guarded → taken) ∧ (¬ guarded → exec (.nvmeAdmin n m) s = .next s))) ∧
  (∀ (s : State) (c : NvmeCmd) (cs : List NvmeCmd) (n : ThreadId) (lo hi : Word), s.nvmeAdmin = c :: cs →
    c.notify = some n → c.done = none →
    exec (.nvmeAdminCompletion c.port lo hi) s = .next (sendEvent { s with nvmeAdmin := cs } n
      { summary := summaryWord 1 0 0 3, record := pad16 [c.cookie, 0, lo, hi] })) ∧
  (∀ (s : State) (n : ThreadId) (m : Msg), bfld m.w2 63 49 = 0 → bbit m.w2 48 = false →
    copyRange s n m.w0.toNat (bfld m.w2 31 0) = true → copyRange s n m.w1.toNat (bfld m.w2 31 0) = true →
    ∃ (u : State) (x : Drover), exec (.droverCopy n m) s = .next u ∧ Requested s u x ∧ x.kind = .copy ∧ x.src = m.w0.toNat ∧
      x.dst = m.w1.toNat ∧ x.length = bfld m.w2 31 0 ∧ x.pos = 0 ∧ x.done = none ∧ x.notify = none ∧
      x.part = partOfThread s n ∧ x.vf = if (thrOf s n).home = 0 then vfOfThread s n else none) ∧
  (∀ (s : State) (n : ThreadId) (m : Msg) (p : PartId), partOfThread s n = some p → isStewardOf s p n = true →
    let v : VfId := Fin.ofNat 128 (bfld m.w2 55 49)
    partOfVf s v = some p → bbit m.w2 48 = false →
    (bfld m.w2 63 62 = 1 → (vfOf s v).state = 3 → stewardRange (partOf s p) m.w1.toNat (stateImage s v).length = true →
      ∃ (u : State) (x : Drover), exec (.stateExport n m) s = .next u ∧ Requested s u x ∧ x.kind = .exportState v ∧
        x.dst = m.w1.toNat ∧ x.length = (stateImage s v).length) ∧
    (bfld m.w2 63 62 = 2 → (vfOf s v).state = 1 →
      let len := imageLength (physRead s m.w0.toNat 88)
      stewardRange (partOf s p) m.w0.toNat len = true → imageOk (physRead s m.w0.toNat len) = true →
      ∃ (u : State) (x : Drover), exec (.stateImport n m) s = .next u ∧ Requested s u x ∧ x.kind = .importState v ∧
        x.src = m.w0.toNat ∧ x.length = len)) ∧
  (∀ (s : State) (n : ThreadId) (cookie lo hi : Word) (v : VfId), vfOfThread s n = some v → (vfOf s v).cplWaiting = [] →
    let f := vfOf s v
    let e : List Word := [word (f.cplNext.toNat % 2 ^ 32 * 2 ^ 32 + bfld cookie 31 0), word (bfld cookie 39 32), lo, hi]
    let u := setVf (physWrite s (hostBase + f.cplBase.toNat + 32 * (f.cplNext.toNat % 2 ^ f.cplLog2)) (wordBytes e)) v
      { f with cplNext := f.cplNext + 1 }
    exec (.hostCompletion n cookie lo hi) s = .next (
      if (f.cplNext - f.cplHead).toNat = 2 ^ f.cplLog2
      then setVf s v { f with cplWaiting := [[word (bfld cookie 31 0), word (bfld cookie 39 32), lo, hi]] }
      else if bbit f.msix 0 then { u with wire := s.wire ++ [.interrupt v (bfld f.msix 10 1)] } else u)) ∧
  (∀ (s : State) (v : VfId) (x : Word), (vfOf s v).state ≠ 0 → (vfOf s v).cplWaiting = [] →
    exec (.cplhead v x) s = .next (setVf s v { vfOf s v with cplHead := x })) ∧
  (∀ (s : State) (n : ThreadId) (m : Msg), bfld m.w0 47 0 ≠ 0 →
    ∃ t : Timer, exec (.timerRequest n m) s = .next { s with timers := tput s.timers s.seq t, seq := s.seq + 1 } ∧
      t.thread = n ∧ t.left = bfld m.w0 47 0 ∧ t.cookie = m.w1) ∧
  (∀ (s : State) (id : Nat) (t : Timer), tfind s.timers id = some t → t.left = 0 →
    exec (.timerExpiry id) s = .next (sendEvent { s with timers := tdel s.timers id } t.thread
      { summary := summaryWord 6 0 ((vfOfThread s t.thread).elim 0 (·.val)) 0, record := pad16 [t.cookie] })) ∧
  (∀ (s : State) (n : ThreadId), let h := thrOf s n
    h.wait = .none → h.held = false → h.heldAccess = false →
    exec (.watchdog n) s = .next (if 5000 ≤ h.watchdog then killThread s n 0 0x0E h.pc (word (s.ik - h.startCycle)) else s))

/-- The local services and the Drovers: R353, R370 to R373, R375, R380, R404, R411 to R413, R415. -/
def Obligations.ServiceTurns : Prop := Claims.Transfers ∧ Claims.LocalServices

/-- R22, R387 to R390, R397, R399, R416: an arriving packet, at one of 8 ports that is up; elsewhere none arrives. A dropped
one is counted and a repeat changes nothing; one that is refused is answered and changes nothing else, but for the frames of a
snapshot that it asks for; the first packet of a message binds it to its booking, and every packet adds its bytes, or is served
as a read. That a message is bound at its first accepted packet, that a read is served whole and that a landing waits (log 46),
the record of answers, the repeat's, the order of the booking unit, and how the delivery contexts are counted (log 62, 64, 65)
are the model's choices and readings. -/
def Sys2Proof.Machine.Claims.Packets : Prop :=
  (∀ (s : State) (p : Packet), 8 ≤ p.port ∨ ((if p.purlin then PortKind.purlin else .ethernet), p.port) ∈ s.linksDown →
    exec (.packetArrival p) s = .next s) ∧
  ∀ (s : State) (p : Packet), p.port < 8 → ((if p.purlin then PortKind.purlin else .ethernet), p.port) ∉ s.linksDown →
    let answered := fun (u : State) (a : Reply) => { u with wire := u.wire ++ [.packet p.context p.seqNo p.purlin a] }
    (p.dropped = true → exec (.packetArrival p) s = .next { s with dropped := s.dropped + 1 }) ∧
    let later := fun i : Instr => ∃ u, exec i s = .next (answered u .retryLater) ∧ { u with snapshots := s.snapshots } = s ∧
      (s.snapshots = [] → u = s)
    (p.dropped = false → packetSeen s p = true →
      ((∀ v, packetVf s p = some v → (vfOf s v).state ≠ 3 ∧ (vfOf s v).freezeCtr = none) →
        exec (.packetArrival p) s = .next (answered s .ack)) ∧
      (∀ v, packetVf s p = some v → (vfOf s v).state = 3 ∨ (vfOf s v).freezeCtr ≠ none →
        exec (.packetArrival p) s = .next (answered s .retryLater))) ∧
    (p.dropped = false → packetSeen s p = false → p.bytes.length ≤ 4096 →
      (p.kind = .unsupported → exec (.packetArrival p) s = .next (answered s .unsupported)) ∧
      (p.kind ≠ .unsupported → packetVf s p = none → exec (.packetArrival p) s = .next (answered s .unknownEndpoint)) ∧
      (∀ v, p.kind ≠ .unsupported → packetVf s p = some v →
        (vfReady s v = false → exec (.packetArrival p) s = .next (answered s .retryLater)) ∧
        (vfReady s v = true →
          let mine := s.inbound.find? fun m => decide (m.2.context = some (p.context, p.message, p.purlin))
          let stored := p.purlin || (tfind s.contexts p.context).isSome
          let free := decide ((s.contexts.filter fun c => decide (c.2 = (vfOf s v).part)).length <
            (partOf s (vfOf s v).part).ctrShare / 2)
          let s0 := if stored then s else { s with contexts := tput s.contexts p.context (vfOf s v).part }
          let reach := if p.kind = .rmaRead then p.total else p.bytes.length
          let placed := fun (m : InMessage) => if bkPlace m.words = 0 then 0 else
            min p.bytes.length (bkLen m.words - (landOffset m + p.position))
          let taken := fun (u : State) (id : Nat) (m : InMessage) =>
            let off := landOffset m + p.position
            let served : InMessage := { m with response := serveBytes u m off m.total, received := m.total }
            let got : InMessage := { m with received := m.received + p.bytes.length, placed := m.placed + placed m }
            answered (if p.kind = .rmaRead then { u with inbound := tput u.inbound id served }
              else { landBytes u m off p.bytes with inbound := tput u.inbound id got }) .ack
          (mine = none → bookingFor s v p.kind (sourceSlot s v p) p.tag = none →
            exec (.packetArrival p) s = .next (answered s .noMatch)) ∧
          (∀ num b, mine = none → bookingFor s v p.kind (sourceSlot s v p) p.tag = some (num, b) →
            (stored = false → free = false → exec (.packetArrival p) s = .next (answered s .retryLater)) ∧
            (stored = true ∨ free = true → ∃ m : InMessage, BoundAs m v num b p ∧ m.received = 0 ∧ m.placed = 0 ∧
              (landWaits s none m (landOffset m + p.position) reach = true → later (.packetArrival p)) ∧
              (landWaits s none m (landOffset m + p.position) reach = false → s.bookPos ≤ matchPlace p.purlin p.port →
                s.snapshots = [] → exec (.packetArrival p) s = .next (taken
                  { s0 with seq := s.seq + 1, bookings := tput s.bookings num { b with bound := b.bound + 1 },
                            bookPos := matchPlace p.purlin p.port,
                            accepted := (packetKey p, p.seqNo, p.message) :: s.accepted } s.seq m)))) ∧
          (∀ id m, mine = some (id, m) → m.kind = p.kind → stored = true ∨ free = true →
            (landWaits s (some id) m (landOffset m + p.position) reach = true → later (.packetArrival p)) ∧
            (landWaits s (some id) m (landOffset m + p.position) reach = false → s.snapshots = [] →
              exec (.packetArrival p) s = .next (taken
                { s0 with accepted := (packetKey p, p.seqNo, p.message) :: s.accepted } id m))))))

/-- R389, R391, R392, R400, R403: messages, counters and sends. A complete message advances the scratchpad counter of its
booking's SPEN and then its arrival counter; an addition reaches its counter; an acknowledged packet completes a send when it is
the last, and a read when every byte of its response has landed; a packet goes out by a port that is up on its way, goes out
again and counts its tries, and its message ends with PEER_ABSENT when they are used up. The order of the booking unit, the
counters held for a FROZEN VF, the event's member mask, the port of a peer with this device's own Purlin ID and that responses
come in order are the model's choices and readings (log 33, 65, 67, 72). -/
def Sys2Proof.Machine.Claims.Sends : Prop :=
  (∀ (s : State) (id : Nat) (m : InMessage), tfind s.inbound id = some m → (vfOf s m.vf).state ≠ 3 → m.total ≤ m.received →
    m.launch = false → landWaits s (some id) m 0 0 = false → s.bookPos ≤ completionPlace m.booking →
    let s1 := { s with inbound := tdel s.inbound id, bookPos := completionPlace m.booking }
    (bkPlace m.words ≠ 1 ∨ bkSpen m.words = false → exec (.messageCompletion id) s = .next (changeCounter s1 m.ctr 1)) ∧
    (bkPlace m.words = 1 → bkSpen m.words = true → bkSpctr m.words % 8 = 0 →
      let t := bkTile m.words
      let a := bkSpctr m.words
      let mine := tfind (tileOf s t).tags (a / 4096) = some m.vf
      landBlocked (tileOf s t) m.vf a 8 = false →
      ∃ u, exec (.messageCompletion id) s = .next (changeCounter u m.ctr 1) ∧ { u with tiles := s.tiles } = s1 ∧
        (∀ t', t' ≠ t → tileOf u t' = tileOf s t') ∧
        { tileOf u t with spad := (tileOf s t).spad, tags := (tileOf s t).tags } = tileOf s t ∧
        tfind (tileOf u t).tags (a / 4096) = some m.vf ∧
        (∀ k, k ≠ a / 4096 → tfind (tileOf u t).tags k = tfind (tileOf s t).tags k) ∧
        (mine → mword (tileOf u t).spad a = mword (tileOf s t).spad a + word m.placed) ∧
        (¬ mine → mword (tileOf u t).spad a = word m.placed) ∧
        (∀ x, x < a ∨ a + 8 ≤ x → (mine ∨ x / 4096 ≠ a / 4096 → mget (tileOf u t).spad x = mget (tileOf s t).spad x) ∧
          (¬ mine → x / 4096 = a / 4096 → mget (tileOf u t).spad x = 0)))) ∧
  (∀ (s : State) (c : CtrId) (w : Word),
    (isFrozen s (vfOfCtr s c.val) = true →
      exec (.counterIncrement c w) s = .next { s with heldCounts := s.heldCounts ++ [(c.val, w)] }) ∧
    (isFrozen s (vfOfCtr s c.val) = false →
      (∀ e ∈ s.bookings, e.2.ctr = c.val → e.2.armed = true → (tget 0 s.counters c.val + w).toNat < e.2.threshold) →
      exec (.counterIncrement c w) s = .next { s with
        counters := tset 0 s.counters c.val (tget 0 s.counters c.val + w), bookPos := max s.bookPos incrementPlace })) ∧
  (∀ (s : State) (id k : Nat) (o : OutSend) (p : OutPacket) (resp : List Byte), tfind s.outbound id = some o →
    o.packets[k]? = some p → p.acked = false → p.sent = true → p.port ≠ none → p.answer = 0 → p.backoff = none →
    o.send.op ≠ 2 → isFrozen s o.send.vf = false → o.send.done = none →
    let o' : OutSend := { o with packets := o.packets.set k { p with acked := true } }
    let s1 := { s with outbound := tput s.outbound id o' }
    exec (.ackArrival ⟨id, k⟩ resp) s = .next (if ∀ q ∈ o'.packets, q.acked = true then sendEnded s1 id o.send 0 else s1)) ∧
  (∀ (s : State) (id k : Nat) (o : OutSend) (p : OutPacket) (resp : List Byte), tfind s.outbound id = some o →
    o.packets[k]? = some p →
    (p.acked = false → p.sent = false ∨ p.port = none ∨ p.answer ≠ 0 ∨ p.backoff ≠ none →
      exec (.ackArrival ⟨id, k⟩ resp) s = .next s) ∧
    (p.acked = true → o.send.done = none → exec (.ackArrival ⟨id, k⟩ resp) s = .next (
      if (∀ q ∈ o.packets, q.acked = true) ∧ isFrozen s o.send.vf = false then sendEnded s id o.send 0 else s))) ∧
  (∀ (s : State) (id : Nat) (o : OutSend) (p : OutPacket) (v : VfId) (resp : List Byte), tfind s.outbound id = some o →
    o.packets = [p] → p.acked = false → p.sent = true → p.port ≠ none → p.answer = 0 → p.backoff = none → o.send.op = 2 →
    o.send.vf = some v → (vfOf s v).state ≠ 3 → o.send.done = none → o.send.notify = none → s.holds = [] →
    let bs := resp.take (o.send.length - o.got)
    writeWaits s (some v) (o.send.srcAddr.toNat + o.got) bs.length = false →
    ∃ u, exec (.ackArrival ⟨id, 0⟩ resp) s = .next u ∧
      { u with outbound := s.outbound } = ipaWrite s v (o.send.srcAddr.toNat + o.got) bs ∧
      (o.send.length ≤ o.got + bs.length → tfind u.outbound id = none) ∧
      (o.got + bs.length < o.send.length → tfind u.outbound id = some { o with got := o.got + bs.length })) ∧
  (∀ (s : State) (id k : Nat) (o : OutSend) (p : OutPacket), tfind s.outbound id = some o → o.packets[k]? = some p →
    p.acked = false → p.sent = true ∨ (packetWaits s o.send k = false ∧ s.holds = []) →
    let w0 := epWord (partOf s o.send.part) (bfld o.send.handle 11 0) 0
    let dev := bfld (epWord (partOf s o.send.part) (bfld o.send.handle 11 0) 1) 11 0
    let up := fun i : Nat => if bfld w0 19 16 = 2
      then (if dev = s.purlinId then i = 0 else i < 8 ∧ (tget 0 s.routes dev).getLsbD i = true ∧ (.purlin, i) ∉ s.linksDown)
      else i < 8 ∧ (.ethernet, i) ∉ s.linksDown
    let again := fun (i : Instr) => ∃ u o' p', exec i s = .next u ∧ tfind u.outbound id = some o' ∧ o'.send = o.send ∧
      (∀ j, o'.packets[j]? = if j = k then some p' else o.packets[j]?) ∧ SentAgain p p' ∧
      (p.sent = false → o.send.fromMem = false → o.send.op ≠ 2 → p'.bytes = (o.send.data.drop (4096 * k)).take
        (min 4096 (o.send.length - 4096 * k))) ∧
      ((∃ i, up i) → ∃ i, p'.port = some i ∧ up i) ∧ ((∀ i, ¬ up i) → p'.port = p.port ∧ p'.answer = 0) ∧
      { u with outbound := s.outbound, freeCtr := s.freeCtr } = s
    (p.backoff = none → p.answer ≤ 1 → p.tries ≤ 16 → p.ticks < 5000000 → again (.retransmitTimeout ⟨id, k⟩)) ∧
    (p.backoff = some 0 → again (.retryBackoffExpiry ⟨id, k⟩))) ∧
  (∀ (s : State) (id k : Nat) (o : OutSend) (p : OutPacket), tfind s.outbound id = some o → o.packets[k]? = some p →
    p.acked = false → p.backoff = none → 1 < p.answer ∨ 16 < p.tries ∨ 5000000 ≤ p.ticks →
    isFrozen s o.send.vf = false → o.send.done = none →
    exec (.retransmitTimeout ⟨id, k⟩) s = .next (sendEnded s id o.send 2))

/-- R405, R406, R410, R412: Purlin requests, links and host launches. A request is served only by a READY VF, with the key and
within its segment; a link's change is noted and reported, and a CXL port that goes down fails its transfers and stays down; a
launch packet with the next number goes to a booking, or to HOSTTHR when none matches, and one that breaks a condition is
ignored. That LINK_STATE of every kind of port goes to Keeper thread 0 and to each first Steward (log 47), the record of
answers, the order of the booking unit, and the packets counted while TEARING (log 62, 64, 65, 67) are the model's choices and
readings. -/
def Sys2Proof.Machine.Claims.Links : Prop :=
  (∀ (s : State) (r : PurlinReq), let f := vfOf s r.vf
    let n := if r.write then r.bytes.length else r.length
    let answered := fun (u : State) (a : Reply) (bs : List Byte) => { u with wire := u.wire ++ [WireOut.purlin a bs] }
    let fits := f.state = 2 ∧ f.freezeCtr = none ∧ r.key.toNat = f.purlinKey ∧ r.ipa + n ≤ f.segSize
    (f.state = 1 ∨ f.state = 3 ∨ (f.state = 2 ∧ f.freezeCtr ≠ none) →
      exec (.purlinRequest r) s = .next (answered s .retryLater [])) ∧
    (f.state = 0 ∨ 4 ≤ f.state ∨ (f.state = 2 ∧ f.freezeCtr = none ∧ ¬ fits) →
      exec (.purlinRequest r) s = .next (answered s .refused [])) ∧
    (fits → r.write = true → writeWaits s (some r.vf) r.ipa n = false →
      exec (.purlinRequest r) s = .next (answered (systemIpaWrite s r.vf r.ipa r.bytes) .ack [])) ∧
    (fits → r.write = false → rangeWaits s r.vf r.ipa n = false →
      exec (.purlinRequest r) s = .next (answered s .ack (ipaRead s r.vf r.ipa r.length)))) ∧
  (∀ (s : State) (k : PortKind) (n : Nat) (up : Bool), n < kindPorts k →
    (decide ((k, n) ∈ s.linksDown) = !up ∨ (k = .cxl ∧ up = true) → exec (.linkStateChange k n up) s = .next s) ∧
    (decide ((k, n) ∈ s.linksDown) = up → k ≠ .cxl ∨ up = false →
      ∃ u, exec (.linkStateChange k n up) s = .next u ∧
        u.linksDown = (if up = true then s.linksDown.erase (k, n) else s.linksDown ++ [(k, n)]) ∧
        (k ≠ .cxl → { u with linksDown := s.linksDown, downAt := s.downAt, threads := s.threads } = s) ∧
        (k = .purlin → up = false → tfind u.downAt n = some s.ik) ∧
        (partOfThread s 0 = none →
          ∃ e ∈ (thrOf u 0).queue ++ (thrOf u 0).waiting, e.summary = summaryWord 8 0 0 (kindCode k * 256 + n)) ∧
        (∀ q : PartId, (partOf u q).state ≠ 0 → partOfThread s (firstSteward s q) = some q →
          isStewardOf s q (firstSteward s q) = true → ∃ e ∈ (thrOf u (firstSteward u q)).queue ++ (thrOf u (firstSteward u q)).waiting,
          e.summary = summaryWord 8 0 0 (kindCode k * 256 + n)) ∧
        (∀ id x, k = .cxl → s.drovers = [(id, x)] → x.kind = .copy → x.unit.isSome = true → transferUses s x n = true →
          u.drovers = []))) ∧
  (∀ (s : State) (v : VfId) (m : Msg), let f := vfOf s v
    let s1 := { setVf s v { f with lastSeq := f.lastSeq + 1, launches := f.launches + 1 } with bookPos := 1536 }
    launchClean m = true → f.state = 2 → f.freezeCtr = none → f.launches < 256 →
    BitVec.ofNat 32 (bfld m.w0 63 32) = f.lastSeq + 1 → s.bookPos ≤ 1536 →
    (bookingFor s v .send 7 m.w1 = none →
      exec (.launch v m) s = .next (sendEvent s1 (Fin.ofNat 1024 f.hostThr)
        { summary := summaryWord 4 0 v.val (bfld m.w0 63 32), record := pad16 (msgWords m), launchVf := some v })) ∧
    (∀ num b, bookingFor s v .send 7 m.w1 = some (num, b) → ∃ x : InMessage, x.vf = v ∧ x.booking = num ∧ x.words = b.words ∧
      x.ctr = b.ctr ∧ x.tag = m.w1 ∧ x.slot = 7 ∧ x.launch = true ∧
      (bbit m.w0 0 = false → x.ext = none ∧ x.total = 48 ∧ x.received = 48 ∧
        x.data = wordBytes [m.w2, m.w3, m.w4, m.w5, m.w6, m.w7]) ∧
      (bbit m.w0 0 = true → x.ext = some m.w2 ∧ x.total = bfld m.w3 31 0 ∧ x.received = bfld m.w3 31 0) ∧
      exec (.launch v m) s = .next { s1 with bookings := tput s.bookings num { b with bound := b.bound + 1 },
                                             inbound := tput s.inbound s.seq x, seq := s.seq + 1 })) ∧
  (∀ (s : State) (v : VfId) (m : Msg), let f := vfOf s v
    (f.state = 4 → launchClean m = true →
      exec (.launch v m) s = .next (setVf s v { f with discarded := f.discarded + 1 })) ∧
    (launchClean m = false ∨ (f.state ≠ 2 ∧ f.state ≠ 4) ∨ (f.state = 2 ∧ (f.freezeCtr ≠ none ∨
        256 ≤ f.launches ∨ BitVec.ofNat 32 (bfld m.w0 63 32) ≠ f.lastSeq + 1)) →
      exec (.launch v m) s = .next s))

/-- Packets, messages, sends, links and launches: R387 to R392, R397, R399, R400, R403, R405, R406, R410, R412. -/
def Obligations.LinkTurns : Prop := Claims.Packets ∧ Claims.Sends ∧ Claims.Links

/-- R94 to R97: a VF record that a partition takes: no reserved bit set, a segment of whole 2 MiB inside the carve-out, 1 to 1007
threads of its Guest threads with FAULTTHR among them, ASIDs up to 255, a weight, a guarantee that the partition's share still
holds, and nothing that a live VF holds. The partition is ACTIVE and is not being deleted (R117, R125). -/
def VfRecordOk (s : State) (p : PartId) (ws : List Word) : Prop :=
  let z := fun k hi lo => bfld (recw ws k) hi lo
  let q := partOf s p
  let apart := fun a n b m : Nat => n = 0 ∨ m = 0 ∨ a + n ≤ b ∨ b + m ≤ a
  q.state = 1 ∧ q.deleting = none ∧
  (z 0 63 48 = 0 ∧ z 1 63 48 = 0 ∧ z 2 31 18 = 0 ∧ z 2 63 50 = 0 ∧ z 4 31 26 = 0 ∧ z 4 63 48 = 0 ∧ z 5 15 11 = 0 ∧
    z 5 63 27 = 0 ∧ recw ws 6 = 0 ∧ recw ws 7 = 0) ∧
  z 0 47 0 % 2 ^ 21 = 0 ∧ z 1 47 0 % 2 ^ 21 = 0 ∧ z 1 47 0 ≠ 0 ∧
  q.carveBase ≤ z 0 47 0 ∧ z 0 47 0 + z 1 47 0 ≤ q.carveBase + q.carveSize ∧
  z 4 7 0 + z 4 15 8 ≤ 255 ∧ z 4 47 32 ≠ 0 ∧
  (1 ≤ z 5 26 16 ∧ z 5 26 16 ≤ 1007 ∧ q.thrFirst + q.stewCount ≤ z 5 10 0 ∧
    z 5 10 0 + z 5 26 16 ≤ q.thrFirst + q.thrCount ∧ z 5 10 0 ≤ z 4 25 16 ∧ z 4 25 16 < z 5 10 0 + z 5 26 16) ∧
  ((vfsOf s p).map fun o => (vfOf s o).jqGuar).sum + z 2 17 0 ≤ q.jqShare ∧
  ∀ o, (vfOf s o).state ≠ 0 → let g := vfOf s o
    apart (z 0 47 0) (z 1 47 0) g.segBase g.segSize ∧ apart (z 5 10 0) (z 5 26 16) g.gtFirst g.gtCount ∧
    (z 4 7 0 + z 4 15 8 < g.asidFirst ∨ g.asidFirst + g.asidCount < z 4 7 0)

/-- R96: the VF that a record describes, CREATED in its partition. -/
def vfRecordRule (p : PartId) (ws : List Word) : Vf :=
  let z := fun k hi lo => bfld (recw ws k) hi lo
  { state := 1, part := p, segBase := z 0 47 0, segSize := z 1 47 0, jqGuar := z 2 17 0, jqBurst := z 2 49 32,
    frGuar := z 3 31 0, frBurst := z 3 63 32, asidFirst := z 4 7 0, asidCount := z 4 15 8, faultThr := z 4 25 16,
    weight := z 4 47 32, gtFirst := z 5 10 0, gtCount := z 5 26 16 }

/-- The partitions that stand. -/
def standing (s : State) : List Partition := ((allFin 40).map (partOf s)).filter fun q => decide (q.state ≠ 0)

/-- `n` counters from `c` lie outside every partition's share. -/
def CountersFree (s : State) (n c : Nat) : Prop :=
  c + n ≤ 65536 ∧ ∀ q ∈ standing s, n = 0 ∨ q.ctrShare = 0 ∨ c + n ≤ q.ctrFirst ∨ q.ctrFirst + q.ctrShare ≤ c

/-- R93, R94: a partition record that is taken: no reserved bit set, a bay, ranges of whole 2 MiB in HBM, counts within their
bounds, shares that still fit (the counters' in one run, log 16), and nothing that a standing partition holds. -/
def PartRecordOk (s : State) (ws : List Word) : Prop :=
  let z := fun k hi lo => bfld (recw ws k) hi lo
  let apart := fun a n b m : Nat => n = 0 ∨ m = 0 ∨ a + n ≤ b ∨ b + m ≤ a
  let fits := fun (f : Partition → Nat) (n top : Nat) => n + ((standing s).map f).sum ≤ top
  (z 1 63 48 = 0 ∧ z 2 63 48 = 0 ∧ z 3 63 48 = 0 ∧ z 4 63 48 = 0 ∧ z 5 63 50 = 0 ∧ z 5 31 27 = 0 ∧ z 5 15 11 = 0 ∧
    z 6 31 17 = 0 ∧ z 7 63 58 = 0 ∧ z 7 31 17 = 0) ∧
  recw ws 0 ≠ 0 ∧ z 1 47 0 % 2 ^ 21 = 0 ∧ z 2 47 0 % 2 ^ 21 = 0 ∧ z 2 47 0 ≠ 0 ∧ z 3 47 0 % 2 ^ 21 = 0 ∧ z 4 47 0 % 2 ^ 21 = 0 ∧
  z 1 47 0 + z 2 47 0 ≤ hbmEnd ∧ z 3 47 0 + z 4 47 0 ≤ hbmEnd ∧ apart (z 1 47 0) (z 2 47 0) (z 3 47 0) (z 4 47 0) ∧
  (1 ≤ z 5 49 32 ∧ z 5 49 32 ≤ 131072) ∧ (1 ≤ z 5 26 16 ∧ z 5 26 16 ≤ 1008) ∧ (16 ≤ z 5 10 0 ∧ z 5 10 0 ≤ 1023) ∧
  z 5 10 0 + z 5 26 16 ≤ 1024 ∧ (1 ≤ z 6 56 49 ∧ z 6 56 49 ≤ 128) ∧ z 6 63 57 + z 6 56 49 ≤ 128 ∧
  (1 ≤ z 6 48 32 ∧ z 6 48 32 ≤ 65536) ∧ z 6 16 0 ≤ 65536 ∧ (1 ≤ z 7 57 48 ∧ z 7 57 48 ≤ z 5 26 16) ∧
  z 7 47 32 ≤ 32768 ∧ z 7 16 0 ≤ 65536 ∧
  fits (·.jqShare) (z 5 49 32) 131072 ∧ fits (·.ctrShare) (z 6 48 32) 65536 ∧ fits (·.bkShare) (z 6 16 0) 65536 ∧
  fits (·.lodgeShare) (z 7 47 32) 32768 ∧ fits (·.parlShare) (z 7 16 0) 65536 ∧ (∃ c, CountersFree s (z 6 48 32) c) ∧
  ∀ q ∈ standing s, recw ws 0 &&& q.bays = 0 ∧ apart (z 1 47 0) (z 2 47 0) q.carveBase q.carveSize ∧
    apart (z 1 47 0) (z 2 47 0) q.loanBase q.loanSize ∧ apart (z 3 47 0) (z 4 47 0) q.carveBase q.carveSize ∧
    apart (z 3 47 0) (z 4 47 0) q.loanBase q.loanSize ∧ apart (z 5 10 0) (z 5 26 16) q.thrFirst q.thrCount ∧
    apart (z 6 63 57) (z 6 56 49) q.vfFirst q.vfCount

/-- R93, R94, R101: a partition has been made from a record: it holds what the record says, the lowest counters that are free,
and bookings; its threads are fresh and held, its first STEWCOUNT at Steward level; nothing else has changed. -/
def PartMade (s : State) (p : PartId) (ws : List Word) (u : State) : Prop :=
  let z := fun k hi lo => bfld (recw ws k) hi lo
  let q := partOf u p
  q = { state := 1, bays := recw ws 0, carveBase := z 1 47 0, carveSize := z 2 47 0, loanBase := z 3 47 0, loanSize := z 4 47 0,
        jqShare := z 5 49 32, thrCount := z 5 26 16, thrFirst := z 5 10 0, vfFirst := z 6 63 57, vfCount := z 6 56 49,
        ctrShare := z 6 48 32, bkShare := z 6 16 0, stewCount := z 7 57 48, lodgeShare := z 7 47 32, parlShare := z 7 16 0,
        ctrFirst := q.ctrFirst, bkRuns := q.bkRuns, mr2 := extendMr 0 (sm3 (wordBytes ws)) } ∧
  CountersFree s q.ctrShare q.ctrFirst ∧ (∀ c, CountersFree s q.ctrShare c → q.ctrFirst ≤ c) ∧
  (∀ o, o ≠ p → partOf u o = partOf s o) ∧
  (∀ n : ThreadId, thrOf u n = if q.thrFirst ≤ n.val ∧ n.val < q.thrFirst + q.thrCount then
    (let l := if n.val < q.thrFirst + q.stewCount then 1 else 0
     { level := l, home := l, held := true }) else thrOf s n) ∧
  (∀ c, tget 0 u.counters c = if q.ctrFirst ≤ c ∧ c < q.ctrFirst + q.ctrShare then 0 else tget 0 s.counters c) ∧
  { u with parts := s.parts, threads := s.threads, counters := s.counters, bookings := s.bookings } = s

/-- A command in progress of a VF has ended: RESULT reads 0 for the thread that wrote it, where its VFSTAT still shows it. -/
def readsDone (s : State) (v : VfId) (n : Option ThreadId) : State :=
  match n with
  | none => s
  | some n => if (thrOf s n).vfstat = BitVec.ofNat 64 (512 + v.val)
    then setThr s n { thrOf s n with vfstat := BitVec.ofNat 64 v.val } else s

/-- R93 to R97, R99, R104, R122, R414: VFCTL. A command reads back as done, rejected or in progress, and its counter advances
when it ends; a VF that does not lie in the writer's partition raises PRIVILEGE. CREATE takes the records that R94 to R97 allow,
and makes what its record says, armed breakpoints kept; FREEZE asks the VF's gangs to leave and completes when it is quiet; TEAR
removes its gangs at once and counts what it discards, and its end leaves the VF ABSENT, with nothing of it in the queue, the
tables or its memory, and CONTEXT_GONE as the last entry of its host's ring. What becomes of host launches at FREEZE and of
counters held for a FROZEN VF, handle generations, the end of a FREEZE by TEAR, that a host without a ring has no last entry,
and how an ABSENT VF's numbers are tested are the model's choices and readings (log 33, 34, 49, 50, 67). -/
def Sys2Proof.Machine.Claims.VirtualFunctions : Prop :=
  (∀ (s : State) (p : PartId) (v : VfId) (w : List Word),
    (VfRecordOk s p w → createVf s p v w = some (setVf s v { vfRecordRule p w with
      mr4 := extendMr 0 (sm3 (wordBytes w)), breakpoints := (vfOf s v).breakpoints })) ∧
    (¬ VfRecordOk s p w → createVf s p v w = none)) ∧
  (∀ (s : State) (n : ThreadId) (x : Word),
    (vfctl s n x = none ↔ ∀ p, partOfThread s n = some p → partOfVf s (Fin.ofNat 128 (bfld x 6 0)) ≠ some p) ∧
    (bfld x 10 8 = 0 ∨ 5 ≤ bfld x 10 8 → ∀ u, vfctl s n x = some u → u = s)) ∧
  (∀ (s : State) (n : ThreadId) (p : PartId) (x : Word), partOfThread s n = some p → 1 ≤ levelOf s n →
    partOfVf s (Fin.ofNat 128 (bfld x 6 0)) = some p → stewardCtr s p (bfld x 31 16) = false →
    ∀ k i, (k, i) ∈ [(1, Instr.vfctlCreate n x), (2, .vfctlFreeze n x), (3, .vfctlUnfreeze n x), (4, .vfctlTear n x)] →
      bfld x 10 8 = k →
      exec i s = .next (setThr s n { thrOf s n with vfstat := BitVec.ofNat 64 (256 + bfld x 6 0) })) ∧
  (∀ (s : State) (n : ThreadId) (p : PartId) (x : Word), partOfThread s n = some p → 1 ≤ levelOf s n →
    let v : VfId := Fin.ofNat 128 (bfld x 6 0)
    let c := (partOf s p).ctrFirst + bfld x 31 16
    let said := fun (u : State) (r : Nat) => setThr u n { thrOf u n with vfstat := BitVec.ofNat 64 (r * 256 + bfld x 6 0) }
    partOfVf s v = some p → stewardCtr s p (bfld x 31 16) = true →
    (bfld x 10 8 = 1 → exec (.vfctlCreate n x) s = .next (
      match (if (vfOf s v).state = 0 then createVf s p v (storeWords (thrOf s n) (bfld x 63 32 / 8 * 8) 8) else none) with
      | some s1 => addCounter (said s1 0) c 1
      | none => addCounter (said s 1) c 1)) ∧
    (bfld x 10 8 = 2 → ((vfOf s v).state ≠ 2 ∨ (vfOf s v).freezeCtr ≠ none →
        exec (.vfctlFreeze n x) s = .next (addCounter (said s 1) c 1)) ∧
      ((vfOf s v).state = 2 → (vfOf s v).freezeCtr = none → ∃ u, exec (.vfctlFreeze n x) s = .next u ∧
        { vfOf u v with relaunch := (vfOf s v).relaunch } =
          { vfOf s v with freezeCtr := some (some c), cmdThread := some n } ∧
        (∀ e ∈ u.inbound, e.2.vf = v → e.2.launch = false ∧ e.2.total ≤ e.2.received) ∧
        (thrOf u n).vfstat = BitVec.ofNat 64 (512 + bfld x 6 0) ∧ u.mem = s.mem ∧
        ∀ id g, (id, g) ∈ s.gangs → gangOf s id = some g → g.vf = v → g.state = .placed ∨ g.state = .running →
          (gangOf u id).map Gang.preq = some true)) ∧
    (bfld x 10 8 = 3 → exec (.vfctlUnfreeze n x) s = .next (
      if (vfOf s v).state = 3 then addCounter (said (unfreezeVf s v) 0) c 1 else addCounter (said s 1) c 1)) ∧
    (bfld x 10 8 = 4 → ((vfOf s v).state = 0 ∨ 4 ≤ (vfOf s v).state →
        exec (.vfctlTear n x) s = .next (addCounter (said s 1) c 1)) ∧
      (1 ≤ (vfOf s v).state → (vfOf s v).state ≤ 3 → ∃ u, exec (.vfctlTear n x) s = .next u ∧
        (vfOf u v).state = 4 ∧ (vfOf u v).tearCtr = some (some c) ∧ (vfOf u v).gtCount = 0 ∧ (vfOf u v).freezeCtr = none ∧
        (let now := if s.selected then s else selectPhase s
         (vfOf u v).discarded = if (vfOf s v).readyAt = some s.ik then 0 else
           (vfOf s v).launches + (s.arrivals.filter (launchOf v)).length +
           (now.gangs.filter fun g =>
             decide (g.2.vf = v ∧ g.2.state = .placed ∧ g.2.placedAt = some now.portCycle)).length +
           ((partOf now (vfOf now v).part).cards.filter fun c => decide (c.2.activeAt = some now.portCycle ∧
             (tfind now.entries c.2.entry).bind (entryVf now) = some v)).length) ∧
        (∀ a ∈ u.arrivals, launchOf v a = false) ∧
        (thrOf u n).vfstat = BitVec.ofNat 64 (512 + bfld x 6 0) ∧ (∀ e ∈ u.gangs, e.2.vf ≠ v) ∧
        (∀ e ∈ u.bookings, e.2.vf = some v → e.2.armed = false) ∧ ∀ e ∈ u.inbound, e.2.vf ≠ v))) ∧
  (∀ (s : State) (v : VfId), (vfOf s v).state = 3 → (vfOf s v).relaunch = [] →
    ((∀ e ∈ s.heldCounts, vfOfCtr s e.1 ≠ some v) → (vfOf (unfreezeVf s v) v).state = 2 ∧
      (unfreezeVf s v).mem = s.mem ∧ (unfreezeVf s v).tiles = s.tiles ∧ (unfreezeVf s v).counters = s.counters) ∧
    (∀ c w, s.heldCounts = [(c, w)] → vfOfCtr s c = some v →
      (∀ e ∈ s.bookings, e.2.ctr = c → e.2.armed = true → (tget 0 s.counters c + w).toNat < e.2.threshold) →
      (vfOf (unfreezeVf s v) v).state = 2 ∧ (unfreezeVf s v).heldCounts = [] ∧
        (unfreezeVf s v).counters = tset 0 s.counters c (tget 0 s.counters c + w))) ∧
  (∀ (s : State) (v : VfId) (c : Option Nat), (vfOf s v).freezeCtr = some c → (vfOf s v).state = 2 →
    let still := (∀ g ∈ s.gangs, g.2.vf = v → g.2.tiles = []) ∧
      (∀ n : ThreadId, (vfOf s v).gtFirst ≤ n.val → n.val < (vfOf s v).gtFirst + (vfOf s v).gtCount → (thrOf s n).handler = none) ∧
      ∀ m ∈ s.inbound, m.2.vf ≠ v
    (still → exec (.freezeComplete v) s =
      .next (addDone (readsDone (setVf s v { vfOf s v with state := 3, freezeCtr := none }) v (vfOf s v).cmdThread) c)) ∧
    (¬ still → exec (.freezeComplete v) s = .next s)) ∧
  (∀ (s : State) (v : VfId) (c : Option Nat), let f := vfOf s v
    f.tearCtr = some c → f.state = 4 →
    ((∃ t, ∃ p ∈ (tileOf s t).publishes, p.vf = v) ∨
        (4 ≤ f.cplLog2 ∧ (f.cplWaiting ≠ [] ∨ (f.cplNext - f.cplHead).toNat = 2 ^ f.cplLog2)) →
      exec (.teardownComplete v) s = .next s) ∧
    ((∀ t, ∀ p ∈ (tileOf s t).publishes, p.vf ≠ v) →
      (4 ≤ f.cplLog2 → f.cplWaiting = [] ∧ (f.cplNext - f.cplHead).toNat ≠ 2 ^ f.cplLog2) →
      (partOf s f.part).deleting = none →
      let told := fun u : State => if f.cplLog2 < 4 then u else
        let i := f.cplNext.toNat % 2 ^ f.cplLog2
        let u1 := physWrite u (hostBase + f.cplBase.toNat + 32 * i)
          (wordBytes [word (f.cplNext.toNat % 2 ^ 32 * 2 ^ 32), 5, word f.discarded, 0])
        { u1 with wire := u.wire ++ if bbit f.msix 0 then [.interrupt v (bfld f.msix 10 1)] else [] }
      ∃ u, exec (.teardownComplete v) s = .next (addDone (readsDone (setVf (told u) v {}) v f.cmdThread) c) ∧
        vfOf u v = f ∧ (∀ e ∈ u.entries, entryVf s e.2 ≠ some v) ∧
        (∀ e ∈ u.lodging, e.2.vf ≠ v) ∧ (∀ e ∈ u.bookings, e.2.vf ≠ some v) ∧
        (∀ e ∈ u.outbound, e.2.send.vf ≠ some v) ∧
        (∀ a, f.segBase ≤ a → a < f.segBase + f.segSize → mget u.mem a = 0) ∧
        (∀ c, (partOf s f.part).ctrFirst ≤ c → ctrOfVf f (c - (partOf s f.part).ctrFirst) = true →
          tget 0 u.counters c = 0) ∧
        (∀ e ∈ u.owners, e.2.toNat ≠ v.val + 1) ∧ (∀ a ∈ u.arrivals, portWorkOf v a = false) ∧
        ∀ t, ∀ e ∈ (tileOf u t).tlb, ¬ (f.asidFirst ≤ e.asid ∧ e.asid ≤ f.asidFirst + f.asidCount)))

/-- R94, R104, R117, R125: PARTCTL. CREATE takes the records that R94 allows and makes what its record says, its threads held and
its shares fresh; PART 40 to 63 and a counter that is not the Keeper level's are rejected; DELETE tears every VF down; a FAULTED
partition loses its VFs. Where a share's counters lie is the model's choice (log 16). -/
def Sys2Proof.Machine.Claims.Partitions : Prop :=
  (∀ (s : State) (p : PartId) (w : List Word),
    (PartRecordOk s w → ∃ u, createPart s p w = some u ∧ PartMade s p w u) ∧
    (¬ PartRecordOk s w → createPart s p w = none)) ∧
  (∀ (s : State) (n : ThreadId) (x : Word), levelOf s n = 2 → bfld x 5 0 < 40 → keeperCtr s (bfld x 31 16) = true →
    let p : PartId := Fin.ofNat 40 (bfld x 5 0)
    let said := fun (u : State) (r : Nat) => setThr u n { thrOf u n with partstat := BitVec.ofNat 64 (r * 256 + bfld x 5 0) }
    (bfld x 10 8 = 1 → exec (.partctlCreate n x) s = .next (
      match (if (partOf s p).state = 0 then createPart s p (storeWords (thrOf s n) (bfld x 63 32 / 8 * 8) 8) else none) with
      | some s1 => addCounter (said s1 0) (bfld x 31 16) 1
      | none => addCounter (said s 1) (bfld x 31 16) 1)) ∧
    (bfld x 10 8 = 2 → exec (.partctlDelete n x) s = .next (
      if (partOf s p).state = 0 ∨ (partOf s p).deleting.isSome then addCounter (said s 1) (bfld x 31 16) 1
      else finishDelete (tearAll (setPart (said s 2) p
        { partOf s p with deleting := some (some (bfld x 31 16)), deleteThread := some n }) (vfsOf s p)) p))) ∧
  (∀ (s : State) (n : ThreadId) (x : Word), levelOf s n = 2 →
    let said := setThr s n { thrOf s n with partstat := BitVec.ofNat 64 (256 + bfld x 5 0) }
    ∀ k i, (k, i) ∈ [(1, Instr.partctlCreate n x), (2, .partctlDelete n x)] → bfld x 10 8 = k →
      (keeperCtr s (bfld x 31 16) = false → exec i s = .next said) ∧
      (keeperCtr s (bfld x 31 16) = true → 40 ≤ bfld x 5 0 → exec i s = .next (addCounter said (bfld x 31 16) 1))) ∧
  (∀ (s : State) (p : PartId), (partOf s p).state = 1 →
    ∃ u, exec (.partitionFault p) s = .next u ∧ (partOf u p).state = 2 ∧
      ∀ v, (vfOf s v).part = p → 1 ≤ (vfOf s v).state → (vfOf s v).state ≤ 3 → (vfOf u v).state = 4)

/-- R104, R118 to R121: debug commands halt, resume and abort a task and arm breakpoints, and raise PRIVILEGE for another
partition's tile or VF; DBGDATA reads and writes what DBGSEL selects. The layout of spaces 5 and 6, the record of a halt on an
idle tile, that ABORT acts at once, and what a Keeper sees are the model's choices (log 35, 51). -/
def Sys2Proof.Machine.Claims.Debugging : Prop :=
  (∀ (s : State) (n : ThreadId) (x : Word),
    (dbgctl s n x = none ↔
      (1 ≤ bfld x 10 8 ∧ bfld x 10 8 ≤ 3 ∧
        ∀ p, partOfThread s n = some p → tileInPart (partOf s p) (Fin.ofNat 256 (bfld x 7 0)) = false) ∨
      (4 ≤ bfld x 10 8 ∧ bfld x 10 8 ≤ 5 ∧
        ∀ p, partOfThread s n = some p → partOfVf s (Fin.ofNat 128 (bfld x 6 0)) ≠ some p)) ∧
    (bfld x 10 8 = 0 ∨ 6 ≤ bfld x 10 8 → dbgctl s n x = some s)) ∧
  (∀ (s : State) (n : ThreadId) (p : PartId) (x : Word), partOfThread s n = some p → 1 ≤ levelOf s n →
    let t : TileId := Fin.ofNat 256 (bfld x 7 0)
    let v : VfId := Fin.ofNat 128 (bfld x 6 0)
    (tileInPart (partOf s p) t = true →
      (bfld x 10 8 = 1 → (∀ k, (tileOf s t).task = some k → (tileOf s t).debug = .none →
          exec (.dbgctlHalt n x) s = .next (setTile s t { tileOf s t with debug := .halting n 0x14 (tileOf s t).s.pc })) ∧
        ((tileOf s t).task = none → exec (.dbgctlHalt n x) s =
          .next (sendEvent s n (faultEvent (faultRecord s t.val 0 0 0 0 0 0x14 0 1 0 0 0 0 0 0) 0)))) ∧
      (bfld x 10 8 = 2 → ∀ k, (tileOf s t).debug = .halted → (tileOf s t).task = some k →
        let T : Tile := { tileOf s t with debug := .none, heldTrap := none }
        let T' : Tile := match T.sWait with
          | .ckpt ws => { T with sWait := .saved (savedCheckpoint T k ws) }
          | _ => T
        let s1 := modGang (setTile s t T') k.gang fun g =>
          { g with resumes := tput g.resumes k.rank (tget 0 g.resumes k.rank + 1) }
        exec (.dbgctlResume n x) s = .next (match (tileOf s t).heldTrap with
          | none => s1
          | some h => tileTrapAt s1 t h.src h.cause h.pc h.val h.issued)) ∧
      (bfld x 10 8 = 3 → ∀ k, (tileOf s t).debug = .halted → (tileOf s t).task = some k →
        exec (.dbgctlAbort n x) s = .next (abortGang s k.gang))) ∧
    (partOfVf s v = some p →
      (bfld x 10 8 = 4 → exec (.dbgctlBparm n x) s = .next (setVf s v { vfOf s v with breakpoints := some n })) ∧
      (bfld x 10 8 = 5 → exec (.dbgctlBpdisarm n x) s = .next (setVf s v { vfOf s v with breakpoints := none })))) ∧
  (∀ (s : State) (t : TileId) (n : ThreadId) (cause : Nat) (pc : Word) (k : Task), let T := tileOf s t
    T.debug = .halting n cause pc → T.task = some k → (∀ c ∈ T.cmdsM ++ T.cmdsA, c.started = true → c.landed = true) →
    exec (.haltReport t) s = .next (sendEvent (setTile s t { T with debug := .halted }) n
      (faultEvent (tileRecord s t k 0 0 0 cause pc (if cause = 0x13 then pc else 0)) k.vf.val))) ∧
  (∀ (s : State) (n : ThreadId) (p : PartId) (r : XReg) (x : Word), let h := thrOf s n
    let t : TileId := Fin.ofNat 256 (bfld h.dbgsel 7 0)
    let next := BitVec.ofNat 64 ((8 * r.val + 8) % 512 * 2 ^ 32 + 2 ^ 8 + bfld h.dbgsel 7 0)
    1 ≤ levelOf s n → bfld h.dbgsel 11 8 = 1 → bfld h.dbgsel 52 32 = 8 * r.val →
    (partOfThread s n = some p → tileInPart (partOf s p) t = true → (tileOf s t).debug = .halted →
      exec (.dbgdataRead n) s = .next (setThr s n { h with dbgsel := next, dbgErr := false }) ∧
      exec (.dbgdataWrite n x) s = .next (setThr
        (setTile s t { tileOf s t with x := xset (tileOf s t).x r x }) n { h with dbgsel := next, dbgErr := false })) ∧
    ((tileOf s t).debug ≠ .halted →
      exec (.dbgdataRead n) s = .next (setThr s n { h with dbgsel := next, dbgErr := true }) ∧
      exec (.dbgdataWrite n x) s = .next (setThr s n { h with dbgsel := next, dbgErr := true }))) ∧
  (∀ (s : State) (n : ThreadId) (p : PartId) (i : Fin 4) (x : Word), let h := thrOf s n
    let t : TileId := Fin.ofNat 256 (bfld h.dbgsel 7 0)
    1 ≤ levelOf s n → bfld h.dbgsel 11 8 = 6 → bfld h.dbgsel 52 32 = 32 + 8 * i.val →
    partOfThread s n = some p → tileInPart (partOf s p) t = true → (tileOf s t).debug = .halted →
    exec (.dbgdataWrite n x) s = .next (setThr
      (setTile s t (modStrm (tileOf s t) (streamNo i.val) fun c => { c with fpsr := x &&& 0x3F })) n
      { h with dbgsel := BitVec.ofNat 64 ((40 + 8 * i.val) % 64 * 2 ^ 32 + 6 * 2 ^ 8 + bfld h.dbgsel 7 0), dbgErr := false })) ∧
  (∀ (s : State) (n : ThreadId) (x : Word), 1 ≤ levelOf s n →
    let w := (thrOf s n).dbgsel
    exec (.dbgdataRead n) s = .next (debugMoved s n s) ∧
    (seenHalted s n (w.toNat % 256) = false → exec (.dbgdataWrite n x) s = .next (debugMoved s n s)) ∧
    (seenHalted s n (w.toNat % 256) = true → (dbgSpace w = 6 → ∀ st, (strm (tileOf s (dbgTile w)) st).fpsr.toNat < 64) →
      ∃ U, DebugWritten (tileOf s (dbgTile w)) U (dbgSpace w) (dbgOffset w) x ∧
        exec (.dbgdataWrite n x) s = .next (debugMoved s n (setTile s (dbgTile w) U)))) ∧
  (∀ (s : State) (n : ThreadId) (x : Word), 1 ≤ levelOf s n →
    exec (.dbgselWrite n x) s = .next (setThr s n { thrOf s n with dbgsel := x &&& 0x001FFFFF00000FFF, dbgErr := false })) ∧
  (∀ (s : State) (x : Word),
    (∀ n, s.cur = .thread n → exec (.fpcrWrite x) s = .next (setThr s n
      { thrOf s n with fpcr := (fpcrRule (thrOf s n).fpcr x).1, gen := (fpcrRule (thrOf s n).fpcr x).2 })) ∧
    (∀ t st, s.cur = .tile t st → let c := (tileOf s t).s
      exec (.fpcrWrite x) s = .next (setTile s t
        { tileOf s t with s := { c with fpcr := (fpcrRule c.fpcr x).1, gen := (fpcrRule c.fpcr x).2 } })))

/-- R93 to R97, R99, R104, R122, R414: VFCTL. A command reads back as done, rejected or in progress, and its counter advances
when it ends; a VF that does not lie in the writer's partition raises PRIVILEGE. CREATE takes the records that R94 to R97 allow,
and makes what its record says, armed breakpoints kept; FREEZE asks the VF's gangs to leave and completes when it is quiet; TEAR
removes its gangs at once and counts what it discards, and its end leaves the VF ABSENT, with nothing of it in the queue, the
tables or its memory, and CONTEXT_GONE as the last entry of its host's ring. What becomes of host launches at FREEZE and of
counters held for a FROZEN VF, handle generations, the end of a FREEZE by TEAR, that a host without a ring has no last entry,
and how an ABSENT VF's numbers are tested are the model's choices and readings (log 33, 34, 49, 50, 67).
R94, R104, R117, R125: PARTCTL. CREATE takes the records that R94 allows and makes what its record says, its threads held and
its shares fresh; PART 40 to 63 and a counter that is not the Keeper level's are rejected; DELETE tears every VF down; a FAULTED
partition loses its VFs. Where a share's counters lie is the model's choice (log 16).
R104, R118 to R121: debug commands halt, resume and abort a task and arm breakpoints, and raise PRIVILEGE for another
partition's tile or VF; DBGDATA reads and writes what DBGSEL selects. The layout of spaces 5 and 6, the record of a halt on an
idle tile, that ABORT acts at once, and what a Keeper sees are the model's choices (log 35, 51). -/
def Obligations.ContextTurns : Prop := Claims.VirtualFunctions ∧ Claims.Partitions ∧ Claims.Debugging

/-- R419 to R425, R430, R431: bring-up. The ROM boots the slot it chooses, measured, with Keeper threads 0 to 15 at its first
word, or runs the recovery loader; the loader writes a staged image that verifies to slot A and then both markers, and resets
when they are written; an update writes the slot that does not run, and then the marker copy that does not name the running one;
power comes and goes, and a write that it cuts leaves only its own bytes torn; a die's clock steps by 50 MHz between 400 and 800,
down while the package draws more than its limit. The staging buffer's place and the writes' pieces, and what stands for the
package's power, are the model's own (log 5, 66). -/
def Sys2Proof.Machine.Claims.Bringup : Prop :=
  (∀ s : State, s.power = .bootPending → ∃ u, exec .boot s = .next u ∧
    match chosenSlot s with
    | none => u = { s with power := .recovery }
    | some (b, seq) =>
      let body := imageBody (slotImage s b)
      u.power = .booted ∧ u.bootSlot = b ∧ u.bootSeq = seq ∧ u.pfState = 1 ∧ u.tiles = s.tiles ∧ u.mem = s.mem ∧
        u.firmwareSize = body.length ∧ (∀ o x, body[o]? = some x → mget u.firmware o = x) ∧
        u.mr0 = extendMr 0 Config.romDigest ∧ u.mr1 = extendMr 0 (sm3 body) ∧
        (∀ n : ThreadId, 16 ≤ n.val → thrOf u n = thrOf s n) ∧
        ∀ n : ThreadId, n.val < 16 → let h := thrOf u n
          h.held = false ∧ h.pc = 0 ∧ h.level = 2 ∧ h.wait = .none ∧ h.fpcr = 0 ∧
            ∀ r, vget h.x r = if r = 1 then BitVec.ofNat 64 n.val else if r = 2 then 2 else 0) ∧
  (∀ (s : State) (n : Nat), s.power = .recovery → s.flashWrites = [] → n ≤ 24 * 2 ^ 20 →
    let img := mread s.mem 0 n
    let m := markerBytes (nextMarker s) false
    exec (.recoveryImage n) s = .next (if imageVerifies img = true then { s with flashWrites :=
      [{ offset := 0x100000, bytes := img }, { offset := 0, bytes := m }, { offset := 0x10000, bytes := m }] } else s)) ∧
  (∀ (seq : Word) (slot : Bool), let b := markerBytes seq slot
    b.length = 64 ∧ leNat (b.take 8) = 0x4B52414D ∧ leNat ((b.drop 8).take 8) = seq.toNat ∧
      leNat ((b.drop 16).take 8) = slot.toNat ∧ leNat ((b.drop 24).take 8) = 0 ∧
      leNat (b.drop 32) = (sm3 (b.take 32)).toNat) ∧
  (∀ s : State, ((∀ m, markerValid s m = false) → nextMarker s = 1) ∧
    ∀ m, markerValid s m = true → (∀ m', markerValid s m' = true → (markerSeq s m').toNat ≤ (markerSeq s m).toNat) →
      nextMarker s = markerSeq s m + 1) ∧
  (∀ (s : State) (w : FlashWrite) (ws : List FlashWrite) (n : Nat), s.flashWrites = w :: ws →
    s.power = .booted ∨ s.power = .recovery →
    let u := runWorld s (.flashStep n)
    u.flash = mwrite s.flash w.offset (w.bytes.take n) ∧
    (n < w.bytes.length → u = { s with flash := u.flash, flashWrites := ⟨w.offset + n, w.bytes.drop n⟩ :: ws }) ∧
    (w.bytes.length ≤ n → (ws ≠ [] ∨ s.power = .booted → u = { s with flash := u.flash, flashWrites := ws }) ∧
      (ws = [] → s.power = .recovery → u.power = .bootPending ∧ u.flashWrites = [] ∧ u.threads = State.reset.threads ∧
        u.tiles = State.reset.tiles))) ∧
  (∀ (s : State) (img : List Byte), s.power = .booted → s.flashWrites = [] →
    (img.length ≤ 24 * 2 ^ 20 → runWorld s (.updateImage img) =
      { s with flashWrites := [⟨if s.bootSlot = true then 0x100000 else 0x1900000, img⟩] }) ∧
    (imageVerifies (slotImage s !s.bootSlot) = true → ∃ m : Bool, runWorld s .updateMarker =
      { s with flashWrites := [⟨if m then 0x10000 else 0, markerBytes (nextMarker s) !s.bootSlot⟩] } ∧
      let names := fun c => markerValid s c = true ∧ markerSlot s c = s.bootSlot ∧ markerSeq s c = s.bootSeq
      (∃ c, names c) → names !m)) ∧
  (∀ (s : State) (ok : Bool), s.power = .off →
    exec (.powerOn ok) s = .next { s with power := if ok then .bootPending else .heldInReset }) ∧
  (∀ (s : State) (cut : Option FlashCut), ∃ u, exec (.powerLoss cut) s = .next u ∧ u.power = .off ∧
    u.tiles = State.reset.tiles ∧ u.threads = State.reset.threads ∧ u.vfs = State.reset.vfs ∧ u.parts = State.reset.parts ∧
    (s.flashWrites = [] → u.flash = s.flash) ∧
    (∀ w ws, s.flashWrites = w :: ws → ∀ a, a < w.offset ∨ w.offset + w.bytes.length ≤ a →
      mget u.flash a = mget s.flash a)) ∧
  (∀ (s : State) (d : Fin 4) (up : Bool), let c := vget s.dies d
    let c' : DieClock := { c with mhz := if up then min 800 (c.mhz + 50) else max 400 (c.mhz - 50) }
    exec (.clockStep d up) s = .next (if up = decide (s.drawn ≤ s.powerLimit) then { s with dies := vset s.dies d c' } else s))

/-- R341, R379, R386, R409, R418, R419, R427: the registers of the device. READY, a report request and its end, CODESIZE, an
owner tag, a slot word, plain register writes and host reads do what their rules say. When the report is made, that a write
keeps the low 12 bits of CPLBASE 0, and that a slot of a FROZEN VF is not written, are the model's choices and readings (log 52,
67, 71). -/
def Sys2Proof.Machine.Claims.DeviceRegisters : Prop :=
  (∀ (s : State) (x : Word),
    exec (.readyctl none x) s = .next (if bbit x 0 = true ∧ s.pfState = 1 then { s with pfState := 2 } else s) ∧
    ∀ v, exec (.readyctl (some v) x) s = .next (if bbit x 0 = true ∧ (vfOf s v).state = 1
      then setVf s v { vfOf s v with state := 2, readyAt := some s.ik } else s)) ∧
  (∀ (s : State) (v : VfId), (vfOf s v).state ≠ 0 →
    ((vfOf s v).attReport = none → ∃ r, exec (.attgo v 1) s =
        .next (setVf s v { vfOf s v with attReport := some r, attDone := false }) ∧ r.length = 512 ∧
      leNat (r.take 8) = 1 ∧ ((r.drop 16).take 32) = leBytes 32 (vfOf s v).attNonce.toNat ∧
      ((r.drop 448).take 64) = leBytes 64 (Config.sm2Sign (sm3 (r.take 448))).toNat) ∧
    ∀ r, (vfOf s v).attReport = some r → exec (.attestationReport v) s = .next (setVf
      (physWrite s (hostBase + (vfOf s v).attAddr.toNat) r) v { vfOf s v with attReport := none, attDone := true })) ∧
  (∀ (s : State) (n : ThreadId) (p : PartId) (x : Word), let q := partOf s p
    2 ≤ levelOf s n → threadsHeld s p = true → q.state ≠ 0 → bfld x 24 0 % 65536 = 0 → bfld x 24 0 ≤ 2 ^ 24 →
    q.carveBase ≤ q.codeBase → q.codeBase + bfld x 24 0 ≤ q.carveBase + q.carveSize →
    let q' : Partition :=
      { q with codeSize := bfld x 24 0, mr3 := extendMr q.mr3 (sm3 (physRead s q.codeBase (bfld x 24 0))) }
    ∃ u, exec (.codesize n p x) s = .next u ∧ partOf u p = q' ∧
      ∀ m : ThreadId, thrOf u m = if bfld x 24 0 ≠ 0 ∧ q.thrFirst ≤ m.val ∧ m.val < q.thrFirst + q.thrCount
        then startThread (thrOf s m) m s.ik else thrOf s m) ∧
  (∀ (s : State) (n : ThreadId) (g : Nat) (tag : BitVec 8), 2097152 * g < hbmEnd → tagReachable s n g = true →
    tagOver s g tag = false →
    let s1 := { s with owners := tset 0 s.owners g tag }
    ∃ u, exec (.ownerTag n g tag) s = .next u ∧
      if tget 0 s.owners g ≠ 0 ∧ tag ≠ 0 ∧ tget 0 s.owners g ≠ tag then
        ∃ x : Drover, Requested { s1 with zeroing := g :: s.zeroing } u x ∧ x.kind = .frame g ∧ x.dst = 2097152 * g ∧
          x.length = 2097152 ∧ x.pool = 0 ∧ x.done = none ∧ x.notify = none
      else u = s1) ∧
  (∀ (s : State) (n : ThreadId) (p : PartId) (slot : Nat) (w : Fin 4) (x : Word), levelOf s n = 1 →
    partOfThread s n = some p → 8 ≤ slot → slot ≤ 4094 →
    let q := partOf s p
    let es := tset 0 q.endpoints (4 * slot + w.val) (slotWord (epWord q slot w.val) w.val x)
    let frozen := epValid q slot = true ∧ (vfOf s (Fin.ofNat 128 (epVf q slot))).state = 3
    (frozen → exec (.endpointSlot n p slot w x) s = .next s) ∧
    (¬ frozen → exec (.endpointSlot n p slot w x) s = .next (setPart s p { q with endpoints := es }))) ∧
  (∀ (s : State) (n : ThreadId) (x : Word), s.cur = .thread n →
    exec (.registerWrite (.csr 0x002) x) s = .next (setThr s n { thrOf s n with fpsr := (thrOf s n).fpsr &&& ~~~x })) ∧
  (∀ (s : State) (n : ThreadId) (p : PartId) (w : Fin 8) (x : Word), 2 ≤ levelOf s n →
    exec (.registerWrite (.config n (0xF00000002000 + 64 * p.val + 8 * w.val)) x) s =
      .next (setPart s p { partOf s p with stats := vset (partOf s p).stats w x })) ∧
  (∀ (s : State) (v : VfId) (x : Word), (vfOf s v).state ≠ 0 →
    exec (.registerWrite (.hostPage v 0x080) x) s =
      .next (setVf s v { vfOf s v with cplBase := x &&& 0xFFFFFFFFFFFFF000 }) ∧
    exec (.registerWrite (.hostPage v 0x0A0) x) s = .next (setVf s v { vfOf s v with msix := x &&& 0x7FF })) ∧
  (∀ (s : State) (v : VfId) (off : Nat) (w : Word), s.power = .booted → let f := vfOf s v
    (off = 0x080 ∧ w = f.cplBase) ∨ (off = 0x088 ∧ w = BitVec.ofNat 64 f.cplLog2) ∨ (off = 0x090 ∧ w = f.cplHead) ∨
      (off = 0x120 ∧ w = f.attAddr) ∨ (off = 0x100 ∧ w = 0) ∨
      (off = 0x0C0 ∧ w = BitVec.ofNat 64 (f.state * 2 ^ 8 + if f.state = 2 ∨ f.state = 3 then 1 else 0)) ∨
      (off = 0x130 ∧ w = BitVec.ofNat 64 ((if f.attDone then 1 else 0) + if f.attReport ≠ none then 2 else 0)) →
    runWorld s (.hostRead (some v) off) = { s with wire := s.wire ++ [.hostValue (some v) off w] })

/-- R116, R224, R230, R263, R428, R429: soft errors. The scrubber counts and marks a granule; an error that ECC cannot correct
in what a word reads, as it issues or as its publish or save runs, traps its task, in a thread's own registers kills it, and in what a command reads raises the cause of the
command, as the first group step at which the two computations of an MMA with RED differ does. Which of them happen is the
world's choice (log 14). -/
def Sys2Proof.Machine.Claims.SoftErrors : Prop :=
  (∀ (s : State) (g : Nat), 64 * g < hbmEnd →
    exec (.scrub g .none) s = .next s ∧
    exec (.scrub g .corrected) s = .next { s with scrubFixed := s.scrubFixed + 1 } ∧
    ∃ u, exec (.scrub g .uncorrectable) s = .next u ∧ { u with bad := s.bad, scrubLost := s.scrubLost } = s ∧
      u.scrubLost = s.scrubLost + 1 ∧ ∀ h, h ∈ u.bad ↔ h = g ∨ h ∈ s.bad) ∧
  (∀ (s : State) (t : TileId) (st : Stream) (a : Word), s.power = .booted →
    streamIssues s t st = true ∨ (st = .S ∧ scalarReads s t = true) →
    runWorld s (.eccWord t st a) = tileTrap s t (srcCode st) 0x12 (strm (tileOf s t) st).pc a) ∧
  (∀ (s : State) (n : ThreadId) (a : Word), s.power = .booted → (thrOf s n).held = false →
    (thrOf s n).wait = .none ∨ (∃ d, (thrOf s n).wait = .evget d) →
    runWorld s (.eccThread n a) = killThread s n 0 0x12 (thrOf s n).pc a) ∧
  (∀ (s : State) (t : TileId) (onM : Bool) (c : Cmd) (a : Word), s.power = .booted → findCmd (tileOf s t) onM c.id = some c →
    (c.started = true → c.landed = false → readsStores c = true →
      runWorld s (.eccCommand t onM c.id a) = cmdFault s t onM c 0x12 a) ∧
    (c.started = false ∨ c.landed = true ∨ readsStores c = false → runWorld s (.eccCommand t onM c.id a) = s)) ∧
  (∀ (s : State) (t : TileId) (c : Cmd) (a b : Shape) (blk : Fin 16), s.power = .booted →
    findCmd (tileOf s t) true c.id = some c → c.kind = .mma a b blk true → c.view.isSome = true → c.ahead = [] →
    c.pos < groupCount a b → mayRun (tileOf s t) true c = true →
    runWorld s (.mismatch t c.id) = cmdFault s t true c 0x0D (BitVec.ofNat 64 (blk.val + c.pos * 2 ^ 32)))

/-- Bring-up, the registers of the device, and soft errors: R341, R379, R386, R409, R418 to R425, R427 to R431. -/
def Obligations.DeviceTurns : Prop := Claims.Bringup ∧ Claims.DeviceRegisters ∧ Claims.SoftErrors

/-- R162: FCLASS sets the one bit of xd that names the class of the FP32 value in xa's low half, and nothing else. -/
def Obligations.FClassWord : Prop :=
  ∀ (s : State) (d a : XReg), ScalarTurn s →
    let v := (rx s a).toNat % 2 ^ 32
    let e := v / 2 ^ 23 % 2 ^ 8
    let f := v % 2 ^ 23
    ∃ (t : State) (k : Nat), exec (.fclass d a) s = .next t ∧ WroteReg s t d (BitVec.ofNat 64 (2 ^ k)) (pcOf s + 4) ∧
      (k = 0 ↔ v = 0xFF800000) ∧ (k = 1 ↔ 2 ^ 31 ≤ v ∧ 1 ≤ e ∧ e ≤ 254) ∧ (k = 2 ↔ 2 ^ 31 ≤ v ∧ e = 0 ∧ f ≠ 0) ∧
      (k = 3 ↔ v = 0x80000000) ∧ (k = 4 ↔ v = 0) ∧ (k = 5 ↔ v < 2 ^ 31 ∧ e = 0 ∧ f ≠ 0) ∧
      (k = 6 ↔ v < 2 ^ 31 ∧ 1 ≤ e ∧ e ≤ 254) ∧ (k = 7 ↔ v = 0x7F800000) ∧
      (k = 8 ↔ e = 255 ∧ f ≠ 0 ∧ f < 2 ^ 22) ∧ (k = 9 ↔ e = 255 ∧ 2 ^ 22 ≤ f) ∧ k ≤ 9

/-- The words of a fault record of a tile's task at the word in turn (R112): `flags` are those of its first word's middle bits,
`cause` its low half. -/
def faultWords (s : State) (t : TileId) (st : Stream) (k : Task) (g : Gang) (flags cause : Nat) (val : Word) : List Word :=
  [BitVec.ofNat 64 (t.val * 2 ^ 48 + flags + srcCode st * 2 ^ 16 + cause), pcOf s, val,
   BitVec.ofNat 64 (k.part.val * 2 ^ 32 + k.asid * 2 ^ 24 + k.vf.val * 2 ^ 16 + k.cls), k.key,
   BitVec.ofNat 64 ((g.runs + tget 0 g.resumes k.rank) % 2 ^ 32), BitVec.ofNat 64 (s.ik / 16), 0]

/-- R109, R110, R112, R139, R299, R305, R351: the fates of a cause on a tile. PAGE_ABSENT, while no member's region is
irrevocable, takes the gang off its tiles to wait for the page, by its ASID and the address's 64 KiB, with no fault record to
FAULTTHR but one to the pager, the partition's first Steward, outside expert ranges and while fewer than 4096 stand there; that
one goes out for each such fault, though another gang may wait for the page, is the model's reading (log 63). Any other cause
ends the gang, freezes its class, marks its entry FAULTED and sends a record to FAULTTHR; PAGE_ABSENT in an irrevocable region
becomes NONRESTARTABLE. The gang of a card's chunk leaves its card dealing no more, with the chunk's first record and count kept
to be dealt again; the entry is FAULTED once no chunk runs. -/
def Obligations.TileFates : Prop :=
  ∀ (s : State) (t : TileId) (st : Stream) (k : Task) (g : Gang) (val : Word), s.cur = .tile t st →
    (tileOf s t).task = some k → (tileOf s t).debug = .none → gangOf s k.gang = some g →
    (gangIrrevocable s g = false → ∃ u, raise s 0x07 val = .next u ∧
      gangOf u k.gang = some { g with state := .aborting, pageWait := some (k.asid, val.toNat / 65536), pageTicks := 0 } ∧
      (vfOf u k.vf).faults = (vfOf s k.vf).faults ∧ u.entries = s.entries ∧ u.mem = s.mem ∧
      (let paged := (∀ e ∈ s.lodging, e.2.vf = k.vf → val.toNat < e.2.vbase ∨ e.2.vbase + e.2.length ≤ val.toNat) ∧
          (partOf s k.part).pagerRecords < 4096
       (¬ paged → u.threads = s.threads) ∧
       (paged → (partOf u k.part).pagerRecords = (partOf s k.part).pagerRecords + 1 ∧
          ∃ r : Event, u.threads = (sendEvent s (firstSteward s k.part) r).threads ∧ r.pagerOf = some k.part ∧
            r.record = pad16 (faultWords s t st k g 0 0x07 val))) ∧
      ∀ m ∈ g.tiles, Vacant (tileOf u m)) ∧
    (∀ (cause : Nat) (e : JqEntry), cause ≠ 0x07 ∨ gangIrrevocable s g = true → g.chunk = none →
      tfind s.entries g.entry = some e →
      ∃ (u : State) (r : Event), raise s cause val = .next u ∧ gangOf u k.gang = none ∧
        (tfind u.entries g.entry).map JqEntry.state = some .faulted ∧
        (tfind (partOf u g.part).classes g.cls).map JqClass.frozen = (tfind (partOf s g.part).classes g.cls).map (fun _ => true) ∧
        (vfOf u k.vf).faults = (vfOf s k.vf).faults + 1 ∧ u.mem = s.mem ∧ (∀ m ∈ g.tiles, Vacant (tileOf u m)) ∧
        u.threads = (sendEvent s (Fin.ofNat 1024 (vfOf s k.vf).faultThr) r).threads ∧
        r.faultVf = some k.vf ∧
        r.record = pad16 (faultWords s t st k g (2 ^ 19) (if cause = 0x07 then 0x070F else cause) val)) ∧
    (∀ (cause : Nat) (c : Nat × Nat × Nat), cause ≠ 0x07 ∨ gangIrrevocable s g = true → g.chunk = some c →
      ∃ (u : State) (r : Event), raise s cause val = .next u ∧ gangOf u k.gang = none ∧
        (tfind (partOf u g.part).classes g.cls).map JqClass.frozen = (tfind (partOf s g.part).classes g.cls).map (fun _ => true) ∧
        (vfOf u k.vf).faults = (vfOf s k.vf).faults + 1 ∧ u.mem = s.mem ∧ (∀ m ∈ g.tiles, Vacant (tileOf u m)) ∧
        u.threads = (sendEvent s (Fin.ofNat 1024 (vfOf s k.vf).faultThr) r).threads ∧ r.faultVf = some k.vf ∧
        r.record = pad16 (faultWords s t st k g (2 ^ 19) (if cause = 0x07 then 0x070F else cause) val) ∧
        ∀ cd, tfind (partOf s g.part).cards c.1 = some cd → ∃ cd', tfind (partOf u g.part).cards c.1 = some cd' ∧
          { cd' with stopped := cd.stopped, redeal := cd.redeal, live := cd.live } = cd ∧ cd'.stopped = true ∧
          cd'.live = cd.live.erase k.gang ∧ (∀ f, f ∈ cd'.redeal ↔ f = c.2 ∨ f ∈ cd.redeal) ∧
          ∀ e, tfind s.entries cd.entry = some e → (tfind u.entries cd.entry).map JqEntry.state =
            some (if cd.live.erase k.gang = [] then .faulted else e.state))

/-- R259, R316, R325, R340, R371, R373: the stores that a tile's publish applies stay in the windows of their VF: a byte outside
its segment, outside the loan frames tagged to it and outside host memory keeps its value. Those to the members of an address
group on this device stay in the segments of the members' VFs, and an increment changes no other byte than the 8 at its address.
The target of a CXL snapshot, whose image follows the stores of its cut, is set aside. -/
def Obligations.PublishIsolation : Prop :=
  ∀ (s : State) (t : TileId) (p : Publish) (ps : List Publish), (tileOf s t).publishes = p :: ps →
    ∃ u, exec (.publishComplete t) s = .next u ∧
      ∀ a, ¬ ((vfOf s p.vf).segBase ≤ a ∧ a < (vfOf s p.vf).segBase + (vfOf s p.vf).segSize) →
        (ownerTag s a).toNat ≠ p.vf.val + 1 → ¬ (0x800000000000 ≤ a ∧ a < 0xC00000000000) →
        (∀ x ∈ s.snapshots, x.nvme = false → a < x.loc.toNat ∨
          x.loc.toNat + 65536 * (1 + (x.ranges.map fun r => (r.2 + 65535) / 65536).sum) ≤ a) →
        (p.effects = [] → (∀ g ∈ p.stores, g.dest = .ipa) → physByte u a = physByte s a) ∧
        ((∀ g ∈ p.stores, ∀ e m rvf key, g.dest = .member e m s.purlinId rvf key →
            let f := vfOf s (Fin.ofNat 128 rvf)
            a < f.segBase ∨ f.segBase + f.segSize ≤ a) →
          (∀ v ipa w pa, .incr v ipa w ∈ p.effects → stage2 s v ipa = .ok pa → a < pa ∨ pa + 8 ≤ a) →
          mget u.mem a = mget s.mem a)

/-- R57, R78, R378: a step runs the decoded instruction. Where the agent in turn can issue and its fetch gives bytes that
decode, the step is exec of that instruction in the state the fetch leaves; where they do not decode it raises
ILLEGAL_INSTR with the word as its value. A Keeper thread fetches 4 bytes of the firmware image at its pc. Each step draws
one number of the model's own count freeCtr (log 6). -/
def Obligations.StepRunsWord : Prop :=
  (∀ (s s1 : State) (a : Agent) (us : List Turn) (bs rest : List Byte) (i : Instr), s.agenda = .issue a :: us →
    canIssue s a = true → fetchOf { s with freeCtr := s.freeCtr + 1, agenda := us, cur := a } a = (s1, .bytes bs) →
    decode (familyOf a) bs = .ok (i, rest) → step s = exec i s1) ∧
  (∀ (s s1 : State) (bs : List Byte) (r : Reject), s.agenda = [] → s.power = .booted → canIssue s s.cur = true →
    fetchOf { s with freeCtr := s.freeCtr + 1 } s.cur = (s1, .bytes bs) → decode (familyOf s.cur) bs = .error r →
    step s = raise s1 0x01 (BitVec.ofNat 64 (leNat bs))) ∧
  (∀ (s : State) (n : ThreadId) (rest : List Byte) (i : Instr), s.agenda = [] → s.power = .booted → s.cur = .thread n →
    n.val < 16 → vfOfThread s n = none → (thrOf s n).held = false → (thrOf s n).wait = .none → (thrOf s n).pc.toNat + 4 ≤ s.firmwareSize →
    decode .scalar (mread s.firmware (thrOf s n).pc.toNat 4) = .ok (i, rest) →
    step s = exec i { s with freeCtr := s.freeCtr + 1 })

/-- R57 to R76: words that the spec writes out decode to what they stand for. -/
def Obligations.WrittenWordsDecode : Prop :=
  ∀ e ∈ writtenWords, decode e.1 (natToBytes e.1.bytes e.2.1) = .ok (e.2.2, [])

/-- R57 to R78: decode and encode agree. The word of a well-formed instruction decodes to it, whatever bytes follow; and a
word that decodes is the word of its instruction, which is well formed. -/
def Obligations.DecodeEncodeAgree : Prop :=
  (∀ (i : Instr) (f : Family) (w : Nat) (rest : List Byte), wellFormed i = true → encode i = some (f, w) →
    decode f (natToBytes f.bytes w ++ rest) = .ok (i, rest)) ∧
  (∀ (f : Family) (bs rest : List Byte) (i : Instr), decode f bs = .ok (i, rest) →
    wellFormed i = true ∧ encode i = some (f, bytesToNat (bs.take f.bytes)) ∧ bs = bs.take f.bytes ++ rest)

/-- R3, R17, R339, R377, R420: every step keeps the canonical form of every memory: addresses rise strictly, and no byte is
listed that equals what an unlisted address reads as (log 1). The rows that a running command's view holds are no memory of the
machine and are set aside (log 9). -/
def Obligations.MemoriesStayCanonical : Prop :=
  ∀ s t : State, Canonical s → step s = .next t → Canonical t

/-- R93, R99, R126, R339, R422: right after reset the boot ROM is about to run; no partition and no VF exists, every thread
is held, no tile has a task, and every memory is canonical and reads 0: HBM, the scratchpads, the threads' stores, the flash, the
drives, the firmware image and what peers hold, the model's own choice where the spec gives no contents (log 1). What the streams, tiles and threads hold there beside R93's and R126's words is its choice too (log 2, 3). -/
def Obligations.ResetState : Prop :=
  let s := State.reset
  s.power = .bootPending ∧ (∀ p, (partOf s p).state = 0) ∧ (∀ v, (vfOf s v).state = 0) ∧
    (∀ n, (thrOf s n).held = true) ∧ (∀ t, (tileOf s t).task = none ∧ ∀ st, (strm (tileOf s t) st).run = .idle) ∧
    (∀ a, mget s.mem a = 0 ∧ mget s.flash a = 0 ∧ mget s.nvme a = 0 ∧ mget s.firmware a = 0 ∧ mget s.peers a = 0) ∧
    (∀ t a, mget (tileOf s t).spad a = 0) ∧ (∀ n a, mget (thrOf s n).store a = 0) ∧ s.entries = [] ∧ s.gangs = [] ∧ Canonical s ∧
    step s = exec .boot { s with freeCtr := 1 }
end

