-- ==== Sys2Proof/Laws/Table.lean ====
section
/-! SUPPORT. Reading after writing, for vectors, tables and memories, and the canonical form that every operation on a
memory keeps. -/

namespace Sys2Proof.Machine

/-! ### Vectors -/

@[simp] theorem vget_vset_same {α : Type} {n : Nat} (v : Vector α n) (i : Fin n) (x : α) : vget (vset v i x) i = x := by
  simp [vget, vset]

theorem vget_vset_of_ne {α : Type} {n : Nat} (v : Vector α n) {i j : Fin n} (x : α) (h : i ≠ j) :
    vget (vset v i x) j = vget v j := by
  have h' : i.val ≠ j.val := fun e => h (Fin.ext e)
  simp [vget, vset, h']

theorem vget_vset {α : Type} {n : Nat} (v : Vector α n) (i j : Fin n) (x : α) :
    vget (vset v i x) j = if i = j then x else vget v j := by
  by_cases h : i = j
  · subst h; simp
  · simp [vget_vset_of_ne v x h, h]

@[simp] theorem vset_vset_same {α : Type} {n : Nat} (v : Vector α n) (i : Fin n) (x y : α) :
    vset (vset v i x) i y = vset v i y := by
  simp [vset]

@[simp] theorem vset_vget {α : Type} {n : Nat} (v : Vector α n) (i : Fin n) : vset v i (vget v i) = v := by
  simp [vset, vget]

/-! ### Tables -/

section
variable {α : Type}

@[simp] theorem tfind_tinsert_same (n : Nat) (v : α) (t : Table α) : (∀ e ∈ t, e.1 ≠ n) → tfind (tinsert n v t) n = some v := by
  intro h
  induction t with
  | nil => simp [tinsert, tfind]
  | cons e t ih =>
    obtain ⟨k, w⟩ := e
    have hk : k ≠ n := h (k, w) (by simp)
    simp only [tinsert]
    split
    · simp [tfind, hk, ih fun e he => h e (by simp [he])]
    · simp [tfind]

theorem tfind_tinsert_of_ne (n m : Nat) (v : α) (t : Table α) (h : n ≠ m) : tfind (tinsert n v t) m = tfind t m := by
  induction t with
  | nil => simp [tinsert, tfind, h]
  | cons e t ih =>
    obtain ⟨k, w⟩ := e
    simp only [tinsert]
    split
    · simp [tfind, ih]
    · simp [tfind, h]

@[simp] theorem tfind_tdel_same (t : Table α) (n : Nat) : tfind (tdel t n) n = none := by
  induction t with
  | nil => rfl
  | cons e t ih =>
    obtain ⟨k, w⟩ := e
    by_cases h : k = n
    · simpa [tdel, h] using ih
    · simpa [tdel, h, tfind] using ih

theorem tfind_tdel_of_ne (t : Table α) {n m : Nat} (h : n ≠ m) : tfind (tdel t n) m = tfind t m := by
  induction t with
  | nil => rfl
  | cons e t ih =>
    obtain ⟨k, w⟩ := e
    by_cases hk : k = n
    · subst hk; simpa [tdel, tfind, h] using ih
    · by_cases hm : k = m
      · simp [tdel, tfind, hm, h.symm]
      · simpa [tdel, tfind, hk, hm] using ih

@[simp] theorem tfind_tput_same (t : Table α) (n : Nat) (v : α) : tfind (tput t n v) n = some v := by
  refine tfind_tinsert_same n v _ ?_
  intro e he
  simpa [tdel] using (List.mem_filter.mp he).2

theorem tfind_tput_of_ne (t : Table α) {n m : Nat} (v : α) (h : n ≠ m) : tfind (tput t n v) m = tfind t m := by
  rw [tput, tfind_tinsert_of_ne n m v _ h, tfind_tdel_of_ne t h]

theorem tfind_tmod (t : Table α) (n m : Nat) (f : α → α) :
    tfind (tmod t n f) m = if n = m then (tfind t n).map f else tfind t m := by
  unfold tmod
  by_cases h : n = m
  · subst h
    cases hv : tfind t n <;> simp [hv]
  · cases hv : tfind t n <;> simp [h, tfind_tput_of_ne t _ h]

theorem mem_of_tfind {t : Table α} {n : Nat} {v : α} (h : tfind t n = some v) : (n, v) ∈ t := by
  induction t with
  | nil => simp [tfind] at h
  | cons e t ih =>
    obtain ⟨k, w⟩ := e
    by_cases hk : k = n
    · simp [tfind, hk] at h; subst h; subst hk; simp
    · simp [tfind, hk] at h; simp [ih h]

theorem mem_tdel {t : Table α} {n : Nat} {e : Nat × α} : e ∈ tdel t n ↔ e ∈ t ∧ e.1 ≠ n := by
  simp [tdel, List.mem_filter]

theorem mem_tinsert {n : Nat} {v : α} {t : Table α} {e : Nat × α} : e ∈ tinsert n v t ↔ e = (n, v) ∨ e ∈ t := by
  induction t with
  | nil => simp [tinsert]
  | cons x t ih =>
    obtain ⟨k, w⟩ := x
    simp only [tinsert]
    split
    · simp [ih]; tauto
    · simp

theorem mem_tput {t : Table α} {n : Nat} {v : α} {e : Nat × α} : e ∈ tput t n v ↔ e = (n, v) ∨ (e ∈ t ∧ e.1 ≠ n) := by
  simp [tput, mem_tinsert, mem_tdel]

/-! ### Numbers rise -/

theorem trising_iff (t : Table α) : trising t = true ↔ t.Pairwise fun a b => a.1 < b.1 := by
  induction t with
  | nil => simp [trising]
  | cons a t ih =>
    cases t with
    | nil => simp [trising]
    | cons b t =>
      simp only [trising, Bool.and_eq_true, decide_eq_true_eq, ih]
      constructor
      · rintro ⟨h, hp⟩
        refine List.pairwise_cons.mpr ⟨?_, hp⟩
        intro c hc
        rcases List.mem_cons.mp hc with rfl | hc
        · exact h
        · exact lt_trans h (List.rel_of_pairwise_cons hp hc)
      · intro hp
        exact ⟨List.rel_of_pairwise_cons hp (by simp), (List.pairwise_cons.mp hp).2⟩

theorem trising_filter {t : Table α} (p : Nat × α → Bool) (h : trising t = true) : trising (t.filter p) = true :=
  (trising_iff _).mpr (((trising_iff t).mp h).filter p)

theorem trising_tdel {t : Table α} (n : Nat) (h : trising t = true) : trising (tdel t n) = true := trising_filter _ h

theorem trising_tinsert {t : Table α} (n : Nat) (v : α) (hn : ∀ x ∈ t, x.1 ≠ n) (h : trising t = true) :
    trising (tinsert n v t) = true := by
  rw [trising_iff] at h ⊢
  induction t with
  | nil => simp [tinsert]
  | cons x t ih =>
    obtain ⟨k, w⟩ := x
    have hx := List.pairwise_cons.mp h
    have hk : k ≠ n := hn (k, w) (by simp)
    simp only [tinsert]
    split
    · rename_i hlt
      refine List.pairwise_cons.mpr ⟨?_, ih (fun e he => hn e (by simp [he])) hx.2⟩
      intro e he
      rcases mem_tinsert.mp he with rfl | he
      · exact hlt
      · exact hx.1 e he
    · rename_i hge
      have hlt : n < k := by omega
      refine List.pairwise_cons.mpr ⟨?_, h⟩
      intro e he
      rcases List.mem_cons.mp he with rfl | he
      · exact hlt
      · exact lt_trans hlt (hx.1 e he)

theorem trising_tput {t : Table α} (n : Nat) (v : α) (h : trising t = true) : trising (tput t n v) = true :=
  trising_tinsert n v (fun _ he => (mem_tdel.mp he).2) (trising_tdel n h)

end

/-! ### Memory -/

theorem tget_tset {α : Type} [DecidableEq α] (d : α) (t : Table α) (n m : Nat) (v : α) :
    tget d (tset d t n v) m = if n = m then v else tget d t m := by
  unfold tget tset
  by_cases h : n = m
  · subst h
    by_cases hv : v = d
    · rw [if_pos hv]; simp [hv]
    · rw [if_neg hv]; simp
  · by_cases hv : v = d
    · rw [if_pos hv, if_neg h, tfind_tdel_of_ne t h]
    · rw [if_neg hv, if_neg h, tfind_tput_of_ne t v h]

theorem mget_mset (m : Memory) (a b : Nat) (v : Byte) : mget (mset m a v) b = if a = b then v else mget m b :=
  tget_tset 0 m a b v

@[simp] theorem mget_nil (a : Nat) : mget [] a = 0 := rfl

@[simp] theorem mget_mset_same (m : Memory) (a : Nat) (v : Byte) : mget (mset m a v) a = v := by simp [mget_mset]

theorem mget_mset_of_ne (m : Memory) {a b : Nat} (v : Byte) (h : a ≠ b) : mget (mset m a v) b = mget m b := by
  simp [mget_mset, h]

/-- What a byte reads after a run of bytes has been written. -/
theorem mget_mwrite (m : Memory) (a b : Nat) (bs : List Byte) :
    mget (mwrite m a bs) b = if a ≤ b ∧ b < a + bs.length then bs.getD (b - a) 0 else mget m b := by
  induction bs generalizing m a with
  | nil => simp [mwrite, show ¬ (a ≤ b ∧ b < a) by omega]
  | cons x bs ih =>
    rw [mwrite, ih, mget_mset]
    simp only [List.length_cons]
    by_cases h : a = b
    · subst h; simp
    · by_cases h2 : a + 1 ≤ b ∧ b < a + 1 + bs.length
      · have : b - a = (b - (a + 1)) + 1 := by omega
        rw [if_pos h2, if_pos (by omega), this]; simp
      · rw [if_neg h2, if_neg h, if_neg (by omega)]

theorem mread_length (m : Memory) (a n : Nat) : (mread m a n).length = n := by
  induction n generalizing a with
  | zero => rfl
  | succ n ih => simp [mread, ih]

theorem mread_getD (m : Memory) (a n i : Nat) (h : i < n) : (mread m a n).getD i 0 = mget m (a + i) := by
  induction n generalizing a i with
  | zero => omega
  | succ n ih =>
    cases i with
    | zero => simp [mread]
    | succ i =>
      have := ih (a + 1) i (by omega)
      simpa [mread, Nat.add_assoc, Nat.add_comm 1 i] using this

theorem wf_iff (m : Memory) : Memory.wf m = true ↔ trising m = true ∧ ∀ c ∈ m, c.2 ≠ 0 := by
  simp [Memory.wf, List.all_eq_true]

@[simp] theorem wf_nil : Memory.wf [] = true := rfl

theorem wf_filter {m : Memory} (p : Host.Cell → Bool) (h : Memory.wf m = true) : Memory.wf (m.filter p) = true := by
  rw [wf_iff] at h ⊢
  exact ⟨trising_filter p h.1, fun c hc => h.2 c (List.mem_of_mem_filter hc)⟩

theorem wf_mset {m : Memory} (a : Nat) (v : Byte) (h : Memory.wf m = true) : Memory.wf (mset m a v) = true := by
  unfold mset tset
  split
  · exact wf_filter _ h
  · rename_i hv
    rw [wf_iff] at h ⊢
    refine ⟨trising_tput a v h.1, ?_⟩
    intro c hc
    rcases mem_tput.mp hc with rfl | ⟨hc, _⟩
    · exact hv
    · exact h.2 c hc

theorem wf_mwrite {m : Memory} (a : Nat) (bs : List Byte) (h : Memory.wf m = true) : Memory.wf (mwrite m a bs) = true := by
  induction bs generalizing m a with
  | nil => exact h
  | cons b bs ih => exact ih (a + 1) (wf_mset a b h)

theorem wf_mzero {m : Memory} (a n : Nat) (h : Memory.wf m = true) : Memory.wf (mzero m a n) = true := wf_filter _ h

theorem mget_mzero (m : Memory) (a n b : Nat) : mget (mzero m a n) b = if a ≤ b ∧ b < a + n then 0 else mget m b := by
  unfold mget mzero tget
  induction m with
  | nil => simp [tfind]
  | cons e m ih =>
    obtain ⟨k, w⟩ := e
    by_cases hk : k = b
    · subst hk
      by_cases h : a ≤ k ∧ k < a + n
      · rw [List.filter_cons_of_neg (by simp; omega), ih, if_pos h]; simp [h]
      · rw [List.filter_cons_of_pos (by simp; omega)]; simp [tfind, h]
    · by_cases h : k < a ∨ a + n ≤ k
      · rw [List.filter_cons_of_pos (by simpa using h)]; simpa [tfind, hk] using ih
      · rw [List.filter_cons_of_neg (by simpa using h)]; simpa [tfind, hk] using ih

/-- In the canonical form equal contents are equal lists. -/
theorem wf_ext {m n : Memory} (hm : Memory.wf m = true) (hn : Memory.wf n = true) (h : ∀ a, mget m a = mget n a) : m = n := by
  rw [wf_iff, trising_iff] at hm hn
  have key : ∀ {m : Memory}, m.Pairwise (fun a b => a.1 < b.1) → (∀ c ∈ m, c.2 ≠ 0) → ∀ a v, (a, v) ∈ m ↔ v ≠ 0 ∧ mget m a = v := by
    intro m hp hz a v
    constructor
    · intro hmem
      refine ⟨hz _ hmem, ?_⟩
      have : tfind m a = some v := by
        clear h hm hn
        induction m with
        | nil => simp at hmem
        | cons e m ih =>
          obtain ⟨k, w⟩ := e
          have hp' := List.pairwise_cons.mp hp
          rcases List.mem_cons.mp hmem with heq | hmem
          · cases heq; simp [tfind]
          · have : k < a := hp'.1 _ hmem
            simp [tfind, show k ≠ a by omega, ih hp'.2 (fun c hc => hz c (by simp [hc])) hmem]
      simp [mget, tget, this]
    · rintro ⟨hv, hg⟩
      unfold mget tget at hg
      cases hf : tfind m a with
      | none => simp [hf] at hg; exact absurd hg.symm hv
      | some w => simp [hf] at hg; subst hg; exact mem_of_tfind hf
  have hmem : ∀ e, e ∈ m ↔ e ∈ n := by
    rintro ⟨a, v⟩
    rw [key hm.1 hm.2, key hn.1 hn.2, h]
  refine List.Perm.eq_of_pairwise (le := fun a b => a.1 < b.1) ?_ hm.1 hn.1 ?_
  · intro a b _ _ h1 h2; omega
  · have nd : ∀ {m : Memory}, m.Pairwise (fun a b => a.1 < b.1) → m.Nodup := by
      intro m hp
      exact hp.imp fun h e => by subst e; omega
    exact (List.perm_ext_iff_of_nodup (nd hm.1) (nd hn.1)).mpr hmem

/-- What `leBytes` gives is `n` bytes long. -/
@[simp] theorem leBytes_length (n w : Nat) : (leBytes n w).length = n := by
  induction n generalizing w with
  | zero => rfl
  | succ n ih => simp [leBytes, ih]

theorem leNat_lt (bs : List Byte) : leNat bs < 256 ^ bs.length := by
  induction bs with
  | nil => simp [leNat]
  | cons b bs ih =>
    have := b.isLt
    simp only [leNat, List.length_cons, pow_succ]
    omega

theorem leNat_leBytes (n w : Nat) : leNat (leBytes n w) = w % 256 ^ n := by
  induction n generalizing w with
  | zero => simp [leBytes, leNat, Nat.mod_one]
  | succ n ih =>
    have h := Nat.mod_mul (x := w) (a := 256) (b := 256 ^ n)
    rw [Nat.pow_succ, Nat.mul_comm, h]
    simp [leBytes, leNat, ih]

end Sys2Proof.Machine
end

