-- ==== Sys2Proof/Laws/State.lean ====
section
/-! SUPPORT. One lemma for each field of the state and each update of it that the shared operations make, true by
computation, so that no proof unfolds a record update. -/

namespace Sys2Proof.Machine

/-! ### setTile -/

@[simp] theorem setTile_agenda (s : State) (t : TileId) (T : Tile) : (setTile s t T).agenda = s.agenda := rfl
@[simp] theorem setTile_cur (s : State) (t : TileId) (T : Tile) : (setTile s t T).cur = s.cur := rfl
@[simp] theorem setTile_freeCtr (s : State) (t : TileId) (T : Tile) : (setTile s t T).freeCtr = s.freeCtr := rfl
@[simp] theorem setTile_seq (s : State) (t : TileId) (T : Tile) : (setTile s t T).seq = s.seq := rfl
@[simp] theorem setTile_ik (s : State) (t : TileId) (T : Tile) : (setTile s t T).ik = s.ik := rfl
@[simp] theorem setTile_portCycle (s : State) (t : TileId) (T : Tile) : (setTile s t T).portCycle = s.portCycle := rfl
@[simp] theorem setTile_dies (s : State) (t : TileId) (T : Tile) : (setTile s t T).dies = s.dies := rfl
@[simp] theorem setTile_powerLimit (s : State) (t : TileId) (T : Tile) : (setTile s t T).powerLimit = s.powerLimit := rfl
@[simp] theorem setTile_power (s : State) (t : TileId) (T : Tile) : (setTile s t T).power = s.power := rfl
@[simp] theorem setTile_flash (s : State) (t : TileId) (T : Tile) : (setTile s t T).flash = s.flash := rfl
@[simp] theorem setTile_bootSlot (s : State) (t : TileId) (T : Tile) : (setTile s t T).bootSlot = s.bootSlot := rfl
@[simp] theorem setTile_bootSeq (s : State) (t : TileId) (T : Tile) : (setTile s t T).bootSeq = s.bootSeq := rfl
@[simp] theorem setTile_firmware (s : State) (t : TileId) (T : Tile) : (setTile s t T).firmware = s.firmware := rfl
@[simp] theorem setTile_firmwareSize (s : State) (t : TileId) (T : Tile) : (setTile s t T).firmwareSize = s.firmwareSize := rfl
@[simp] theorem setTile_mr0 (s : State) (t : TileId) (T : Tile) : (setTile s t T).mr0 = s.mr0 := rfl
@[simp] theorem setTile_mr1 (s : State) (t : TileId) (T : Tile) : (setTile s t T).mr1 = s.mr1 := rfl
@[simp] theorem setTile_mem (s : State) (t : TileId) (T : Tile) : (setTile s t T).mem = s.mem := rfl
@[simp] theorem setTile_olds (s : State) (t : TileId) (T : Tile) : (setTile s t T).olds = s.olds := rfl
@[simp] theorem setTile_owners (s : State) (t : TileId) (T : Tile) : (setTile s t T).owners = s.owners := rfl
@[simp] theorem setTile_zeroing (s : State) (t : TileId) (T : Tile) : (setTile s t T).zeroing = s.zeroing := rfl
@[simp] theorem setTile_nvme (s : State) (t : TileId) (T : Tile) : (setTile s t T).nvme = s.nvme := rfl
@[simp] theorem setTile_scrubFixed (s : State) (t : TileId) (T : Tile) : (setTile s t T).scrubFixed = s.scrubFixed := rfl
@[simp] theorem setTile_scrubLost (s : State) (t : TileId) (T : Tile) : (setTile s t T).scrubLost = s.scrubLost := rfl
@[simp] theorem setTile_bad (s : State) (t : TileId) (T : Tile) : (setTile s t T).bad = s.bad := rfl
@[simp] theorem setTile_threads (s : State) (t : TileId) (T : Tile) : (setTile s t T).threads = s.threads := rfl
@[simp] theorem setTile_parts (s : State) (t : TileId) (T : Tile) : (setTile s t T).parts = s.parts := rfl
@[simp] theorem setTile_vfs (s : State) (t : TileId) (T : Tile) : (setTile s t T).vfs = s.vfs := rfl
@[simp] theorem setTile_gangs (s : State) (t : TileId) (T : Tile) : (setTile s t T).gangs = s.gangs := rfl
@[simp] theorem setTile_entries (s : State) (t : TileId) (T : Tile) : (setTile s t T).entries = s.entries := rfl
@[simp] theorem setTile_reserved (s : State) (t : TileId) (T : Tile) : (setTile s t T).reserved = s.reserved := rfl
@[simp] theorem setTile_arrivals (s : State) (t : TileId) (T : Tile) : (setTile s t T).arrivals = s.arrivals := rfl
@[simp] theorem setTile_counters (s : State) (t : TileId) (T : Tile) : (setTile s t T).counters = s.counters := rfl
@[simp] theorem setTile_bookings (s : State) (t : TileId) (T : Tile) : (setTile s t T).bookings = s.bookings := rfl
@[simp] theorem setTile_lodging (s : State) (t : TileId) (T : Tile) : (setTile s t T).lodging = s.lodging := rfl
@[simp] theorem setTile_drovers (s : State) (t : TileId) (T : Tile) : (setTile s t T).drovers = s.drovers := rfl
@[simp] theorem setTile_timers (s : State) (t : TileId) (T : Tile) : (setTile s t T).timers = s.timers := rfl
@[simp] theorem setTile_snapshots (s : State) (t : TileId) (T : Tile) : (setTile s t T).snapshots = s.snapshots := rfl
@[simp] theorem setTile_inbound (s : State) (t : TileId) (T : Tile) : (setTile s t T).inbound = s.inbound := rfl
@[simp] theorem setTile_accepted (s : State) (t : TileId) (T : Tile) : (setTile s t T).accepted = s.accepted := rfl
@[simp] theorem setTile_outbound (s : State) (t : TileId) (T : Tile) : (setTile s t T).outbound = s.outbound := rfl
@[simp] theorem setTile_nvmeAdmin (s : State) (t : TileId) (T : Tile) : (setTile s t T).nvmeAdmin = s.nvmeAdmin := rfl
@[simp] theorem setTile_linksDown (s : State) (t : TileId) (T : Tile) : (setTile s t T).linksDown = s.linksDown := rfl
@[simp] theorem setTile_dropped (s : State) (t : TileId) (T : Tile) : (setTile s t T).dropped = s.dropped := rfl
@[simp] theorem setTile_purlinId (s : State) (t : TileId) (T : Tile) : (setTile s t T).purlinId = s.purlinId := rfl
@[simp] theorem setTile_routes (s : State) (t : TileId) (T : Tile) : (setTile s t T).routes = s.routes := rfl
@[simp] theorem setTile_pfState (s : State) (t : TileId) (T : Tile) : (setTile s t T).pfState = s.pfState := rfl
@[simp] theorem setTile_peers (s : State) (t : TileId) (T : Tile) : (setTile s t T).peers = s.peers := rfl
@[simp] theorem setTile_wire (s : State) (t : TileId) (T : Tile) : (setTile s t T).wire = s.wire := rfl
@[simp] theorem setTile_selected (s : State) (t : TileId) (T : Tile) : (setTile s t T).selected = s.selected := rfl
@[simp] theorem setTile_drawn (s : State) (t : TileId) (T : Tile) : (setTile s t T).drawn = s.drawn := rfl
@[simp] theorem setTile_flashWrites (s : State) (t : TileId) (T : Tile) : (setTile s t T).flashWrites = s.flashWrites := rfl
@[simp] theorem setTile_marks (s : State) (t : TileId) (T : Tile) : (setTile s t T).marks = s.marks := rfl
@[simp] theorem setTile_holds (s : State) (t : TileId) (T : Tile) : (setTile s t T).holds = s.holds := rfl
@[simp] theorem setTile_kept (s : State) (t : TileId) (T : Tile) : (setTile s t T).kept = s.kept := rfl
@[simp] theorem setTile_namespaces (s : State) (t : TileId) (T : Tile) : (setTile s t T).namespaces = s.namespaces := rfl
@[simp] theorem setTile_heldCounts (s : State) (t : TileId) (T : Tile) : (setTile s t T).heldCounts = s.heldCounts := rfl
@[simp] theorem setTile_bookPos (s : State) (t : TileId) (T : Tile) : (setTile s t T).bookPos = s.bookPos := rfl
@[simp] theorem setTile_lastServed (s : State) (t : TileId) (T : Tile) : (setTile s t T).lastServed = s.lastServed := rfl
@[simp] theorem setTile_decoders (s : State) (t : TileId) (T : Tile) : (setTile s t T).decoders = s.decoders := rfl
@[simp] theorem setTile_contexts (s : State) (t : TileId) (T : Tile) : (setTile s t T).contexts = s.contexts := rfl
@[simp] theorem setTile_downAt (s : State) (t : TileId) (T : Tile) : (setTile s t T).downAt = s.downAt := rfl
@[simp] theorem tileOf_setTile_same (s : State) (t : TileId) (T : Tile) : tileOf (setTile s t T) t = T := by simp [tileOf, setTile]
theorem tileOf_setTile_of_ne (s : State) (t : TileId) (T : Tile) {i : TileId} (e : t ≠ i) : tileOf (setTile s t T) i = tileOf s i := by
  simp [tileOf, setTile, vget_vset_of_ne _ _ e]
@[simp] theorem setTile_twice (s : State) (t : TileId) (T : Tile) (y : Tile) : setTile (setTile s t T) t y = setTile s t y := by simp [setTile]
@[simp] theorem setTile_self (s : State) (i : TileId) : setTile s i (tileOf s i) = s := by simp [setTile, tileOf]
@[simp] theorem thrOf_setTile (s : State) (t : TileId) (T : Tile) (i : ThreadId) : thrOf (setTile s t T) i = thrOf s i := rfl
@[simp] theorem partOf_setTile (s : State) (t : TileId) (T : Tile) (i : PartId) : partOf (setTile s t T) i = partOf s i := rfl
@[simp] theorem vfOf_setTile (s : State) (t : TileId) (T : Tile) (i : VfId) : vfOf (setTile s t T) i = vfOf s i := rfl

/-! ### setThr -/

@[simp] theorem setThr_agenda (s : State) (n : ThreadId) (h : Thread) : (setThr s n h).agenda = s.agenda := rfl
@[simp] theorem setThr_cur (s : State) (n : ThreadId) (h : Thread) : (setThr s n h).cur = s.cur := rfl
@[simp] theorem setThr_freeCtr (s : State) (n : ThreadId) (h : Thread) : (setThr s n h).freeCtr = s.freeCtr := rfl
@[simp] theorem setThr_seq (s : State) (n : ThreadId) (h : Thread) : (setThr s n h).seq = s.seq := rfl
@[simp] theorem setThr_ik (s : State) (n : ThreadId) (h : Thread) : (setThr s n h).ik = s.ik := rfl
@[simp] theorem setThr_portCycle (s : State) (n : ThreadId) (h : Thread) : (setThr s n h).portCycle = s.portCycle := rfl
@[simp] theorem setThr_dies (s : State) (n : ThreadId) (h : Thread) : (setThr s n h).dies = s.dies := rfl
@[simp] theorem setThr_powerLimit (s : State) (n : ThreadId) (h : Thread) : (setThr s n h).powerLimit = s.powerLimit := rfl
@[simp] theorem setThr_power (s : State) (n : ThreadId) (h : Thread) : (setThr s n h).power = s.power := rfl
@[simp] theorem setThr_flash (s : State) (n : ThreadId) (h : Thread) : (setThr s n h).flash = s.flash := rfl
@[simp] theorem setThr_bootSlot (s : State) (n : ThreadId) (h : Thread) : (setThr s n h).bootSlot = s.bootSlot := rfl
@[simp] theorem setThr_bootSeq (s : State) (n : ThreadId) (h : Thread) : (setThr s n h).bootSeq = s.bootSeq := rfl
@[simp] theorem setThr_firmware (s : State) (n : ThreadId) (h : Thread) : (setThr s n h).firmware = s.firmware := rfl
@[simp] theorem setThr_firmwareSize (s : State) (n : ThreadId) (h : Thread) : (setThr s n h).firmwareSize = s.firmwareSize := rfl
@[simp] theorem setThr_mr0 (s : State) (n : ThreadId) (h : Thread) : (setThr s n h).mr0 = s.mr0 := rfl
@[simp] theorem setThr_mr1 (s : State) (n : ThreadId) (h : Thread) : (setThr s n h).mr1 = s.mr1 := rfl
@[simp] theorem setThr_mem (s : State) (n : ThreadId) (h : Thread) : (setThr s n h).mem = s.mem := rfl
@[simp] theorem setThr_olds (s : State) (n : ThreadId) (h : Thread) : (setThr s n h).olds = s.olds := rfl
@[simp] theorem setThr_owners (s : State) (n : ThreadId) (h : Thread) : (setThr s n h).owners = s.owners := rfl
@[simp] theorem setThr_zeroing (s : State) (n : ThreadId) (h : Thread) : (setThr s n h).zeroing = s.zeroing := rfl
@[simp] theorem setThr_nvme (s : State) (n : ThreadId) (h : Thread) : (setThr s n h).nvme = s.nvme := rfl
@[simp] theorem setThr_scrubFixed (s : State) (n : ThreadId) (h : Thread) : (setThr s n h).scrubFixed = s.scrubFixed := rfl
@[simp] theorem setThr_scrubLost (s : State) (n : ThreadId) (h : Thread) : (setThr s n h).scrubLost = s.scrubLost := rfl
@[simp] theorem setThr_bad (s : State) (n : ThreadId) (h : Thread) : (setThr s n h).bad = s.bad := rfl
@[simp] theorem setThr_tiles (s : State) (n : ThreadId) (h : Thread) : (setThr s n h).tiles = s.tiles := rfl
@[simp] theorem setThr_parts (s : State) (n : ThreadId) (h : Thread) : (setThr s n h).parts = s.parts := rfl
@[simp] theorem setThr_vfs (s : State) (n : ThreadId) (h : Thread) : (setThr s n h).vfs = s.vfs := rfl
@[simp] theorem setThr_gangs (s : State) (n : ThreadId) (h : Thread) : (setThr s n h).gangs = s.gangs := rfl
@[simp] theorem setThr_entries (s : State) (n : ThreadId) (h : Thread) : (setThr s n h).entries = s.entries := rfl
@[simp] theorem setThr_reserved (s : State) (n : ThreadId) (h : Thread) : (setThr s n h).reserved = s.reserved := rfl
@[simp] theorem setThr_arrivals (s : State) (n : ThreadId) (h : Thread) : (setThr s n h).arrivals = s.arrivals := rfl
@[simp] theorem setThr_counters (s : State) (n : ThreadId) (h : Thread) : (setThr s n h).counters = s.counters := rfl
@[simp] theorem setThr_bookings (s : State) (n : ThreadId) (h : Thread) : (setThr s n h).bookings = s.bookings := rfl
@[simp] theorem setThr_lodging (s : State) (n : ThreadId) (h : Thread) : (setThr s n h).lodging = s.lodging := rfl
@[simp] theorem setThr_drovers (s : State) (n : ThreadId) (h : Thread) : (setThr s n h).drovers = s.drovers := rfl
@[simp] theorem setThr_timers (s : State) (n : ThreadId) (h : Thread) : (setThr s n h).timers = s.timers := rfl
@[simp] theorem setThr_snapshots (s : State) (n : ThreadId) (h : Thread) : (setThr s n h).snapshots = s.snapshots := rfl
@[simp] theorem setThr_inbound (s : State) (n : ThreadId) (h : Thread) : (setThr s n h).inbound = s.inbound := rfl
@[simp] theorem setThr_accepted (s : State) (n : ThreadId) (h : Thread) : (setThr s n h).accepted = s.accepted := rfl
@[simp] theorem setThr_outbound (s : State) (n : ThreadId) (h : Thread) : (setThr s n h).outbound = s.outbound := rfl
@[simp] theorem setThr_nvmeAdmin (s : State) (n : ThreadId) (h : Thread) : (setThr s n h).nvmeAdmin = s.nvmeAdmin := rfl
@[simp] theorem setThr_linksDown (s : State) (n : ThreadId) (h : Thread) : (setThr s n h).linksDown = s.linksDown := rfl
@[simp] theorem setThr_dropped (s : State) (n : ThreadId) (h : Thread) : (setThr s n h).dropped = s.dropped := rfl
@[simp] theorem setThr_purlinId (s : State) (n : ThreadId) (h : Thread) : (setThr s n h).purlinId = s.purlinId := rfl
@[simp] theorem setThr_routes (s : State) (n : ThreadId) (h : Thread) : (setThr s n h).routes = s.routes := rfl
@[simp] theorem setThr_pfState (s : State) (n : ThreadId) (h : Thread) : (setThr s n h).pfState = s.pfState := rfl
@[simp] theorem setThr_peers (s : State) (n : ThreadId) (h : Thread) : (setThr s n h).peers = s.peers := rfl
@[simp] theorem setThr_wire (s : State) (n : ThreadId) (h : Thread) : (setThr s n h).wire = s.wire := rfl
@[simp] theorem setThr_selected (s : State) (n : ThreadId) (h : Thread) : (setThr s n h).selected = s.selected := rfl
@[simp] theorem setThr_drawn (s : State) (n : ThreadId) (h : Thread) : (setThr s n h).drawn = s.drawn := rfl
@[simp] theorem setThr_flashWrites (s : State) (n : ThreadId) (h : Thread) : (setThr s n h).flashWrites = s.flashWrites := rfl
@[simp] theorem setThr_marks (s : State) (n : ThreadId) (h : Thread) : (setThr s n h).marks = s.marks := rfl
@[simp] theorem setThr_holds (s : State) (n : ThreadId) (h : Thread) : (setThr s n h).holds = s.holds := rfl
@[simp] theorem setThr_kept (s : State) (n : ThreadId) (h : Thread) : (setThr s n h).kept = s.kept := rfl
@[simp] theorem setThr_namespaces (s : State) (n : ThreadId) (h : Thread) : (setThr s n h).namespaces = s.namespaces := rfl
@[simp] theorem setThr_heldCounts (s : State) (n : ThreadId) (h : Thread) : (setThr s n h).heldCounts = s.heldCounts := rfl
@[simp] theorem setThr_bookPos (s : State) (n : ThreadId) (h : Thread) : (setThr s n h).bookPos = s.bookPos := rfl
@[simp] theorem setThr_lastServed (s : State) (n : ThreadId) (h : Thread) : (setThr s n h).lastServed = s.lastServed := rfl
@[simp] theorem setThr_decoders (s : State) (n : ThreadId) (h : Thread) : (setThr s n h).decoders = s.decoders := rfl
@[simp] theorem setThr_contexts (s : State) (n : ThreadId) (h : Thread) : (setThr s n h).contexts = s.contexts := rfl
@[simp] theorem setThr_downAt (s : State) (n : ThreadId) (h : Thread) : (setThr s n h).downAt = s.downAt := rfl
@[simp] theorem tileOf_setThr (s : State) (n : ThreadId) (h : Thread) (i : TileId) : tileOf (setThr s n h) i = tileOf s i := rfl
@[simp] theorem thrOf_setThr_same (s : State) (n : ThreadId) (h : Thread) : thrOf (setThr s n h) n = h := by simp [thrOf, setThr]
theorem thrOf_setThr_of_ne (s : State) (n : ThreadId) (h : Thread) {i : ThreadId} (e : n ≠ i) : thrOf (setThr s n h) i = thrOf s i := by
  simp [thrOf, setThr, vget_vset_of_ne _ _ e]
@[simp] theorem setThr_twice (s : State) (n : ThreadId) (h : Thread) (y : Thread) : setThr (setThr s n h) n y = setThr s n y := by simp [setThr]
@[simp] theorem setThr_self (s : State) (i : ThreadId) : setThr s i (thrOf s i) = s := by simp [setThr, thrOf]
@[simp] theorem partOf_setThr (s : State) (n : ThreadId) (h : Thread) (i : PartId) : partOf (setThr s n h) i = partOf s i := rfl
@[simp] theorem vfOf_setThr (s : State) (n : ThreadId) (h : Thread) (i : VfId) : vfOf (setThr s n h) i = vfOf s i := rfl

/-! ### setPart -/

@[simp] theorem setPart_agenda (s : State) (p : PartId) (q : Partition) : (setPart s p q).agenda = s.agenda := rfl
@[simp] theorem setPart_cur (s : State) (p : PartId) (q : Partition) : (setPart s p q).cur = s.cur := rfl
@[simp] theorem setPart_freeCtr (s : State) (p : PartId) (q : Partition) : (setPart s p q).freeCtr = s.freeCtr := rfl
@[simp] theorem setPart_seq (s : State) (p : PartId) (q : Partition) : (setPart s p q).seq = s.seq := rfl
@[simp] theorem setPart_ik (s : State) (p : PartId) (q : Partition) : (setPart s p q).ik = s.ik := rfl
@[simp] theorem setPart_portCycle (s : State) (p : PartId) (q : Partition) : (setPart s p q).portCycle = s.portCycle := rfl
@[simp] theorem setPart_dies (s : State) (p : PartId) (q : Partition) : (setPart s p q).dies = s.dies := rfl
@[simp] theorem setPart_powerLimit (s : State) (p : PartId) (q : Partition) : (setPart s p q).powerLimit = s.powerLimit := rfl
@[simp] theorem setPart_power (s : State) (p : PartId) (q : Partition) : (setPart s p q).power = s.power := rfl
@[simp] theorem setPart_flash (s : State) (p : PartId) (q : Partition) : (setPart s p q).flash = s.flash := rfl
@[simp] theorem setPart_bootSlot (s : State) (p : PartId) (q : Partition) : (setPart s p q).bootSlot = s.bootSlot := rfl
@[simp] theorem setPart_bootSeq (s : State) (p : PartId) (q : Partition) : (setPart s p q).bootSeq = s.bootSeq := rfl
@[simp] theorem setPart_firmware (s : State) (p : PartId) (q : Partition) : (setPart s p q).firmware = s.firmware := rfl
@[simp] theorem setPart_firmwareSize (s : State) (p : PartId) (q : Partition) : (setPart s p q).firmwareSize = s.firmwareSize := rfl
@[simp] theorem setPart_mr0 (s : State) (p : PartId) (q : Partition) : (setPart s p q).mr0 = s.mr0 := rfl
@[simp] theorem setPart_mr1 (s : State) (p : PartId) (q : Partition) : (setPart s p q).mr1 = s.mr1 := rfl
@[simp] theorem setPart_mem (s : State) (p : PartId) (q : Partition) : (setPart s p q).mem = s.mem := rfl
@[simp] theorem setPart_olds (s : State) (p : PartId) (q : Partition) : (setPart s p q).olds = s.olds := rfl
@[simp] theorem setPart_owners (s : State) (p : PartId) (q : Partition) : (setPart s p q).owners = s.owners := rfl
@[simp] theorem setPart_zeroing (s : State) (p : PartId) (q : Partition) : (setPart s p q).zeroing = s.zeroing := rfl
@[simp] theorem setPart_nvme (s : State) (p : PartId) (q : Partition) : (setPart s p q).nvme = s.nvme := rfl
@[simp] theorem setPart_scrubFixed (s : State) (p : PartId) (q : Partition) : (setPart s p q).scrubFixed = s.scrubFixed := rfl
@[simp] theorem setPart_scrubLost (s : State) (p : PartId) (q : Partition) : (setPart s p q).scrubLost = s.scrubLost := rfl
@[simp] theorem setPart_bad (s : State) (p : PartId) (q : Partition) : (setPart s p q).bad = s.bad := rfl
@[simp] theorem setPart_tiles (s : State) (p : PartId) (q : Partition) : (setPart s p q).tiles = s.tiles := rfl
@[simp] theorem setPart_threads (s : State) (p : PartId) (q : Partition) : (setPart s p q).threads = s.threads := rfl
@[simp] theorem setPart_vfs (s : State) (p : PartId) (q : Partition) : (setPart s p q).vfs = s.vfs := rfl
@[simp] theorem setPart_gangs (s : State) (p : PartId) (q : Partition) : (setPart s p q).gangs = s.gangs := rfl
@[simp] theorem setPart_entries (s : State) (p : PartId) (q : Partition) : (setPart s p q).entries = s.entries := rfl
@[simp] theorem setPart_reserved (s : State) (p : PartId) (q : Partition) : (setPart s p q).reserved = s.reserved := rfl
@[simp] theorem setPart_arrivals (s : State) (p : PartId) (q : Partition) : (setPart s p q).arrivals = s.arrivals := rfl
@[simp] theorem setPart_counters (s : State) (p : PartId) (q : Partition) : (setPart s p q).counters = s.counters := rfl
@[simp] theorem setPart_bookings (s : State) (p : PartId) (q : Partition) : (setPart s p q).bookings = s.bookings := rfl
@[simp] theorem setPart_lodging (s : State) (p : PartId) (q : Partition) : (setPart s p q).lodging = s.lodging := rfl
@[simp] theorem setPart_drovers (s : State) (p : PartId) (q : Partition) : (setPart s p q).drovers = s.drovers := rfl
@[simp] theorem setPart_timers (s : State) (p : PartId) (q : Partition) : (setPart s p q).timers = s.timers := rfl
@[simp] theorem setPart_snapshots (s : State) (p : PartId) (q : Partition) : (setPart s p q).snapshots = s.snapshots := rfl
@[simp] theorem setPart_inbound (s : State) (p : PartId) (q : Partition) : (setPart s p q).inbound = s.inbound := rfl
@[simp] theorem setPart_accepted (s : State) (p : PartId) (q : Partition) : (setPart s p q).accepted = s.accepted := rfl
@[simp] theorem setPart_outbound (s : State) (p : PartId) (q : Partition) : (setPart s p q).outbound = s.outbound := rfl
@[simp] theorem setPart_nvmeAdmin (s : State) (p : PartId) (q : Partition) : (setPart s p q).nvmeAdmin = s.nvmeAdmin := rfl
@[simp] theorem setPart_linksDown (s : State) (p : PartId) (q : Partition) : (setPart s p q).linksDown = s.linksDown := rfl
@[simp] theorem setPart_dropped (s : State) (p : PartId) (q : Partition) : (setPart s p q).dropped = s.dropped := rfl
@[simp] theorem setPart_purlinId (s : State) (p : PartId) (q : Partition) : (setPart s p q).purlinId = s.purlinId := rfl
@[simp] theorem setPart_routes (s : State) (p : PartId) (q : Partition) : (setPart s p q).routes = s.routes := rfl
@[simp] theorem setPart_pfState (s : State) (p : PartId) (q : Partition) : (setPart s p q).pfState = s.pfState := rfl
@[simp] theorem setPart_peers (s : State) (p : PartId) (q : Partition) : (setPart s p q).peers = s.peers := rfl
@[simp] theorem setPart_wire (s : State) (p : PartId) (q : Partition) : (setPart s p q).wire = s.wire := rfl
@[simp] theorem setPart_selected (s : State) (p : PartId) (q : Partition) : (setPart s p q).selected = s.selected := rfl
@[simp] theorem setPart_drawn (s : State) (p : PartId) (q : Partition) : (setPart s p q).drawn = s.drawn := rfl
@[simp] theorem setPart_flashWrites (s : State) (p : PartId) (q : Partition) : (setPart s p q).flashWrites = s.flashWrites := rfl
@[simp] theorem setPart_marks (s : State) (p : PartId) (q : Partition) : (setPart s p q).marks = s.marks := rfl
@[simp] theorem setPart_holds (s : State) (p : PartId) (q : Partition) : (setPart s p q).holds = s.holds := rfl
@[simp] theorem setPart_kept (s : State) (p : PartId) (q : Partition) : (setPart s p q).kept = s.kept := rfl
@[simp] theorem setPart_namespaces (s : State) (p : PartId) (q : Partition) : (setPart s p q).namespaces = s.namespaces := rfl
@[simp] theorem setPart_heldCounts (s : State) (p : PartId) (q : Partition) : (setPart s p q).heldCounts = s.heldCounts := rfl
@[simp] theorem setPart_bookPos (s : State) (p : PartId) (q : Partition) : (setPart s p q).bookPos = s.bookPos := rfl
@[simp] theorem setPart_lastServed (s : State) (p : PartId) (q : Partition) : (setPart s p q).lastServed = s.lastServed := rfl
@[simp] theorem setPart_decoders (s : State) (p : PartId) (q : Partition) : (setPart s p q).decoders = s.decoders := rfl
@[simp] theorem setPart_contexts (s : State) (p : PartId) (q : Partition) : (setPart s p q).contexts = s.contexts := rfl
@[simp] theorem setPart_downAt (s : State) (p : PartId) (q : Partition) : (setPart s p q).downAt = s.downAt := rfl
@[simp] theorem tileOf_setPart (s : State) (p : PartId) (q : Partition) (i : TileId) : tileOf (setPart s p q) i = tileOf s i := rfl
@[simp] theorem thrOf_setPart (s : State) (p : PartId) (q : Partition) (i : ThreadId) : thrOf (setPart s p q) i = thrOf s i := rfl
@[simp] theorem partOf_setPart_same (s : State) (p : PartId) (q : Partition) : partOf (setPart s p q) p = q := by simp [partOf, setPart]
theorem partOf_setPart_of_ne (s : State) (p : PartId) (q : Partition) {i : PartId} (e : p ≠ i) : partOf (setPart s p q) i = partOf s i := by
  simp [partOf, setPart, vget_vset_of_ne _ _ e]
@[simp] theorem setPart_twice (s : State) (p : PartId) (q : Partition) (y : Partition) : setPart (setPart s p q) p y = setPart s p y := by simp [setPart]
@[simp] theorem setPart_self (s : State) (i : PartId) : setPart s i (partOf s i) = s := by simp [setPart, partOf]
@[simp] theorem vfOf_setPart (s : State) (p : PartId) (q : Partition) (i : VfId) : vfOf (setPart s p q) i = vfOf s i := rfl

/-! ### setVf -/

@[simp] theorem setVf_agenda (s : State) (v : VfId) (f : Vf) : (setVf s v f).agenda = s.agenda := rfl
@[simp] theorem setVf_cur (s : State) (v : VfId) (f : Vf) : (setVf s v f).cur = s.cur := rfl
@[simp] theorem setVf_freeCtr (s : State) (v : VfId) (f : Vf) : (setVf s v f).freeCtr = s.freeCtr := rfl
@[simp] theorem setVf_seq (s : State) (v : VfId) (f : Vf) : (setVf s v f).seq = s.seq := rfl
@[simp] theorem setVf_ik (s : State) (v : VfId) (f : Vf) : (setVf s v f).ik = s.ik := rfl
@[simp] theorem setVf_portCycle (s : State) (v : VfId) (f : Vf) : (setVf s v f).portCycle = s.portCycle := rfl
@[simp] theorem setVf_dies (s : State) (v : VfId) (f : Vf) : (setVf s v f).dies = s.dies := rfl
@[simp] theorem setVf_powerLimit (s : State) (v : VfId) (f : Vf) : (setVf s v f).powerLimit = s.powerLimit := rfl
@[simp] theorem setVf_power (s : State) (v : VfId) (f : Vf) : (setVf s v f).power = s.power := rfl
@[simp] theorem setVf_flash (s : State) (v : VfId) (f : Vf) : (setVf s v f).flash = s.flash := rfl
@[simp] theorem setVf_bootSlot (s : State) (v : VfId) (f : Vf) : (setVf s v f).bootSlot = s.bootSlot := rfl
@[simp] theorem setVf_bootSeq (s : State) (v : VfId) (f : Vf) : (setVf s v f).bootSeq = s.bootSeq := rfl
@[simp] theorem setVf_firmware (s : State) (v : VfId) (f : Vf) : (setVf s v f).firmware = s.firmware := rfl
@[simp] theorem setVf_firmwareSize (s : State) (v : VfId) (f : Vf) : (setVf s v f).firmwareSize = s.firmwareSize := rfl
@[simp] theorem setVf_mr0 (s : State) (v : VfId) (f : Vf) : (setVf s v f).mr0 = s.mr0 := rfl
@[simp] theorem setVf_mr1 (s : State) (v : VfId) (f : Vf) : (setVf s v f).mr1 = s.mr1 := rfl
@[simp] theorem setVf_mem (s : State) (v : VfId) (f : Vf) : (setVf s v f).mem = s.mem := rfl
@[simp] theorem setVf_olds (s : State) (v : VfId) (f : Vf) : (setVf s v f).olds = s.olds := rfl
@[simp] theorem setVf_owners (s : State) (v : VfId) (f : Vf) : (setVf s v f).owners = s.owners := rfl
@[simp] theorem setVf_zeroing (s : State) (v : VfId) (f : Vf) : (setVf s v f).zeroing = s.zeroing := rfl
@[simp] theorem setVf_nvme (s : State) (v : VfId) (f : Vf) : (setVf s v f).nvme = s.nvme := rfl
@[simp] theorem setVf_scrubFixed (s : State) (v : VfId) (f : Vf) : (setVf s v f).scrubFixed = s.scrubFixed := rfl
@[simp] theorem setVf_scrubLost (s : State) (v : VfId) (f : Vf) : (setVf s v f).scrubLost = s.scrubLost := rfl
@[simp] theorem setVf_bad (s : State) (v : VfId) (f : Vf) : (setVf s v f).bad = s.bad := rfl
@[simp] theorem setVf_tiles (s : State) (v : VfId) (f : Vf) : (setVf s v f).tiles = s.tiles := rfl
@[simp] theorem setVf_threads (s : State) (v : VfId) (f : Vf) : (setVf s v f).threads = s.threads := rfl
@[simp] theorem setVf_parts (s : State) (v : VfId) (f : Vf) : (setVf s v f).parts = s.parts := rfl
@[simp] theorem setVf_gangs (s : State) (v : VfId) (f : Vf) : (setVf s v f).gangs = s.gangs := rfl
@[simp] theorem setVf_entries (s : State) (v : VfId) (f : Vf) : (setVf s v f).entries = s.entries := rfl
@[simp] theorem setVf_reserved (s : State) (v : VfId) (f : Vf) : (setVf s v f).reserved = s.reserved := rfl
@[simp] theorem setVf_arrivals (s : State) (v : VfId) (f : Vf) : (setVf s v f).arrivals = s.arrivals := rfl
@[simp] theorem setVf_counters (s : State) (v : VfId) (f : Vf) : (setVf s v f).counters = s.counters := rfl
@[simp] theorem setVf_bookings (s : State) (v : VfId) (f : Vf) : (setVf s v f).bookings = s.bookings := rfl
@[simp] theorem setVf_lodging (s : State) (v : VfId) (f : Vf) : (setVf s v f).lodging = s.lodging := rfl
@[simp] theorem setVf_drovers (s : State) (v : VfId) (f : Vf) : (setVf s v f).drovers = s.drovers := rfl
@[simp] theorem setVf_timers (s : State) (v : VfId) (f : Vf) : (setVf s v f).timers = s.timers := rfl
@[simp] theorem setVf_snapshots (s : State) (v : VfId) (f : Vf) : (setVf s v f).snapshots = s.snapshots := rfl
@[simp] theorem setVf_inbound (s : State) (v : VfId) (f : Vf) : (setVf s v f).inbound = s.inbound := rfl
@[simp] theorem setVf_accepted (s : State) (v : VfId) (f : Vf) : (setVf s v f).accepted = s.accepted := rfl
@[simp] theorem setVf_outbound (s : State) (v : VfId) (f : Vf) : (setVf s v f).outbound = s.outbound := rfl
@[simp] theorem setVf_nvmeAdmin (s : State) (v : VfId) (f : Vf) : (setVf s v f).nvmeAdmin = s.nvmeAdmin := rfl
@[simp] theorem setVf_linksDown (s : State) (v : VfId) (f : Vf) : (setVf s v f).linksDown = s.linksDown := rfl
@[simp] theorem setVf_dropped (s : State) (v : VfId) (f : Vf) : (setVf s v f).dropped = s.dropped := rfl
@[simp] theorem setVf_purlinId (s : State) (v : VfId) (f : Vf) : (setVf s v f).purlinId = s.purlinId := rfl
@[simp] theorem setVf_routes (s : State) (v : VfId) (f : Vf) : (setVf s v f).routes = s.routes := rfl
@[simp] theorem setVf_pfState (s : State) (v : VfId) (f : Vf) : (setVf s v f).pfState = s.pfState := rfl
@[simp] theorem setVf_peers (s : State) (v : VfId) (f : Vf) : (setVf s v f).peers = s.peers := rfl
@[simp] theorem setVf_wire (s : State) (v : VfId) (f : Vf) : (setVf s v f).wire = s.wire := rfl
@[simp] theorem setVf_selected (s : State) (v : VfId) (f : Vf) : (setVf s v f).selected = s.selected := rfl
@[simp] theorem setVf_drawn (s : State) (v : VfId) (f : Vf) : (setVf s v f).drawn = s.drawn := rfl
@[simp] theorem setVf_flashWrites (s : State) (v : VfId) (f : Vf) : (setVf s v f).flashWrites = s.flashWrites := rfl
@[simp] theorem setVf_marks (s : State) (v : VfId) (f : Vf) : (setVf s v f).marks = s.marks := rfl
@[simp] theorem setVf_holds (s : State) (v : VfId) (f : Vf) : (setVf s v f).holds = s.holds := rfl
@[simp] theorem setVf_kept (s : State) (v : VfId) (f : Vf) : (setVf s v f).kept = s.kept := rfl
@[simp] theorem setVf_namespaces (s : State) (v : VfId) (f : Vf) : (setVf s v f).namespaces = s.namespaces := rfl
@[simp] theorem setVf_heldCounts (s : State) (v : VfId) (f : Vf) : (setVf s v f).heldCounts = s.heldCounts := rfl
@[simp] theorem setVf_bookPos (s : State) (v : VfId) (f : Vf) : (setVf s v f).bookPos = s.bookPos := rfl
@[simp] theorem setVf_lastServed (s : State) (v : VfId) (f : Vf) : (setVf s v f).lastServed = s.lastServed := rfl
@[simp] theorem setVf_decoders (s : State) (v : VfId) (f : Vf) : (setVf s v f).decoders = s.decoders := rfl
@[simp] theorem setVf_contexts (s : State) (v : VfId) (f : Vf) : (setVf s v f).contexts = s.contexts := rfl
@[simp] theorem setVf_downAt (s : State) (v : VfId) (f : Vf) : (setVf s v f).downAt = s.downAt := rfl
@[simp] theorem tileOf_setVf (s : State) (v : VfId) (f : Vf) (i : TileId) : tileOf (setVf s v f) i = tileOf s i := rfl
@[simp] theorem thrOf_setVf (s : State) (v : VfId) (f : Vf) (i : ThreadId) : thrOf (setVf s v f) i = thrOf s i := rfl
@[simp] theorem partOf_setVf (s : State) (v : VfId) (f : Vf) (i : PartId) : partOf (setVf s v f) i = partOf s i := rfl
@[simp] theorem vfOf_setVf_same (s : State) (v : VfId) (f : Vf) : vfOf (setVf s v f) v = f := by simp [vfOf, setVf]
theorem vfOf_setVf_of_ne (s : State) (v : VfId) (f : Vf) {i : VfId} (e : v ≠ i) : vfOf (setVf s v f) i = vfOf s i := by
  simp [vfOf, setVf, vget_vset_of_ne _ _ e]
@[simp] theorem setVf_twice (s : State) (v : VfId) (f : Vf) (y : Vf) : setVf (setVf s v f) v y = setVf s v y := by simp [setVf]
@[simp] theorem setVf_self (s : State) (i : VfId) : setVf s i (vfOf s i) = s := by simp [setVf, vfOf]

/-! ### Streams of a tile -/

@[simp] theorem setStrm_spad (T : Tile) (st : Stream) (c : StreamCtx) : (setStrm T st c).spad = T.spad := by cases st <;> rfl
@[simp] theorem setStrm_tags (T : Tile) (st : Stream) (c : StreamCtx) : (setStrm T st c).tags = T.tags := by cases st <;> rfl
@[simp] theorem setStrm_acc (T : Tile) (st : Stream) (c : StreamCtx) : (setStrm T st c).acc = T.acc := by cases st <;> rfl
@[simp] theorem setStrm_x (T : Tile) (st : Stream) (c : StreamCtx) : (setStrm T st c).x = T.x := by cases st <;> rfl
@[simp] theorem setStrm_v (T : Tile) (st : Stream) (c : StreamCtx) : (setStrm T st c).v = T.v := by cases st <;> rfl
@[simp] theorem setStrm_k (T : Tile) (st : Stream) (c : StreamCtx) : (setStrm T st c).k = T.k := by cases st <;> rfl
@[simp] theorem setStrm_bypass (T : Tile) (st : Stream) (c : StreamCtx) : (setStrm T st c).bypass = T.bypass := by cases st <;> rfl
@[simp] theorem setStrm_vloops (T : Tile) (st : Stream) (c : StreamCtx) : (setStrm T st c).vloops = T.vloops := by cases st <;> rfl
@[simp] theorem setStrm_ssa (T : Tile) (st : Stream) (c : StreamCtx) : (setStrm T st c).ssa = T.ssa := by cases st <;> rfl
@[simp] theorem setStrm_ssb (T : Tile) (st : Stream) (c : StreamCtx) : (setStrm T st c).ssb = T.ssb := by cases st <;> rfl
@[simp] theorem setStrm_pegs (T : Tile) (st : Stream) (c : StreamCtx) : (setStrm T st c).pegs = T.pegs := by cases st <;> rfl
@[simp] theorem setStrm_queues (T : Tile) (st : Stream) (c : StreamCtx) : (setStrm T st c).queues = T.queues := by cases st <;> rfl
@[simp] theorem setStrm_cmdsM (T : Tile) (st : Stream) (c : StreamCtx) : (setStrm T st c).cmdsM = T.cmdsM := by cases st <;> rfl
@[simp] theorem setStrm_cmdsA (T : Tile) (st : Stream) (c : StreamCtx) : (setStrm T st c).cmdsA = T.cmdsA := by cases st <;> rfl
@[simp] theorem setStrm_stores (T : Tile) (st : Stream) (c : StreamCtx) : (setStrm T st c).stores = T.stores := by cases st <;> rfl
@[simp] theorem setStrm_effects (T : Tile) (st : Stream) (c : StreamCtx) : (setStrm T st c).effects = T.effects := by cases st <;> rfl
@[simp] theorem setStrm_publishes (T : Tile) (st : Stream) (c : StreamCtx) : (setStrm T st c).publishes = T.publishes := by cases st <;> rfl
@[simp] theorem setStrm_pubs (T : Tile) (st : Stream) (c : StreamCtx) : (setStrm T st c).pubs = T.pubs := by cases st <;> rfl
@[simp] theorem setStrm_tlb (T : Tile) (st : Stream) (c : StreamCtx) : (setStrm T st c).tlb = T.tlb := by cases st <;> rfl
@[simp] theorem setStrm_sWait (T : Tile) (st : Stream) (c : StreamCtx) : (setStrm T st c).sWait = T.sWait := by cases st <;> rfl
@[simp] theorem setStrm_task (T : Tile) (st : Stream) (c : StreamCtx) : (setStrm T st c).task = T.task := by cases st <;> rfl
@[simp] theorem setStrm_debug (T : Tile) (st : Stream) (c : StreamCtx) : (setStrm T st c).debug = T.debug := by cases st <;> rfl
@[simp] theorem setStrm_heldTrap (T : Tile) (st : Stream) (c : StreamCtx) : (setStrm T st c).heldTrap = T.heldTrap := by cases st <;> rfl
@[simp] theorem setStrm_observed (T : Tile) (st : Stream) (c : StreamCtx) : (setStrm T st c).observed = T.observed := by cases st <;> rfl
@[simp] theorem strm_setStrm_same (T : Tile) (st : Stream) (c : StreamCtx) : strm (setStrm T st c) st = c := by
  cases st <;> rfl
theorem strm_setStrm_of_ne (T : Tile) {st st' : Stream} (c : StreamCtx) (h : st ≠ st') :
    strm (setStrm T st c) st' = strm T st' := by
  cases st <;> cases st' <;> first | rfl | exact absurd rfl h
@[simp] theorem setStrm_self (T : Tile) (st : Stream) : setStrm T st (strm T st) = T := by cases st <;> rfl
@[simp] theorem setStrm_twice (T : Tile) (st : Stream) (c d : StreamCtx) :
    setStrm (setStrm T st c) st d = setStrm T st d := by
  cases st <;> rfl

/-! ### The agent's registers and pc -/

@[simp] theorem wx_agenda (s : State) (r : XReg) (w : Word) : (wx s r w).agenda = s.agenda := by
  unfold wx; split <;> rfl
@[simp] theorem wx_cur (s : State) (r : XReg) (w : Word) : (wx s r w).cur = s.cur := by
  unfold wx; split <;> rfl
@[simp] theorem wx_freeCtr (s : State) (r : XReg) (w : Word) : (wx s r w).freeCtr = s.freeCtr := by
  unfold wx; split <;> rfl
@[simp] theorem wx_seq (s : State) (r : XReg) (w : Word) : (wx s r w).seq = s.seq := by
  unfold wx; split <;> rfl
@[simp] theorem wx_ik (s : State) (r : XReg) (w : Word) : (wx s r w).ik = s.ik := by
  unfold wx; split <;> rfl
@[simp] theorem wx_portCycle (s : State) (r : XReg) (w : Word) : (wx s r w).portCycle = s.portCycle := by
  unfold wx; split <;> rfl
@[simp] theorem wx_dies (s : State) (r : XReg) (w : Word) : (wx s r w).dies = s.dies := by
  unfold wx; split <;> rfl
@[simp] theorem wx_powerLimit (s : State) (r : XReg) (w : Word) : (wx s r w).powerLimit = s.powerLimit := by
  unfold wx; split <;> rfl
@[simp] theorem wx_power (s : State) (r : XReg) (w : Word) : (wx s r w).power = s.power := by
  unfold wx; split <;> rfl
@[simp] theorem wx_flash (s : State) (r : XReg) (w : Word) : (wx s r w).flash = s.flash := by
  unfold wx; split <;> rfl
@[simp] theorem wx_bootSlot (s : State) (r : XReg) (w : Word) : (wx s r w).bootSlot = s.bootSlot := by
  unfold wx; split <;> rfl
@[simp] theorem wx_bootSeq (s : State) (r : XReg) (w : Word) : (wx s r w).bootSeq = s.bootSeq := by
  unfold wx; split <;> rfl
@[simp] theorem wx_firmware (s : State) (r : XReg) (w : Word) : (wx s r w).firmware = s.firmware := by
  unfold wx; split <;> rfl
@[simp] theorem wx_firmwareSize (s : State) (r : XReg) (w : Word) : (wx s r w).firmwareSize = s.firmwareSize := by
  unfold wx; split <;> rfl
@[simp] theorem wx_mr0 (s : State) (r : XReg) (w : Word) : (wx s r w).mr0 = s.mr0 := by
  unfold wx; split <;> rfl
@[simp] theorem wx_mr1 (s : State) (r : XReg) (w : Word) : (wx s r w).mr1 = s.mr1 := by
  unfold wx; split <;> rfl
@[simp] theorem wx_mem (s : State) (r : XReg) (w : Word) : (wx s r w).mem = s.mem := by
  unfold wx; split <;> rfl
@[simp] theorem wx_olds (s : State) (r : XReg) (w : Word) : (wx s r w).olds = s.olds := by
  unfold wx; split <;> rfl
@[simp] theorem wx_owners (s : State) (r : XReg) (w : Word) : (wx s r w).owners = s.owners := by
  unfold wx; split <;> rfl
@[simp] theorem wx_zeroing (s : State) (r : XReg) (w : Word) : (wx s r w).zeroing = s.zeroing := by
  unfold wx; split <;> rfl
@[simp] theorem wx_nvme (s : State) (r : XReg) (w : Word) : (wx s r w).nvme = s.nvme := by
  unfold wx; split <;> rfl
@[simp] theorem wx_scrubFixed (s : State) (r : XReg) (w : Word) : (wx s r w).scrubFixed = s.scrubFixed := by
  unfold wx; split <;> rfl
@[simp] theorem wx_scrubLost (s : State) (r : XReg) (w : Word) : (wx s r w).scrubLost = s.scrubLost := by
  unfold wx; split <;> rfl
@[simp] theorem wx_bad (s : State) (r : XReg) (w : Word) : (wx s r w).bad = s.bad := by
  unfold wx; split <;> rfl
@[simp] theorem wx_parts (s : State) (r : XReg) (w : Word) : (wx s r w).parts = s.parts := by
  unfold wx; split <;> rfl
@[simp] theorem wx_vfs (s : State) (r : XReg) (w : Word) : (wx s r w).vfs = s.vfs := by
  unfold wx; split <;> rfl
@[simp] theorem wx_gangs (s : State) (r : XReg) (w : Word) : (wx s r w).gangs = s.gangs := by
  unfold wx; split <;> rfl
@[simp] theorem wx_entries (s : State) (r : XReg) (w : Word) : (wx s r w).entries = s.entries := by
  unfold wx; split <;> rfl
@[simp] theorem wx_reserved (s : State) (r : XReg) (w : Word) : (wx s r w).reserved = s.reserved := by
  unfold wx; split <;> rfl
@[simp] theorem wx_arrivals (s : State) (r : XReg) (w : Word) : (wx s r w).arrivals = s.arrivals := by
  unfold wx; split <;> rfl
@[simp] theorem wx_counters (s : State) (r : XReg) (w : Word) : (wx s r w).counters = s.counters := by
  unfold wx; split <;> rfl
@[simp] theorem wx_bookings (s : State) (r : XReg) (w : Word) : (wx s r w).bookings = s.bookings := by
  unfold wx; split <;> rfl
@[simp] theorem wx_lodging (s : State) (r : XReg) (w : Word) : (wx s r w).lodging = s.lodging := by
  unfold wx; split <;> rfl
@[simp] theorem wx_drovers (s : State) (r : XReg) (w : Word) : (wx s r w).drovers = s.drovers := by
  unfold wx; split <;> rfl
@[simp] theorem wx_timers (s : State) (r : XReg) (w : Word) : (wx s r w).timers = s.timers := by
  unfold wx; split <;> rfl
@[simp] theorem wx_snapshots (s : State) (r : XReg) (w : Word) : (wx s r w).snapshots = s.snapshots := by
  unfold wx; split <;> rfl
@[simp] theorem wx_inbound (s : State) (r : XReg) (w : Word) : (wx s r w).inbound = s.inbound := by
  unfold wx; split <;> rfl
@[simp] theorem wx_accepted (s : State) (r : XReg) (w : Word) : (wx s r w).accepted = s.accepted := by
  unfold wx; split <;> rfl
@[simp] theorem wx_outbound (s : State) (r : XReg) (w : Word) : (wx s r w).outbound = s.outbound := by
  unfold wx; split <;> rfl
@[simp] theorem wx_nvmeAdmin (s : State) (r : XReg) (w : Word) : (wx s r w).nvmeAdmin = s.nvmeAdmin := by
  unfold wx; split <;> rfl
@[simp] theorem wx_linksDown (s : State) (r : XReg) (w : Word) : (wx s r w).linksDown = s.linksDown := by
  unfold wx; split <;> rfl
@[simp] theorem wx_dropped (s : State) (r : XReg) (w : Word) : (wx s r w).dropped = s.dropped := by
  unfold wx; split <;> rfl
@[simp] theorem wx_purlinId (s : State) (r : XReg) (w : Word) : (wx s r w).purlinId = s.purlinId := by
  unfold wx; split <;> rfl
@[simp] theorem wx_routes (s : State) (r : XReg) (w : Word) : (wx s r w).routes = s.routes := by
  unfold wx; split <;> rfl
@[simp] theorem wx_pfState (s : State) (r : XReg) (w : Word) : (wx s r w).pfState = s.pfState := by
  unfold wx; split <;> rfl
@[simp] theorem wx_peers (s : State) (r : XReg) (w : Word) : (wx s r w).peers = s.peers := by
  unfold wx; split <;> rfl
@[simp] theorem wx_wire (s : State) (r : XReg) (w : Word) : (wx s r w).wire = s.wire := by
  unfold wx; split <;> rfl
@[simp] theorem wx_selected (s : State) (r : XReg) (w : Word) : (wx s r w).selected = s.selected := by
  unfold wx; split <;> rfl
@[simp] theorem wx_drawn (s : State) (r : XReg) (w : Word) : (wx s r w).drawn = s.drawn := by
  unfold wx; split <;> rfl
@[simp] theorem wx_flashWrites (s : State) (r : XReg) (w : Word) : (wx s r w).flashWrites = s.flashWrites := by
  unfold wx; split <;> rfl
@[simp] theorem wx_marks (s : State) (r : XReg) (w : Word) : (wx s r w).marks = s.marks := by
  unfold wx; split <;> rfl
@[simp] theorem wx_holds (s : State) (r : XReg) (w : Word) : (wx s r w).holds = s.holds := by
  unfold wx; split <;> rfl
@[simp] theorem wx_kept (s : State) (r : XReg) (w : Word) : (wx s r w).kept = s.kept := by
  unfold wx; split <;> rfl
@[simp] theorem wx_namespaces (s : State) (r : XReg) (w : Word) : (wx s r w).namespaces = s.namespaces := by
  unfold wx; split <;> rfl
@[simp] theorem wx_heldCounts (s : State) (r : XReg) (w : Word) : (wx s r w).heldCounts = s.heldCounts := by
  unfold wx; split <;> rfl
@[simp] theorem wx_bookPos (s : State) (r : XReg) (w : Word) : (wx s r w).bookPos = s.bookPos := by
  unfold wx; split <;> rfl
@[simp] theorem wx_lastServed (s : State) (r : XReg) (w : Word) : (wx s r w).lastServed = s.lastServed := by
  unfold wx; split <;> rfl
@[simp] theorem wx_decoders (s : State) (r : XReg) (w : Word) : (wx s r w).decoders = s.decoders := by
  unfold wx; split <;> rfl
@[simp] theorem wx_contexts (s : State) (r : XReg) (w : Word) : (wx s r w).contexts = s.contexts := by
  unfold wx; split <;> rfl
@[simp] theorem wx_downAt (s : State) (r : XReg) (w : Word) : (wx s r w).downAt = s.downAt := by
  unfold wx; split <;> rfl
@[simp] theorem setPc_agenda (s : State) (w : Word) : (setPc s w).agenda = s.agenda := by
  unfold setPc; split <;> rfl
@[simp] theorem setPc_cur (s : State) (w : Word) : (setPc s w).cur = s.cur := by
  unfold setPc; split <;> rfl
@[simp] theorem setPc_freeCtr (s : State) (w : Word) : (setPc s w).freeCtr = s.freeCtr := by
  unfold setPc; split <;> rfl
@[simp] theorem setPc_seq (s : State) (w : Word) : (setPc s w).seq = s.seq := by
  unfold setPc; split <;> rfl
@[simp] theorem setPc_ik (s : State) (w : Word) : (setPc s w).ik = s.ik := by
  unfold setPc; split <;> rfl
@[simp] theorem setPc_portCycle (s : State) (w : Word) : (setPc s w).portCycle = s.portCycle := by
  unfold setPc; split <;> rfl
@[simp] theorem setPc_dies (s : State) (w : Word) : (setPc s w).dies = s.dies := by
  unfold setPc; split <;> rfl
@[simp] theorem setPc_powerLimit (s : State) (w : Word) : (setPc s w).powerLimit = s.powerLimit := by
  unfold setPc; split <;> rfl
@[simp] theorem setPc_power (s : State) (w : Word) : (setPc s w).power = s.power := by
  unfold setPc; split <;> rfl
@[simp] theorem setPc_flash (s : State) (w : Word) : (setPc s w).flash = s.flash := by
  unfold setPc; split <;> rfl
@[simp] theorem setPc_bootSlot (s : State) (w : Word) : (setPc s w).bootSlot = s.bootSlot := by
  unfold setPc; split <;> rfl
@[simp] theorem setPc_bootSeq (s : State) (w : Word) : (setPc s w).bootSeq = s.bootSeq := by
  unfold setPc; split <;> rfl
@[simp] theorem setPc_firmware (s : State) (w : Word) : (setPc s w).firmware = s.firmware := by
  unfold setPc; split <;> rfl
@[simp] theorem setPc_firmwareSize (s : State) (w : Word) : (setPc s w).firmwareSize = s.firmwareSize := by
  unfold setPc; split <;> rfl
@[simp] theorem setPc_mr0 (s : State) (w : Word) : (setPc s w).mr0 = s.mr0 := by
  unfold setPc; split <;> rfl
@[simp] theorem setPc_mr1 (s : State) (w : Word) : (setPc s w).mr1 = s.mr1 := by
  unfold setPc; split <;> rfl
@[simp] theorem setPc_mem (s : State) (w : Word) : (setPc s w).mem = s.mem := by
  unfold setPc; split <;> rfl
@[simp] theorem setPc_olds (s : State) (w : Word) : (setPc s w).olds = s.olds := by
  unfold setPc; split <;> rfl
@[simp] theorem setPc_owners (s : State) (w : Word) : (setPc s w).owners = s.owners := by
  unfold setPc; split <;> rfl
@[simp] theorem setPc_zeroing (s : State) (w : Word) : (setPc s w).zeroing = s.zeroing := by
  unfold setPc; split <;> rfl
@[simp] theorem setPc_nvme (s : State) (w : Word) : (setPc s w).nvme = s.nvme := by
  unfold setPc; split <;> rfl
@[simp] theorem setPc_scrubFixed (s : State) (w : Word) : (setPc s w).scrubFixed = s.scrubFixed := by
  unfold setPc; split <;> rfl
@[simp] theorem setPc_scrubLost (s : State) (w : Word) : (setPc s w).scrubLost = s.scrubLost := by
  unfold setPc; split <;> rfl
@[simp] theorem setPc_bad (s : State) (w : Word) : (setPc s w).bad = s.bad := by
  unfold setPc; split <;> rfl
@[simp] theorem setPc_parts (s : State) (w : Word) : (setPc s w).parts = s.parts := by
  unfold setPc; split <;> rfl
@[simp] theorem setPc_vfs (s : State) (w : Word) : (setPc s w).vfs = s.vfs := by
  unfold setPc; split <;> rfl
@[simp] theorem setPc_gangs (s : State) (w : Word) : (setPc s w).gangs = s.gangs := by
  unfold setPc; split <;> rfl
@[simp] theorem setPc_entries (s : State) (w : Word) : (setPc s w).entries = s.entries := by
  unfold setPc; split <;> rfl
@[simp] theorem setPc_reserved (s : State) (w : Word) : (setPc s w).reserved = s.reserved := by
  unfold setPc; split <;> rfl
@[simp] theorem setPc_arrivals (s : State) (w : Word) : (setPc s w).arrivals = s.arrivals := by
  unfold setPc; split <;> rfl
@[simp] theorem setPc_counters (s : State) (w : Word) : (setPc s w).counters = s.counters := by
  unfold setPc; split <;> rfl
@[simp] theorem setPc_bookings (s : State) (w : Word) : (setPc s w).bookings = s.bookings := by
  unfold setPc; split <;> rfl
@[simp] theorem setPc_lodging (s : State) (w : Word) : (setPc s w).lodging = s.lodging := by
  unfold setPc; split <;> rfl
@[simp] theorem setPc_drovers (s : State) (w : Word) : (setPc s w).drovers = s.drovers := by
  unfold setPc; split <;> rfl
@[simp] theorem setPc_timers (s : State) (w : Word) : (setPc s w).timers = s.timers := by
  unfold setPc; split <;> rfl
@[simp] theorem setPc_snapshots (s : State) (w : Word) : (setPc s w).snapshots = s.snapshots := by
  unfold setPc; split <;> rfl
@[simp] theorem setPc_inbound (s : State) (w : Word) : (setPc s w).inbound = s.inbound := by
  unfold setPc; split <;> rfl
@[simp] theorem setPc_accepted (s : State) (w : Word) : (setPc s w).accepted = s.accepted := by
  unfold setPc; split <;> rfl
@[simp] theorem setPc_outbound (s : State) (w : Word) : (setPc s w).outbound = s.outbound := by
  unfold setPc; split <;> rfl
@[simp] theorem setPc_nvmeAdmin (s : State) (w : Word) : (setPc s w).nvmeAdmin = s.nvmeAdmin := by
  unfold setPc; split <;> rfl
@[simp] theorem setPc_linksDown (s : State) (w : Word) : (setPc s w).linksDown = s.linksDown := by
  unfold setPc; split <;> rfl
@[simp] theorem setPc_dropped (s : State) (w : Word) : (setPc s w).dropped = s.dropped := by
  unfold setPc; split <;> rfl
@[simp] theorem setPc_purlinId (s : State) (w : Word) : (setPc s w).purlinId = s.purlinId := by
  unfold setPc; split <;> rfl
@[simp] theorem setPc_routes (s : State) (w : Word) : (setPc s w).routes = s.routes := by
  unfold setPc; split <;> rfl
@[simp] theorem setPc_pfState (s : State) (w : Word) : (setPc s w).pfState = s.pfState := by
  unfold setPc; split <;> rfl
@[simp] theorem setPc_peers (s : State) (w : Word) : (setPc s w).peers = s.peers := by
  unfold setPc; split <;> rfl
@[simp] theorem setPc_wire (s : State) (w : Word) : (setPc s w).wire = s.wire := by
  unfold setPc; split <;> rfl
@[simp] theorem setPc_selected (s : State) (w : Word) : (setPc s w).selected = s.selected := by
  unfold setPc; split <;> rfl
@[simp] theorem setPc_drawn (s : State) (w : Word) : (setPc s w).drawn = s.drawn := by
  unfold setPc; split <;> rfl
@[simp] theorem setPc_flashWrites (s : State) (w : Word) : (setPc s w).flashWrites = s.flashWrites := by
  unfold setPc; split <;> rfl
@[simp] theorem setPc_marks (s : State) (w : Word) : (setPc s w).marks = s.marks := by
  unfold setPc; split <;> rfl
@[simp] theorem setPc_holds (s : State) (w : Word) : (setPc s w).holds = s.holds := by
  unfold setPc; split <;> rfl
@[simp] theorem setPc_kept (s : State) (w : Word) : (setPc s w).kept = s.kept := by
  unfold setPc; split <;> rfl
@[simp] theorem setPc_namespaces (s : State) (w : Word) : (setPc s w).namespaces = s.namespaces := by
  unfold setPc; split <;> rfl
@[simp] theorem setPc_heldCounts (s : State) (w : Word) : (setPc s w).heldCounts = s.heldCounts := by
  unfold setPc; split <;> rfl
@[simp] theorem setPc_bookPos (s : State) (w : Word) : (setPc s w).bookPos = s.bookPos := by
  unfold setPc; split <;> rfl
@[simp] theorem setPc_lastServed (s : State) (w : Word) : (setPc s w).lastServed = s.lastServed := by
  unfold setPc; split <;> rfl
@[simp] theorem setPc_decoders (s : State) (w : Word) : (setPc s w).decoders = s.decoders := by
  unfold setPc; split <;> rfl
@[simp] theorem setPc_contexts (s : State) (w : Word) : (setPc s w).contexts = s.contexts := by
  unfold setPc; split <;> rfl
@[simp] theorem setPc_downAt (s : State) (w : Word) : (setPc s w).downAt = s.downAt := by
  unfold setPc; split <;> rfl
@[simp] theorem advance_agenda (s : State) (n : Nat) : (advance s n).agenda = s.agenda := setPc_agenda s _
@[simp] theorem advance_cur (s : State) (n : Nat) : (advance s n).cur = s.cur := setPc_cur s _
@[simp] theorem advance_freeCtr (s : State) (n : Nat) : (advance s n).freeCtr = s.freeCtr := setPc_freeCtr s _
@[simp] theorem advance_seq (s : State) (n : Nat) : (advance s n).seq = s.seq := setPc_seq s _
@[simp] theorem advance_ik (s : State) (n : Nat) : (advance s n).ik = s.ik := setPc_ik s _
@[simp] theorem advance_portCycle (s : State) (n : Nat) : (advance s n).portCycle = s.portCycle := setPc_portCycle s _
@[simp] theorem advance_dies (s : State) (n : Nat) : (advance s n).dies = s.dies := setPc_dies s _
@[simp] theorem advance_powerLimit (s : State) (n : Nat) : (advance s n).powerLimit = s.powerLimit := setPc_powerLimit s _
@[simp] theorem advance_power (s : State) (n : Nat) : (advance s n).power = s.power := setPc_power s _
@[simp] theorem advance_flash (s : State) (n : Nat) : (advance s n).flash = s.flash := setPc_flash s _
@[simp] theorem advance_bootSlot (s : State) (n : Nat) : (advance s n).bootSlot = s.bootSlot := setPc_bootSlot s _
@[simp] theorem advance_bootSeq (s : State) (n : Nat) : (advance s n).bootSeq = s.bootSeq := setPc_bootSeq s _
@[simp] theorem advance_firmware (s : State) (n : Nat) : (advance s n).firmware = s.firmware := setPc_firmware s _
@[simp] theorem advance_firmwareSize (s : State) (n : Nat) : (advance s n).firmwareSize = s.firmwareSize := setPc_firmwareSize s _
@[simp] theorem advance_mr0 (s : State) (n : Nat) : (advance s n).mr0 = s.mr0 := setPc_mr0 s _
@[simp] theorem advance_mr1 (s : State) (n : Nat) : (advance s n).mr1 = s.mr1 := setPc_mr1 s _
@[simp] theorem advance_mem (s : State) (n : Nat) : (advance s n).mem = s.mem := setPc_mem s _
@[simp] theorem advance_olds (s : State) (n : Nat) : (advance s n).olds = s.olds := setPc_olds s _
@[simp] theorem advance_owners (s : State) (n : Nat) : (advance s n).owners = s.owners := setPc_owners s _
@[simp] theorem advance_zeroing (s : State) (n : Nat) : (advance s n).zeroing = s.zeroing := setPc_zeroing s _
@[simp] theorem advance_nvme (s : State) (n : Nat) : (advance s n).nvme = s.nvme := setPc_nvme s _
@[simp] theorem advance_scrubFixed (s : State) (n : Nat) : (advance s n).scrubFixed = s.scrubFixed := setPc_scrubFixed s _
@[simp] theorem advance_scrubLost (s : State) (n : Nat) : (advance s n).scrubLost = s.scrubLost := setPc_scrubLost s _
@[simp] theorem advance_bad (s : State) (n : Nat) : (advance s n).bad = s.bad := setPc_bad s _
@[simp] theorem advance_parts (s : State) (n : Nat) : (advance s n).parts = s.parts := setPc_parts s _
@[simp] theorem advance_vfs (s : State) (n : Nat) : (advance s n).vfs = s.vfs := setPc_vfs s _
@[simp] theorem advance_gangs (s : State) (n : Nat) : (advance s n).gangs = s.gangs := setPc_gangs s _
@[simp] theorem advance_entries (s : State) (n : Nat) : (advance s n).entries = s.entries := setPc_entries s _
@[simp] theorem advance_reserved (s : State) (n : Nat) : (advance s n).reserved = s.reserved := setPc_reserved s _
@[simp] theorem advance_arrivals (s : State) (n : Nat) : (advance s n).arrivals = s.arrivals := setPc_arrivals s _
@[simp] theorem advance_counters (s : State) (n : Nat) : (advance s n).counters = s.counters := setPc_counters s _
@[simp] theorem advance_bookings (s : State) (n : Nat) : (advance s n).bookings = s.bookings := setPc_bookings s _
@[simp] theorem advance_lodging (s : State) (n : Nat) : (advance s n).lodging = s.lodging := setPc_lodging s _
@[simp] theorem advance_drovers (s : State) (n : Nat) : (advance s n).drovers = s.drovers := setPc_drovers s _
@[simp] theorem advance_timers (s : State) (n : Nat) : (advance s n).timers = s.timers := setPc_timers s _
@[simp] theorem advance_snapshots (s : State) (n : Nat) : (advance s n).snapshots = s.snapshots := setPc_snapshots s _
@[simp] theorem advance_inbound (s : State) (n : Nat) : (advance s n).inbound = s.inbound := setPc_inbound s _
@[simp] theorem advance_accepted (s : State) (n : Nat) : (advance s n).accepted = s.accepted := setPc_accepted s _
@[simp] theorem advance_outbound (s : State) (n : Nat) : (advance s n).outbound = s.outbound := setPc_outbound s _
@[simp] theorem advance_nvmeAdmin (s : State) (n : Nat) : (advance s n).nvmeAdmin = s.nvmeAdmin := setPc_nvmeAdmin s _
@[simp] theorem advance_linksDown (s : State) (n : Nat) : (advance s n).linksDown = s.linksDown := setPc_linksDown s _
@[simp] theorem advance_dropped (s : State) (n : Nat) : (advance s n).dropped = s.dropped := setPc_dropped s _
@[simp] theorem advance_purlinId (s : State) (n : Nat) : (advance s n).purlinId = s.purlinId := setPc_purlinId s _
@[simp] theorem advance_routes (s : State) (n : Nat) : (advance s n).routes = s.routes := setPc_routes s _
@[simp] theorem advance_pfState (s : State) (n : Nat) : (advance s n).pfState = s.pfState := setPc_pfState s _
@[simp] theorem advance_peers (s : State) (n : Nat) : (advance s n).peers = s.peers := setPc_peers s _
@[simp] theorem advance_wire (s : State) (n : Nat) : (advance s n).wire = s.wire := setPc_wire s _
@[simp] theorem advance_selected (s : State) (n : Nat) : (advance s n).selected = s.selected := setPc_selected s _
@[simp] theorem advance_drawn (s : State) (n : Nat) : (advance s n).drawn = s.drawn := setPc_drawn s _
@[simp] theorem advance_flashWrites (s : State) (n : Nat) : (advance s n).flashWrites = s.flashWrites := setPc_flashWrites s _
@[simp] theorem advance_marks (s : State) (n : Nat) : (advance s n).marks = s.marks := setPc_marks s _
@[simp] theorem advance_holds (s : State) (n : Nat) : (advance s n).holds = s.holds := setPc_holds s _
@[simp] theorem advance_kept (s : State) (n : Nat) : (advance s n).kept = s.kept := setPc_kept s _
@[simp] theorem advance_namespaces (s : State) (n : Nat) : (advance s n).namespaces = s.namespaces := setPc_namespaces s _
@[simp] theorem advance_heldCounts (s : State) (n : Nat) : (advance s n).heldCounts = s.heldCounts := setPc_heldCounts s _
@[simp] theorem advance_bookPos (s : State) (n : Nat) : (advance s n).bookPos = s.bookPos := setPc_bookPos s _
@[simp] theorem advance_lastServed (s : State) (n : Nat) : (advance s n).lastServed = s.lastServed := setPc_lastServed s _
@[simp] theorem advance_decoders (s : State) (n : Nat) : (advance s n).decoders = s.decoders := setPc_decoders s _
@[simp] theorem advance_contexts (s : State) (n : Nat) : (advance s n).contexts = s.contexts := setPc_contexts s _
@[simp] theorem advance_downAt (s : State) (n : Nat) : (advance s n).downAt = s.downAt := setPc_downAt s _

end Sys2Proof.Machine
end

