-- ==== Sys2Proof/Laws/Ops.lean ====
section
/-! SUPPORT. What the shared operations do, once: registers and program counters, the local store, physical memory, writing
a register and going on, raising a cause on a thread, trap entry and return. -/

namespace Sys2Proof.Machine

open Sys2Proof.Safety

/-! ### x registers and the pc -/

@[simp] theorem xget_zero (v : Vector Word 64) : xget v 0 = 0 := by simp [xget]

theorem xget_xset (v : Vector Word 64) (d r : XReg) (w : Word) :
    xget (xset v d w) r = if r = d then (if d = 0 then 0 else w) else xget v r := by
  unfold xget xset
  by_cases hd : d = 0
  · subst hd; by_cases hr : r = 0 <;> simp [hr]
  · by_cases hr : r = d
    · subst hr; simp [hd]
    · by_cases h0 : r = 0
      · subst h0; simp [hr]
      · simp [hd, hr, h0, vget_vset_of_ne v w fun e => hr e.symm]

@[simp] theorem rx_zero (s : State) : rx s 0 = 0 := by
  unfold rx; split <;> exact xget_zero _

theorem rx_wx (s : State) (d r : XReg) (w : Word) :
    rx (wx s d w) r = if r = d then (if d = 0 then 0 else w) else rx s r := by
  rcases hc : s.cur with ⟨t, st⟩ | n <;> simp [rx, wx, hc, modTile, modThr, xget_xset]

@[simp] theorem rx_setPc (s : State) (r : XReg) (w : Word) : rx (setPc s w) r = rx s r := by
  rcases hc : s.cur with ⟨t, st⟩ | n <;> simp [rx, setPc, hc, modTile, modThr, modStrm]

@[simp] theorem pcOf_setPc (s : State) (w : Word) : pcOf (setPc s w) = w := by
  rcases hc : s.cur with ⟨t, st⟩ | n <;> simp [pcOf, setPc, hc, modTile, modThr, modStrm]

@[simp] theorem pcOf_wx (s : State) (d : XReg) (w : Word) : pcOf (wx s d w) = pcOf s := by
  rcases hc : s.cur with ⟨t, st⟩ | n <;> simp only [pcOf, wx, hc, modTile, modThr, setTile_cur, setThr_cur]
  · cases st <;> simp [strm]
  · simp

@[simp] theorem rx_advance (s : State) (n : Nat) (r : XReg) : rx (advance s n) r = rx s r := rx_setPc s r _
@[simp] theorem pcOf_advance (s : State) (n : Nat) : pcOf (advance s n) = pcOf s + word n := pcOf_setPc s _

/-! ### Bytes -/

theorem windowCtr_congr {s t : State} (hv : t.vfs = s.vfs) (hp : t.parts = s.parts) (a : Nat) :
    windowCtr t a = windowCtr s a := by
  unfold windowCtr partOf; rw [hv, hp]

/-- Physical memory depends on memory, counters, VFs and partitions only. -/
theorem physByte_congr {s t : State} (hm : t.mem = s.mem) (hc : t.counters = s.counters) (hv : t.vfs = s.vfs)
    (hp : t.parts = s.parts) (a : Nat) : physByte t a = physByte s a := by
  simp [physByte, windowCtr_congr hv hp, ctrGet, hm, hc]

@[simp] theorem physByte_setTile (s : State) (t : TileId) (T : Tile) (a : Nat) :
    physByte (setTile s t T) a = physByte s a := physByte_congr rfl rfl rfl rfl a
@[simp] theorem physByte_setThr (s : State) (n : ThreadId) (h : Thread) (a : Nat) :
    physByte (setThr s n h) a = physByte s a := physByte_congr rfl rfl rfl rfl a
@[simp] theorem physByte_wx (s : State) (d : XReg) (w : Word) (a : Nat) : physByte (wx s d w) a = physByte s a :=
  physByte_congr (by simp) (by simp) (by simp) (by simp) a
@[simp] theorem physByte_setPc (s : State) (w : Word) (a : Nat) : physByte (setPc s w) a = physByte s a :=
  physByte_congr (by simp) (by simp) (by simp) (by simp) a

@[simp] theorem localByte_wx (s : State) (d : XReg) (w : Word) (p : Nat) : localByte (wx s d w) p = localByte s p := by
  rcases hc : s.cur with ⟨t, st⟩ | n <;> simp [localByte, wx, hc, modTile, modThr]

@[simp] theorem localByte_setPc (s : State) (w : Word) (p : Nat) : localByte (setPc s w) p = localByte s p := by
  rcases hc : s.cur with ⟨t, st⟩ | n <;> simp [localByte, setPc, hc, modTile, modThr, modStrm]

/-- One byte of physical memory written: it reads back, unless a counter's window covers it, and no other byte changes. -/
theorem physByte_physSetBy (o : Over) (s : State) (a b : Nat) (v : Byte) :
    physByte (physSetBy o s a v) b = if a = b ∧ windowCtr s b = none then v else physByte s b := by
  have hw : ∀ c, windowCtr (physSetBy o s a v) c = windowCtr s c := by
    intro c; unfold physSetBy; split <;> exact windowCtr_congr rfl rfl c
  unfold physByte
  rw [hw]
  cases hb : windowCtr s b with
  | some c =>
    have : ∀ c, ctrGet (physSetBy o s a v) c = ctrGet s c := by intro c; unfold physSetBy; split <;> rfl
    simp [this]
  | none =>
    by_cases h : a = b
    · subst h; simp [physSetBy, hb]
    · cases ha : windowCtr s a <;> simp [physSetBy, ha, h, mget_mset]

theorem physByte_physSet (s : State) (a b : Nat) (v : Byte) :
    physByte (physSet s a v) b = if a = b ∧ windowCtr s b = none then v else physByte s b :=
  physByte_physSetBy deviceWrite s a b v

/-! ### Acquires and publishes leave all but the older values -/

@[simp] theorem acquire_tiles (s : State) (t : TileId) (sc : Fin 4) : (acquire s t sc).tiles = s.tiles := rfl
@[simp] theorem acquire_mem (s : State) (t : TileId) (sc : Fin 4) : (acquire s t sc).mem = s.mem := rfl
@[simp] theorem tileOf_acquire (s : State) (t u : TileId) (sc : Fin 4) :
    tileOf (acquire s t sc) u = tileOf s u := rfl
@[simp] theorem physByte_acquire (s : State) (t : TileId) (sc : Fin 4) (a : Nat) :
    physByte (acquire s t sc) a = physByte s a := physByte_congr rfl rfl rfl rfl a
@[simp] theorem carry_tiles (s : State) (t : TileId) (o : Over) : (carry s t o).tiles = s.tiles := rfl
@[simp] theorem carry_mem (s : State) (t : TileId) (o : Over) : (carry s t o).mem = s.mem := rfl

/-- After an acquire a tile may read no value that a visible publish made old (R317, R319). -/
theorem acquire_fresh (s : State) (t : TileId) (sc : Fin 4) (x : OldValue) (h : x ∈ (acquire s t sc).olds)
    (ht : x.tile = t) (o : Over) (ho : o ∈ x.overs) : visible s t sc o = false := by
  simp only [acquire, seeAll, List.mem_map, List.mem_filter] at h
  obtain ⟨y, ⟨-, hy⟩, rfl⟩ := h
  have hy' : y.overs.any (visible s t sc) = false := by
    have : y.tile = t := by split at ht <;> exact ht
    simpa [this] using hy
  rw [List.any_eq_false] at hy'
  have : o ∈ y.overs := by split at ho <;> exact ho
  simpa using hy' o this

/-- Where no older value stands, a task reads memory as it stands under its own stores (R319). -/
theorem taskByte_of_no_old (s : State) (t : TileId) (ipa pa : Nat)
    (h : ∀ x ∈ s.olds, x.tile = t → x.addr ≠ pa / 64 * 64) :
    taskByte s t ipa pa = ownByte s t ipa (physByte s pa) := by
  have : s.olds.find? (fun x => decide (x.tile = t ∧ x.addr = pa / 64 * 64 ∧ windowCtr s pa = none)) = none := by
    rw [List.find?_eq_none]
    intro x hx
    simp only [decide_eq_true_eq, not_and]
    intro h1 h2
    exact absurd h2 (h x hx h1)
  rw [taskByte, seenByte, this]

/-! ### What the aside view forgets -/

@[simp] theorem aside_wx (s : State) (d : XReg) (w : Word) : aside (wx s d w) = aside s := by
  rcases hc : s.cur with ⟨t, st⟩ | n
  · cases st <;> simp [aside, wx, hc, modTile, modStrm, setStrm, strm]
  · simp [aside, wx, hc, modThr]

@[simp] theorem aside_setPc (s : State) (w : Word) : aside (setPc s w) = aside s := by
  rcases hc : s.cur with ⟨t, st⟩ | n
  · cases st <;> simp [aside, setPc, hc, modTile, modStrm, setStrm, strm]
  · simp [aside, setPc, hc, modThr]

@[simp] theorem aside_advance (s : State) (n : Nat) : aside (advance s n) = aside s := aside_setPc s _

/-- A word that writes xd and goes on `n` bytes changes exactly xd and the pc. -/
theorem wroteReg_advance (s : State) (d : XReg) (w : Word) (n : Nat) :
    WroteReg s (advance (wx s d w) n) d w (pcOf s + word n) := by
  refine ⟨by simp, ?_, ?_, by simp, ⟨?_, ?_⟩, by simp⟩
  · simp [rx_wx]
  · intro r hr; simp [rx_wx, hr]
  · intro a; simp [advance]
  · intro p; simp [advance]

/-- A word that writes xd and goes to `p`. -/
theorem wroteReg_setPc (s : State) (d : XReg) (w p : Word) : WroteReg s (setPc (wx s d w) p) d w p := by
  refine ⟨by simp, ?_, ?_, by simp, ⟨?_, ?_⟩, by simp⟩
  · simp [rx_wx]
  · intro r hr; simp [rx_wx, hr]
  · intro a; simp
  · intro p; simp

/-- A word that only moves the pc, stated as a write of x0. -/
theorem wroteReg_pc (s : State) (p : Word) : WroteReg s (setPc s p) 0 0 p := by
  refine ⟨by simp, ?_, ?_, by simp, ⟨?_, ?_⟩, by simp⟩
  · simp
  · intro r hr; simp
  · intro a; simp
  · intro p; simp

theorem wr_eq (s : State) (d : XReg) (w : Word) : wr s d w = .next (advance (wx s d w) 4) := rfl

/-- `wr` answers a next state in which xd and the pc have changed, and nothing else. -/
theorem wr_wroteReg (s : State) (d : XReg) (w : Word) :
    ∃ t, wr s d w = .next t ∧ WroteReg s t d w (pcOf s + 4) := ⟨_, rfl, wroteReg_advance s d w 4⟩

/-! ### Who may issue -/

theorem scalar_of_turn {s : State} (h : ScalarTurn s) (i : Instr) (f : Result) : scalar s i f = f := by
  rcases h with ⟨t, h⟩ | ⟨n, h⟩ <;> simp [scalar, h]

theorem onThread_of {s : State} {n : ThreadId} (h : s.cur = .thread n) (i : Instr) (f : ThreadId → Result) :
    onThread s i f = f n := by
  simp [onThread, h]

theorem onThread_tile {s : State} {t : TileId} {st : Stream} (h : s.cur = .tile t st) (i : Instr) (f : ThreadId → Result) :
    onThread s i f = illegal s i := by
  simp [onThread, h]

theorem onTileS_of {s : State} {t : TileId} {k : Task} (h : StreamTurn s t .S k) (i : Instr)
    (f : TileId → Task → Result) : onTileS s i f = f t k := by
  simp [onTileS, h.1, h.2]

theorem onTileV_of {s : State} {t : TileId} {k : Task} (h : StreamTurn s t .V k) (i : Instr)
    (f : TileId → Task → Result) : onTileV s i f = f t k := by
  simp [onTileV, h.1, h.2]

theorem onEngine_of {s : State} {t : TileId} {st : Stream} {k : Task} (h : StreamTurn s t st k) (hst : st = .M ∨ st = .A)
    (i : Instr) (f : TileId → Stream → Task → Result) : onEngine s i f = f t st k := by
  rcases hst with rfl | rfl <;> simp [onEngine, h.1, h.2]

theorem onStream_of {s : State} {t : TileId} {st : Stream} {k : Task} (h : StreamTurn s t st k) (i : Instr)
    (f : TileId → Task → Result) : onStream s i st f = f t k := by
  simp [onStream, h.1, h.2]

/-! ### Events -/

/-- An event changes the queue or the waiting list of its thread, and nothing else. -/
theorem sendEvent_eq (s : State) (n : ThreadId) (e : Event) :
    ∃ q w, sendEvent s n e = setThr s n { thrOf s n with queue := q, waiting := w } := by
  simp only [sendEvent, modThr]
  split
  · exact ⟨(thrOf s n).queue, (thrOf s n).waiting, (setThr_self s n).symm⟩
  · split
    · exact ⟨_, (thrOf s n).waiting, rfl⟩
    · exact ⟨(thrOf s n).queue, _, rfl⟩

/-! ### Held accesses, wanted frames and old values -/

/-- Coming to a held segment's row changes the held accesses, and nothing else. -/
theorem joinRow_eq (s : State) (h : HeldAccess) : ∃ l, joinRow s h = { s with holds := l } := by
  unfold joinRow; split
  · exact ⟨_, rfl⟩
  · exact ⟨s.holds, rfl⟩

/-- An access that comes to the row changes the held accesses alone, whether it goes on or waits. -/
theorem atRow_eq (s : State) (h : HeldAccess) : ∃ l b, atRow s h = ({ s with holds := l }, b) := by
  unfold atRow; split
  · obtain ⟨l, hl⟩ := joinRow_eq s h; exact ⟨l, false, by rw [hl]⟩
  · split
    · exact ⟨_, true, rfl⟩
    · exact ⟨s.holds, false, rfl⟩

/-- An access goes on only where its segment is not held and its turn has come. -/
theorem atRow_goes {s : State} {h : HeldAccess} (hg : (atRow s h).2 = true) :
    (vfOf s h.vf).segHeld = false ∧ rowTurnOf s h = true := by
  unfold atRow at hg; split at hg
  · cases hg
  · split at hg
    · exact ⟨by simp_all, ‹_›⟩
    · cases hg

/-- A write that waits for a frame changes the snapshots alone. -/
theorem wantSaved_eq (s : State) (a n : Nat) : ∃ l, wantSaved s a n = { s with snapshots := l } := ⟨_, rfl⟩

/-- Seeing changes the old values alone. -/
theorem seeAll_eq (s : State) (t : TileId) (f : OldValue → Bool) : ∃ l, seeAll s t f = { s with olds := l } := ⟨_, rfl⟩

/-! ### Traps of a thread -/

/-- A word of a thread that raises a cause other than ECC_UNCORRECTABLE traps its thread. -/
theorem raise_thread {s : State} {n : ThreadId} (h : s.cur = .thread n) {c : Nat} (hc : c ≠ causeEcc) (v : Word) :
    raise s c v = .next (threadTrap s n c false (pcOf s) (pcOf s) v) := by
  simp [raise, h, hc]

/-- A word of a tile that raises a cause has the cause taken by its task. -/
theorem raise_tile {s : State} {t : TileId} {st : Stream} (h : s.cur = .tile t st) (c : Nat) (v : Word) :
    raise s c v = .next (tileTrap s t (srcCode st) c (pcOf s) v) := by
  simp [raise, h]

/-- Taking a trap where the level it goes to is free. -/
theorem threadTrap_free {s : State} {n : ThreadId}
    (h : tstatAct (trapRegs (thrOf s n) (trapLevel (thrOf s n).level)).tstat = false) (c : Nat) (sw : Bool)
    (pc epc val : Word) :
    threadTrap s n c sw pc epc val =
      setThr s n { setTrapRegs (thrOf s n) (trapLevel (thrOf s n).level)
          (trapped (trapRegs (thrOf s n) (trapLevel (thrOf s n).level)) (thrOf s n).level c sw epc val) with
        level := trapLevel (thrOf s n).level
        pc := (trapped (trapRegs (thrOf s n) (trapLevel (thrOf s n).level)) (thrOf s n).level c sw epc val).tvec
        wait := .none } := by
  simp [threadTrap, h]

/-- Taking a trap where it is not: the handler ends. -/
theorem threadTrap_double {s : State} {n : ThreadId}
    (h : tstatAct (trapRegs (thrOf s n) (trapLevel (thrOf s n).level)).tstat = true) (c : Nat) (sw : Bool)
    (pc epc val : Word) : threadTrap s n c sw pc epc val = killThread s n 1 c pc val := by
  simp [threadTrap, h]

@[simp] theorem trapRegs_setTrapRegs (h : Thread) (l : Nat) (r : TrapRegs) : trapRegs (setTrapRegs h l r) l = r := by
  unfold trapRegs setTrapRegs; split <;> simp_all

/-! ### Conditions on words -/

theorem checked_of {s : State} {i : Instr} (h : wellFormed i = true) (f : Result) : checked s i f = f := by
  simp [checked, h]

theorem checked_ill {s : State} {i : Instr} (h : wellFormed i = false) (f : Result) : checked s i f = illegal s i := by
  simp [checked, h]

end Sys2Proof.Machine
end

