-- ==== Sys2Proof/Laws/Canonical.lean ====
section
/-! SUPPORT. The canonical form of every memory is kept by the updates of the state that the instructions share. -/

namespace Sys2Proof.Machine

open Sys2Proof.Safety

/-- The canonical form reads eight fields only. -/
theorem Canonical_congr {s t : State} (h : Canonical s) (hm : t.mem = s.mem) (hf : t.flash = s.flash)
    (hw : t.firmware = s.firmware) (hn : t.nvme = s.nvme) (hp : t.peers = s.peers) (ht : t.tiles = s.tiles)
    (hh : t.threads = s.threads) (hs : t.snapshots = s.snapshots) : Canonical t := by
  unfold Canonical tileOf thrOf at *
  rw [hm, hf, hw, hn, hp, ht, hh, hs]
  exact h

theorem Canonical_setTile {s : State} (h : Canonical s) (t : TileId) {T : Tile} (hT : Memory.wf T.spad = true) :
    Canonical (setTile s t T) := by
  refine ⟨h.1, h.2.1, h.2.2.1, h.2.2.2.1, h.2.2.2.2.1, ?_, h.2.2.2.2.2.2⟩
  intro i
  by_cases e : t = i
  · subst e; simpa using hT
  · rw [tileOf_setTile_of_ne s t T e]; exact h.2.2.2.2.2.1 i

theorem Canonical_setThr {s : State} (h : Canonical s) (n : ThreadId) {H : Thread} (hH : Memory.wf H.store = true) :
    Canonical (setThr s n H) := by
  refine ⟨h.1, h.2.1, h.2.2.1, h.2.2.2.1, h.2.2.2.2.1, h.2.2.2.2.2.1, ?_, h.2.2.2.2.2.2.2⟩
  intro i
  by_cases e : n = i
  · subst e; simpa using hH
  · rw [thrOf_setThr_of_ne s n H e]; exact h.2.2.2.2.2.2.1 i

theorem Canonical_spad {s : State} (h : Canonical s) (t : TileId) : Memory.wf (tileOf s t).spad = true := h.2.2.2.2.2.1 t
theorem Canonical_store {s : State} (h : Canonical s) (n : ThreadId) : Memory.wf (thrOf s n).store = true :=
  h.2.2.2.2.2.2.1 n
theorem Canonical_mem {s : State} (h : Canonical s) : Memory.wf s.mem = true := h.1

theorem Canonical_modTile {s : State} (h : Canonical s) (t : TileId) {f : Tile → Tile}
    (hf : ∀ T : Tile, Memory.wf T.spad = true → Memory.wf (f T).spad = true) : Canonical (modTile s t f) :=
  Canonical_setTile h t (hf _ (Canonical_spad h t))

theorem Canonical_modThr {s : State} (h : Canonical s) (n : ThreadId) {f : Thread → Thread}
    (hf : ∀ H : Thread, Memory.wf H.store = true → Memory.wf (f H).store = true) : Canonical (modThr s n f) :=
  Canonical_setThr h n (hf _ (Canonical_store h n))

theorem Canonical_setPart {s : State} (h : Canonical s) (p : PartId) (q : Partition) : Canonical (setPart s p q) :=
  Canonical_congr h rfl rfl rfl rfl rfl rfl rfl rfl

theorem Canonical_setVf {s : State} (h : Canonical s) (v : VfId) (f : Vf) : Canonical (setVf s v f) :=
  Canonical_congr h rfl rfl rfl rfl rfl rfl rfl rfl

theorem Canonical_wx {s : State} (h : Canonical s) (d : XReg) (w : Word) : Canonical (wx s d w) := by
  unfold wx; split
  · exact Canonical_modTile h _ fun _ hT => hT
  · exact Canonical_modThr h _ fun _ hH => hH

theorem Canonical_setPc {s : State} (h : Canonical s) (w : Word) : Canonical (setPc s w) := by
  unfold setPc; split
  · exact Canonical_modTile h _ fun T hT => by simpa [modStrm] using hT
  · exact Canonical_modThr h _ fun _ hH => hH

theorem Canonical_advance {s : State} (h : Canonical s) (n : Nat) : Canonical (advance s n) := Canonical_setPc h _

theorem Canonical_sendEvent {s : State} (h : Canonical s) (n : ThreadId) (e : Event) : Canonical (sendEvent s n e) := by
  unfold sendEvent
  split
  · exact h
  · exact Canonical_modThr h n fun _ hH => by split <;> exact hH

theorem Canonical_physSetBy {s : State} (h : Canonical s) (o : Over) (a : Nat) (b : Byte) :
    Canonical (physSetBy o s a b) := by
  unfold physSetBy; split
  · exact h
  · exact ⟨wf_mset a b h.1, h.2⟩

theorem Canonical_physSet {s : State} (h : Canonical s) (a : Nat) (b : Byte) : Canonical (physSet s a b) :=
  Canonical_physSetBy h deviceWrite a b

theorem Canonical_acquire {s : State} (h : Canonical s) (t : TileId) (sc : Fin 4) :
    Canonical (acquire s t sc) := h

theorem Canonical_carry {s : State} (h : Canonical s) (t : TileId) (o : Over) : Canonical (carry s t o) := h

theorem Canonical_physWrite {s : State} (h : Canonical s) (a : Nat) (bs : List Byte) : Canonical (physWrite s a bs) := by
  induction bs generalizing s a with
  | nil => exact h
  | cons b bs ih => exact ih (Canonical_physSet h a b) (a + 1)

theorem wf_winWrite {T : Tile} (h : Memory.wf T.spad = true) (o : Nat) (bs : List Byte) :
    Memory.wf (winWrite T o bs).spad = true := by
  induction bs generalizing T o with
  | nil => exact h
  | cons b bs ih => exact ih (T := { T with spad := mset T.spad (winAddr T o) b }) (wf_mset _ b h) (o + 1)

theorem wf_storeWrite {H : Thread} (h : Memory.wf H.store = true) (o : Nat) (bs : List Byte) :
    Memory.wf (storeWrite H o bs).store = true := by
  induction bs generalizing H o with
  | nil => exact h
  | cons b bs ih => exact ih (H := { H with store := mset H.store (o % 16384) b }) (wf_mset _ b h) (o + 1)

theorem wf_storePutWords {H : Thread} (h : Memory.wf H.store = true) (o : Nat) (ws : List Word) :
    Memory.wf (storePutWords H o ws).store = true := by
  induction ws generalizing H o with
  | nil => exact h
  | cons w ws ih => exact ih (wf_storeWrite h o _) (o + 8)

theorem Canonical_localWrite {s : State} (h : Canonical s) (o : Nat) (bs : List Byte) : Canonical (localWrite s o bs) := by
  unfold localWrite; split
  · exact Canonical_modTile h _ fun _ hT => wf_winWrite hT o bs
  · exact Canonical_modThr h _ fun _ hH => wf_storeWrite hH o bs

/-- The machine right after reset. -/
theorem Canonical_reset : Canonical State.reset := by
  refine ⟨rfl, rfl, rfl, rfl, rfl, ?_, ?_, ?_⟩
  · intro t; simp [State.reset, tileOf, vget]
  · intro n; simp [State.reset, thrOf, vget]
  · intro x hx; cases hx

end Sys2Proof.Machine
end

