-- ==== Sys2Proof/Laws/Decode.lean ====
section
/-! SUPPORT. Reading one field of a word, the two ways a form is accepted, and the bytes of a word. -/

namespace Sys2Proof

/-! ### Fields -/

theorem index_eq {n : Nat} [NeZero n] {w lo : Nat} {d : Fin n} (h : w / 2 ^ lo % n = d.val) : index w lo n = d := by
  apply Fin.ext; simpa [index, Fin.ofNat] using h

theorem field_eq {n : Nat} {w lo : Nat} {d : BitVec n} (h : w / 2 ^ lo % 2 ^ n = d.toNat) : field w lo n = d := by
  apply BitVec.eq_of_toNat_eq; simpa [field] using h

theorem flag_eq {w lo : Nat} {b : Bool} (h : w / 2 ^ lo % 2 = b.toNat) : flag w lo = b := by
  cases b <;> simp [flag, h]

theorem index_val (w lo n : Nat) [NeZero n] : (index w lo n).val = w / 2 ^ lo % n := rfl

theorem field_toNat (w lo n : Nat) : (field w lo n).toNat = w / 2 ^ lo % 2 ^ n := by simp [field]

theorem flag_toNat (w lo : Nat) : (flag w lo).toNat = w / 2 ^ lo % 2 := by
  unfold flag
  rcases Nat.mod_two_eq_zero_or_one (w / 2 ^ lo) with h | h <;> simp [h]

/-! ### Forms -/

theorem candidate_eq {i j : Instr} (h : wellFormed j = true) (e : i = j) : candidate i = .ok j := by
  subst e; simp [candidate, h]

theorem candidate_ok {i j : Instr} (h : candidate i = .ok j) : j = i ∧ wellFormed j = true := by
  unfold candidate at h
  split at h
  · cases h; exact ⟨rfl, ‹_›⟩
  · cases h

theorem unused_eq {w : Nat} {z : List (Nat × Nat)} {i j : Instr} (h : wellFormed j = true)
    (hz : ∀ f ∈ z, bits w f.1 f.2 = 0) (e : i = j) : unused w z i = .ok j := by
  have : (z.all fun f => decide (bits w f.1 f.2 = 0)) = true := by simpa [List.all_eq_true] using hz
  rw [unused, if_pos this]
  exact candidate_eq h e

theorem unused_ok {w : Nat} {z : List (Nat × Nat)} {i j : Instr} (h : unused w z i = .ok j) :
    j = i ∧ wellFormed j = true ∧ ∀ f ∈ z, bits w f.1 f.2 = 0 := by
  unfold unused at h
  split at h
  · rename_i hz
    exact ⟨(candidate_ok h).1, (candidate_ok h).2, by simpa [List.all_eq_true] using hz⟩
  · cases h

/-! ### Bytes -/

@[simp] theorem natToBytes_length (n w : Nat) : (natToBytes n w).length = n := by
  induction n generalizing w with
  | zero => rfl
  | succ n ih => simp [natToBytes, ih]

theorem bytesToNat_natToBytes (n w : Nat) : bytesToNat (natToBytes n w) = w % 256 ^ n := by
  induction n generalizing w with
  | zero => simp [natToBytes, bytesToNat, Nat.mod_one]
  | succ n ih =>
    have h := Nat.mod_mul (x := w) (a := 256) (b := 256 ^ n)
    rw [Nat.pow_succ, Nat.mul_comm, h]
    simp [natToBytes, bytesToNat, ih]

theorem bytesToNat_lt (bs : List Byte) : bytesToNat bs < 256 ^ bs.length := by
  induction bs with
  | nil => simp [bytesToNat]
  | cons b bs ih =>
    have := b.isLt
    simp only [bytesToNat, List.length_cons, pow_succ]
    omega

theorem natToBytes_bytesToNat (bs : List Byte) : natToBytes bs.length (bytesToNat bs) = bs := by
  induction bs with
  | nil => rfl
  | cons b bs ih =>
    have := b.isLt
    have hd : (b.toNat + 256 * bytesToNat bs) / 256 = bytesToNat bs := by omega
    simp only [bytesToNat, List.length_cons, natToBytes, hd, ih, List.cons.injEq, and_true]
    apply BitVec.eq_of_toNat_eq
    simp only [BitVec.toNat_ofNat]
    omega

/-- The decoder on the bytes of a word and what follows them. -/
theorem decode_natToBytes (f : Family) (w : Nat) (rest : List Byte) :
    decode f (natToBytes f.bytes w ++ rest) =
      match decodeWord f (w % 256 ^ f.bytes) with
      | .ok i => .ok (i, rest)
      | .error r => .error r := by
  have h1 : ¬ (natToBytes f.bytes w ++ rest).length < f.bytes := by simp
  have h2 : (natToBytes f.bytes w ++ rest).take f.bytes = natToBytes f.bytes w := by
    rw [List.take_append_of_le_length (by simp)]; simp [List.take_of_length_le]
  have h3 : (natToBytes f.bytes w ++ rest).drop f.bytes = rest := by
    simp
  rw [decode, if_neg h1, h2, h3, bytesToNat_natToBytes] <;> cases decodeWord f (w % 256 ^ f.bytes) <;> rfl

end Sys2Proof
end

