-- ==== Sys2Proof/Tests/Slice0.lean ====
section
/-! SUPPORT. Small checks of the model: ill-formed words, one word of every row written out from the spec's encoding, single
steps with results worked out by hand from the rules named, and for each statement states that meet its hypotheses. -/

namespace Sys2Proof.Tests

open Sys2Proof Sys2Proof.Machine Sys2Proof.Safety Sys2Proof.Machine.Claims

set_option maxRecDepth 40000
set_option Elab.async false

/-! ### WellFormed (R62 to R76, R78): each limit refuses a term -/

/-- One term for each limit, just outside it. -/
def illFormed : List Instr :=
  [.extu 1 2 33 31, .exts 1 2 63 1, .ins 1 2 1 63, .amos 1 2 3 1 0, .amos 1 2 3 3 9, .cass 1 2 3 0, .amo 1 2 3 0 0,
   .amo 1 2 3 2 9, .cas 1 2 3 1, .fadd 1 2 3 6, .fsub 1 2 3 7, .fmul 1 2 3 6, .fma 1 2 3 6, .fdiv 1 2 3 6,
   .fsqrt 1 2 6, .fcmp 1 2 3 5, .fcvtFmtF32 1 2 false 5 0, .fcvtFmtF32 1 2 false 10 0, .fcvtFmtF32 1 2 false 0 6,
   .fcvtFmtF32Dyn 1 2 false 5, .fcvtF32Fmt 1 2 false 5 0, .fcvtF32Fmt 1 2 false 11 0, .fcvtF32Fmt 1 2 false 0 6,
   .fcvtF32FmtDyn 1 2 false 11, .fork 5 0, .fork 62 1, .waitv 1 2 false 0, .bar false 1, .trap 0x12, .trap 0x7F]

def illFormedV : List Instr :=
  [.vadd 0 0 0 0 6 false false false, .vadd 0 0 0 0 1 true false false, .vadd 0 0 0 5 1 false false false,
   .vadd 0 0 0 5 0 true false false, .vadd 1 0 0 0 0 false false true, .vsub 0 0 0 0 6 false false false,
   .vmul 0 0 0 0 6 false false false, .vfma 0 0 0 5 0 false false false, .vfms 0 0 0 5 0 false false false,
   .vdiv 0 0 0 5 0 false false false, .vsqrt 0 0 5 0 false false false, .vmin 1 0 0 0 true, .vmax 1 0 0 0 true,
   .vminn 0 0 0 5 false, .vmaxn 0 0 0 5 false, .vabs 0 0 0 true false, .vneg 0 0 0 true false, .vcmp 0 0 0 0 5 false false,
   .vcmp 0 0 0 5 4 false false, .vcmp 0 0 0 0 0 false true, .vsel 1 0 0 0 true, .vand 1 0 0 0 true, .vor 1 0 0 0 true,
   .vxor 1 0 0 0 true, .vshl 0 0 0 4 false, .vshr 0 0 0 4 false, .vsar 0 0 0 4 false, .vcvt 0 0 0 0 false false 1,
   .vcvt 0 0 0 0 false true 5, .vcvt 0 0 5 1 false false 0, .vclass 0 0 5 false, .vexp2 0 0 3 0 false false false,
   .vlog2 0 0 5 0 false false false, .vrcp 0 0 3 0 false false false, .vrsq 0 0 3 0 false false false,
   .vtanh 0 0 3 0 false false false, .verf 0 0 3 0 false false false, .vrotr 1 0 true 0, .vbcr 1 0 true 0,
   .vredr 0 0 0 0 false false 5, .vredr 0 0 5 0 false false 3, .vredr 0 0 0 1 false false 1, .vrotc 1 0 true 0,
   .vbcc 1 0 true 0, .vredc 0 0 5 1 false false 0, .vtrn 1 0 true, .vselk 0 0 0 1 0, .vselk 0 13 3 0 0, .vselk 15 0 0 0 0,
   .vcompr 1 0 0 true, .vmov 1 0 true, .vpack 0 0 0 0 0 false false 0, .vpack 0 15 0 0 0 false false 3,
   .vunpk 0 0 0 false 1, .vunpk 0 0 6 false 3, .kbr 4 0 1, .kbr 0 0 0, .vEnd 4 0]

def illFormedE : List Instr :=
  [.engineLoop false 0, .engineCtraddLocal false false 1, .engineCtraddGlobal false false 1, .mma false false 1 false,
   .accz false false 2, .accdrain false false 3, .copyin false false 1 false, .copyout false false 1 false,
   .nest false false 1 false, .gath false false 1 false, .scat false false 1 false, .qstream false false 1 0,
   .qdrain false false 1 0, .mlr false false 1 false, .mst false false 1, .pref false false 1]

theorem test_wellFormed_refuses : ∀ i ∈ illFormed ++ illFormedV ++ illFormedE, wellFormed i = false := by decide +kernel

/-- The decoder refuses their words as well (R78). -/
theorem test_decode_refuses : ∀ i ∈ illFormed ++ illFormedV ++ illFormedE,
    (encode i).any (fun e => decide (decode e.1 (natToBytes e.1.bytes e.2) ≠ .ok (i, []))) = true := by decide +kernel

/-- A word with a bit that its form does not use, an opcode that is not assigned, and too few bytes (R57, R78). -/
theorem test_decode_rejects :
    decode .scalar (natToBytes 4 0x00000098) = .error .unusedField ∧ decode .scalar (natToBytes 4 0x1C000000) = .error .unassigned ∧
      decode .engine (natToBytes 2 0x0000) = .error .unassigned ∧ decode .vector [0, 0, 0] = .error .tooShort := by decide +kernel

/-! ### One word of every row, from the rows' fixed bits and field places -/

def scalarWordsA : List (Nat × Instr) :=
  [(0x00509180, .add 10 4 35), (0x0121B901, .sub 36 13 50), (0x0187B382, .mul 48 61 39), (0x01700003, .mulhs 46 0 0),
   (0x00319F04, .mulhu 6 12 62), (0x0055E905, .div 10 47 18), (0x01DCBA86, .divu 59 37 53),
   (0x008FE887, .rem 17 63 17), (0x00A39308, .remu 20 28 38), (0x0019CB89, .and 3 14 23), (0x0018088A, .or 3 0 17),
   (0x01F6A30B, .xor 62 53 6), (0x01C2B10C, .andn 56 21 34), (0x014F180D, .shl 41 56 48), (0x01F8D68E, .shr 63 6 45),
   (0x0027A88F, .sar 4 61 17), (0x01DC4A90, .rol 59 34 21), (0x00863711, .min 16 49 46),
   (0x00FD3612, .minu 31 41 44), (0x00FA4393, .max 31 18 7), (0x00CA7714, .maxu 25 19 46),
   (0x00680915, .slt 13 0 18), (0x0148D116, .sltu 41 6 34), (0x01A81117, .seq 53 0 34)]

def scalarWordsB : List (Nat × Instr) :=
  [(0x00754018, .clz 14 42), (0x00936019, .ctz 18 27), (0x0190801A, .popc 50 4), (0x0048049B, .sel 9 0 9),
   (0x022BEECC, .addi 5 31 3788), (0x0576769E, .andi 46 51 5790), (0x07D84901, .ori 59 2 2305),
   (0x09438978, .xori 40 28 2424), (0x0A188031, .shli 3 4 49), (0x0D682033, .shri 45 1 51),
   (0x0FF9803E, .sari 63 12 62), (0x1015B4CA, .slti 2 45 5322), (0x121C0449, .sltiu 3 32 1097),
   (0x15180000, .lih 35 0), (0x162763DF, .extu 4 59 15 31), (0x1933C000, .exts 38 30 0 0),
   (0x1A6DC607, .ins 13 46 24 7), (0x200A6286, .beq 1 19 646), (0x238C0C5B, .bne 49 32 3163),
   (0x2594D9D9, .blt 50 38 6617), (0x26C9195B, .bge 25 8 6491), (0x28B01AD9, .bltu 22 0 6873),
   (0x2AB9503E, .bgeu 23 10 4158), (0x2C05B05A, .j 372826)]

def scalarWordsC : List (Nat × Instr) :=
  [(0x2F28632C, .jal 37 25388), (0x31295E31, .jalr 37 10 7729), (0x41639547, .ldsB 44 28 5447),
   (0x4266B7C6, .ldsBu 12 53 6086), (0x457285F9, .ldsH 46 20 1529), (0x47EB267A, .ldsHu 61 25 1658),
   (0x48FA8000, .ldsW 31 20 0), (0x4A22E770, .ldsWu 4 23 1904), (0x4DCE4662, .ldsD 57 50 1634),
   (0x51D177D4, .stsB 58 11 6100), (0x52DAF017, .stsH 27 23 4119), (0x54A79D19, .stsW 20 60 7449),
   (0x56C7A000, .stsD 24 61 0), (0x59780AE2, .amos 47 0 21 3 2), (0x5AAF6040, .cass 21 59 0 2),
   (0x60474000, .ldB 8 58 0), (0x627D650D, .ldBu 15 43 1293), (0x6465AE9C, .ldH 12 45 3740),
   (0x661B1CD3, .ldHu 3 24 7379), (0x68ECD147, .ldW 29 38 4423), (0x6BEBC000, .ldWu 61 30 0),
   (0x6C0016AC, .ldD 0 0 5804), (0x71DD3CDB, .stB 59 41 7387), (0x73581080, .stH 43 0 4224)]

def scalarWordsD : List (Nat × Instr) :=
  [(0x75FAE738, .stW 63 23 1848), (0x7600E000, .stD 0 7 0), (0x78009B42, .amo 0 4 54 2 2),
   (0x7A11EFE0, .cas 2 15 31 3), (0x813CFC50, .fadd 39 39 56 5), (0x83DB6F80, .faddDyn 59 27 31),
   (0x80BECF81, .fsub 23 54 31 0), (0x822F5C01, .fsubDyn 5 58 56), (0x8147E7A2, .fmul 40 63 15 2),
   (0x8390E002, .fmulDyn 50 7 0), (0x80ADC483, .fma 21 46 9 0), (0x83093F83, .fmaDyn 33 9 63),
   (0x8197C5A4, .fdiv 50 62 11 2), (0x82045184, .fdivDyn 0 34 35), (0x81152035, .fsqrt 34 41 3),
   (0x8262A005, .fsqrtDyn 12 21), (0x812C3906, .fmin 37 33 50), (0x81D2CA87, .fmax 58 22 21),
   (0x8072A008, .fminn 14 21 0), (0x80458989, .fmaxn 8 44 19), (0x81EDF92A, .fcmp 61 47 50 2),
   (0x8003E94B, .fcvtFmtF32 0 31 true 2 4), (0x8291690B, .fcvtFmtF32Dyn 18 11 true 2),
   (0x81780B4C, .fcvtF32Fmt 47 0 true 6 4)]

def scalarWordsE : List (Nat × Instr) :=
  [(0x82B38B8C, .fcvtF32FmtDyn 22 28 true 7), (0x816C600D, .fclass 45 35), (0x90680001, .qpops 13 1),
   (0xA0048002, .fork 36 2), (0xA2000000, .join), (0xA4000000, .taskEnd), (0xA6000D3C, .ckpt 0 3388),
   (0xB000AEEE, .waitc 10 14 14 14), (0xB2CFA01C, .waitv 25 61 true 12), (0xB4000007, .pegp 7),
   (0xB603E00F, .pegw 31 15), (0xB8000005, .bar true 1), (0xBA000002, .phase 2), (0xBC000002, .fence 2),
   (0xC0801600, .jqput 16 0 44), (0xC2986C00, .jqctlClassset 19 3 24), (0xC2457B81, .jqctlClassget 8 43 55),
   (0xC311AC82, .jqctlFreeze 34 13 25), (0xC3550683, .jqctlThaw 42 40 13), (0xC2980004, .jqctlTake 19 0 0),
   (0xC32C3985, .jqctlSteal 37 33 51), (0xC3A14C06, .jqctlQuery 52 10 24), (0xC4028000, .ctraddLocal 20 0),
   (0xC4029A81, .ctraddGlobal 20 53)]

def scalarWordsF : List (Nat × Instr) :=
  [(0xC652A600, .send 10 21 12), (0xC9C00300, .bkarm 56 0 6), (0xCB100000, .evget 34), (0xCC000000, .evdone),
   (0xE068009C, .csrr 13 78), (0xE206E9F8, .csrw 55 1276), (0xE206957B, .csrwC 52 2749),
   (0xE47DBF22, .csrx 15 45 3985), (0xE5D742D5, .csrxS 58 58 362), (0xE6000092, .trap 146), (0xE8000000, .sret),
   (0xEA019980, .tlbiVa 12 51), (0xEA001581, .tlbiAsid 43), (0xEA000002, .tlbiAll), (0xEC04E000, .seghold 39),
   (0xEE064000, .segrel 50)]

/-- Every S-ISA row (R62 to R66), one word each. -/
def scalarWords : List (Nat × Instr) := scalarWordsA ++ scalarWordsB ++ scalarWordsC ++ scalarWordsD ++ scalarWordsE ++ scalarWordsF

def vectorWordsA : List (Nat × Instr) :=
  [(0x00007A84, .vadd 0 0 15 2 4 false false true), (0x0218A91C, .vsub 0 24 21 1 0 true true true),
   (0x041D6C1C, .vmul 0 29 13 4 0 true true true), (0x07AE8318, .vfma 13 14 16 3 0 true true false),
   (0x0800DC1C, .vfms 0 0 27 4 0 true true true), (0x0AE81C68, .vdiv 7 8 3 4 3 false true false),
   (0x0C1A001C, .vsqrt 0 26 0 0 true true true), (0x0F7E2700, .vmin 11 30 4 7 false),
   (0x101B1804, .vmax 0 27 3 0 true), (0x13D90B00, .vminn 14 25 1 3 false), (0x14059B04, .vmaxn 0 5 19 3 true),
   (0x1605060C, .vabs 0 5 6 true true), (0x1807070C, .vneg 0 7 7 true true), (0x1A011545, .vcmp 0 1 2 5 2 true true),
   (0x1C145704, .vsel 0 20 10 7 true), (0x1E0F0304, .vand 0 15 0 3 true), (0x20150D04, .vor 0 21 1 5 true),
   (0x22B37D00, .vxor 5 19 15 5 false), (0x25C06700, .vshl 14 0 12 7 false), (0x26112704, .vshr 0 17 4 7 true),
   (0x28AECD00, .vsar 5 14 25 5 false), (0x2B8E031B, .vcvt 12 14 3 0 true true 3), (0x2D080100, .vclass 8 8 1 false),
   (0x30B40068, .vexp2 5 20 0 3 false true false)]

def vectorWordsB : List (Nat × Instr) :=
  [(0x33310180, .vlog2 9 17 1 4 false false false), (0x34000114, .vrcp 0 0 1 0 true false true),
   (0x3602021C, .vrsq 0 2 2 0 true true true), (0x3802011C, .vtanh 0 2 1 0 true true true),
   (0x3B4702A8, .verf 10 7 2 5 false true false), (0x4013008F, .vrotr 0 19 true 15),
   (0x4260003D, .vbcr 3 0 false 61), (0x44D20220, .vredr 6 18 2 1 false false 0), (0x49380000, .vrotc 9 24 false 0),
   (0x4A160083, .vbcc 0 22 true 3), (0x4D530010, .vredc 10 19 0 0 true false 0), (0x51800000, .vtrn 12 0 false),
   (0x53241501, .vselk 9 4 2 5 1), (0x540AF080, .vcompr 0 10 30 true), (0x60600004, .vlds 3 4),
   (0x621A0003, .vsts 26 3), (0x65605800, .vldx 11 11 0), (0x660B9007, .vstx 11 18 7),
   (0x680C0000, .vmov 0 12 false), (0x6A320000, .vpop 1 2), (0x6C1D0003, .vpush 29 3), (0x6EA00001, .vidx 5 true),
   (0x718000A2, .vaccr 12 10 2), (0x72000045, .vaccw 0 4 5)]

def vectorWordsC : List (Nat × Instr) :=
  [(0x74400869, .vpack 2 0 1 0 3 false true 1), (0x77A6070A, .vunpk 13 6 7 true 2), (0x80E869D1, .kli 7 551377),
   (0x82C59F90, .kadd 6 5 40848), (0x84054158, .kbr 0 5 16728), (0x84670000, .vEnd 3 7), (0x86070000, .vloop 7 0)]

/-- Every V-ISA row (R68 to R73). -/
def vectorWords : List (Nat × Instr) := vectorWordsA ++ vectorWordsB ++ vectorWordsC

def engineWordsA : List (Nat × Instr) :=
  [(0x8194, .lit 404), (0x4DDD, .litx 3549), (0x0100, .dup), (0x0200, .drop), (0x0300, .swap), (0x0400, .over),
   (0x0500, .engineAdd), (0x0600, .engineSub), (0x0780, .engineDo true), (0x08ED, .engineLoop true 109),
   (0x0982, .engineBr 130), (0x0A05, .engineBz 5), (0x0B0E, .enginePegp 14), (0x0C0E, .enginePegw 14),
   (0x0D81, .engineWaitc 2 1), (0x0E20, .engineFence 2), (0x0FA0, .engineCtraddLocal true false 2),
   (0x0FD1, .engineCtraddGlobal true true 1), (0x1000, .engineEnd), (0x20C8, .mma true true 0 true),
   (0x21F0, .accz true true 3), (0x22C0, .accdrain true true 0), (0x2301, .scaleset true),
   (0x30D8, .copyin true true 1 true)]

def engineWordsB : List (Nat × Instr) :=
  [(0x3158, .copyout false true 1 true), (0x32E8, .nest true true 2 true), (0x33E8, .gath true true 2 true),
   (0x34E8, .scat true true 2 true), (0x3571, .qstream false true 3 1), (0x36E1, .qdrain true true 2 1),
   (0x37D1, .mlr true true 1 true), (0x38E0, .mst true true 2), (0x3960, .pref false true 2)]

/-- Every engine row (R74 to R76). -/
def engineWords : List (Nat × Instr) := engineWordsA ++ engineWordsB

theorem test_scalarWords : ∀ e ∈ scalarWords, decode .scalar (natToBytes 4 e.1) = .ok (e.2, []) := by decide +kernel
theorem test_vectorWords : ∀ e ∈ vectorWords, decode .vector (natToBytes 4 e.1) = .ok (e.2, []) := by decide +kernel
theorem test_engineWords : ∀ e ∈ engineWords, decode .engine (natToBytes 2 e.1) = .ok (e.2, []) := by decide +kernel

/-- Every row of each family is there once, and the encoder gives the same words. -/
theorem test_encodeWords : scalarWords.length = 136 ∧ vectorWords.length = 55 ∧ engineWords.length = 33 ∧
    (∀ e ∈ scalarWords, encode e.2 = some (.scalar, e.1)) ∧ (∀ e ∈ vectorWords, encode e.2 = some (.vector, e.1)) ∧
      ∀ e ∈ engineWords, encode e.2 = some (.engine, e.1) := by decide +kernel

/-! ### States for the tests -/

/-- Partition 1: 64 MiB of carve-out, a loan pool of 64 frames, Stewards 16 and 17, Guests 18 to 31, VFs 2 and 3. -/
def part1 : Partition :=
  { state := 1, bays := 1, carveBase := 0x200000, carveSize := 0x4000000, loanBase := 0x10000000, loanSize := 0x8000000,
    jqShare := 64, thrFirst := 16, thrCount := 16, stewCount := 2, vfFirst := 2, vfCount := 2, ctrShare := 32, bkShare := 32,
    lodgeShare := 4, parlShare := 8, ctrFirst := 64, bkRuns := [(64, 32)], codeBase := 0x200000, codeSize := 0x10000,
    grpBase := 0x220000, tierBase := 0x100000000000, tierSize := 0x400000, tierPorts := 1 }

/-- VF 2: READY, 1 MiB of segment at 4 MiB, ASIDs 4 and 5, Guest threads 20 to 23. -/
def vf2 : Vf :=
  { state := 2, part := 1, segBase := 0x400000, segSize := 0x100000, jqGuar := 4, jqBurst := 8, frGuar := 2, frBurst := 2,
    asidFirst := 4, asidCount := 1, faultThr := 16, gtFirst := 20, gtCount := 4, cFirst := 0, cCount := 4, bFirst := 0,
    bCount := 4, hostThr := 20 }

def task0 : Task :=
  { gang := 1, rank := 0, vf := 2, part := 1, asid := 4, cls := 5, key := 7, entry := 0x10000, log2 := 12, base := 0,
    acc := 0x000F, preq := false, startCycle := 0, irrevocable := false, barGen := 0, hasEnded := false }

def gang1 : Gang :=
  { state := .running, part := 1, vf := 2, cls := 5, asid := 4, key := 7, entryAddr := 0x10000, log2 := 12, acc := 0x000F,
    seed := 3, qfmt := [0, 0, 0, 0], size := 1, tiles := [0], entry := 9, chunk := none, argAddr := none, args := [1, 2],
    x2 := 11, x3 := 12, x4 := 13, x6 := 14, x10 := 15, onTile := none, runs := 1, ckpts := [], prio := 0, age := 0, place := 0,
    aged := 0, unplaced := 0, pageWait := none, pageTicks := 0, preq := false, preqTicks := 0 }

def class5 : JqClass :=
  { vf := 2, asid := 4, target := 0, gang := 1, thread := 0, nbuck := 0, buckPayload := false, expert := false, prio := 0,
    op := 4, entry := 0x10000, acc := 0x000F, wlog2 := 12, seed := 3, qfmt := [0, 0, 0, 0], buckets := [], frozen := false }

def entry9 : JqEntry :=
  { part := 1, cls := 5, key := 7, payload := 0, state := .dispatched, prio := 0, folds := 1, ovf := false, age := 0, place := 0,
    readyTick := 0, aged := 0, unitVf := 2, launched := false, placeTile := none, pin := none, backoff := 0, backoffLeft := 0,
    card := none, unplaced := 0 }

/-- A booted device with partition 1, VF 2, class 5, and one gang on tile 0. -/
def base : State :=
  { State.reset with power := .booted, gangs := [(1, gang1)], entries := [(9, entry9)],
                     parts := vset State.reset.parts 1
                       { part1 with classes := [(5, class5)],
                                    handles := [(8, { gen := 1, used := true, cls := 5, clsGen := 0, rights := 7, vf := 2 })] },
                     vfs := vset State.reset.vfs 2 vf2 }

/-- x1 = -7, x2 = 2, x3 = -2^63, x4 = -1, x5 = 0, x6 = 0x1234, x7 = 1.0, x8 = 3.0 (FP32), x9 = 0x41. -/
def regs : Vector Word 64 :=
  [(1, 0xFFFFFFFFFFFFFFF9), (2, 2), (3, 0x8000000000000000), (4, 0xFFFFFFFFFFFFFFFF), (6, 0x1234), (7, 0x3F800000),
   (8, 0x40400000), (9, 0x41)].foldl (fun v (e : XReg × Word) => vset v e.1 e.2) (Vector.replicate 64 0)

/-- A stream of tile 0 in turn, after a change of the tile. -/
def tile (st : Stream) (f : Tile → Tile := id) : State :=
  setTile { base with cur := .tile 0 st } 0
    (f { tileOf base 0 with x := regs, task := some task0, s := { pc := 0x10000, run := .running, fpcr := 5 },
                            vs := { pc := 0x10100, run := .running }, m := { pc := 0x10200, run := .running },
                            a := { pc := 0x10300, run := .running } })

/-- The same with no forked stream. -/
def alone (f : Tile → Tile := id) : State := tile .S fun T => f { T with vs := {}, m := {}, a := {} }

/-- Thread `n` in turn at a level, at home there. -/
def thread (n : ThreadId) (l : Nat) (f : Thread → Thread := id) : State :=
  setThr { base with cur := .thread n } n (f { x := regs, pc := 0x100, level := l, home := l, held := false, fpcr := 5 })

def guest (f : Thread → Thread := id) : State := thread 20 0 f
def steward (f : Thread → Thread := id) : State := thread 16 1 f
def keeper (f : Thread → Thread := id) : State := thread 0 2 f

theorem tile_turn (st : Stream) : StreamTurn (tile st) 0 st task0 := ⟨rfl, by cases st <;> rfl⟩
theorem alone_turn : StreamTurn alone 0 .S task0 := ⟨rfl, rfl⟩
theorem tile_scalar : ScalarTurn (tile .S) := .inl ⟨0, rfl⟩
theorem alone_scalar : ScalarTurn alone := .inl ⟨0, rfl⟩
theorem guest_scalar : ScalarTurn guest := .inr ⟨20, rfl⟩
theorem steward_scalar : ScalarTurn steward := .inr ⟨16, rfl⟩
theorem keeper_scalar : ScalarTurn keeper := .inr ⟨0, rfl⟩

/-- The state that an instruction answers, if it answers one. -/
def ran (i : Instr) (s : State) : Option State :=
  match exec i s with
  | .next t => some t
  | _ => none

/-- A register and the pc after an instruction. -/
def gives (i : Instr) (s : State) (d : XReg) : Option (Word × Word) := (ran i s).map fun t => (rx t d, pcOf t)

/-- A thread's cause, value, saved pc, status and level. -/
structure Caught where
  cause : Word
  val : Word
  epc : Word
  tstat : Word
  level : Nat
  deriving DecidableEq, Repr

/-- What a thread has caught after an instruction. -/
def caught (i : Instr) (s : State) (n : ThreadId) : Option Caught :=
  (ran i s).map fun t =>
    let h := thrOf t n
    let r := trapRegs h h.level
    { cause := r.tcause, val := r.tval, epc := r.tepc, tstat := r.tstat, level := h.level }

/-! ### Scalar words -/

/-- R150, R151, with results worked out by hand: x1 = -7, x2 = 2, x3 = -2^63, x4 = -1, x6 = 0x1234. -/
def integerCases : List (Instr × Word) :=
  [(.add 20 1 2, 0xFFFFFFFFFFFFFFFB), (.sub 20 2 1, 9), (.mul 20 1 1, 49), (.mulhs 20 1 2, 0xFFFFFFFFFFFFFFFF),
   (.mulhu 20 1 2, 1), (.div 20 1 2, 0xFFFFFFFFFFFFFFFD), (.rem 20 1 2, 0xFFFFFFFFFFFFFFFF), (.divu 20 6 2, 0x91A),
   (.remu 20 4 6, 0xFFFFFFFFFFFFFFFF % 0x1234), (.and 20 6 1, 0x1230), (.or 20 6 2, 0x1236), (.xor 20 6 4, 0xFFFFFFFFFFFFEDCB),
   (.andn 20 6 1, 4), (.shl 20 6 9, 0x2468), (.shr 20 3 9, 0x4000000000000000), (.sar 20 3 9, 0xC000000000000000),
   (.rol 20 3 9, 1), (.min 20 1 2, 0xFFFFFFFFFFFFFFF9), (.minu 20 1 2, 2), (.max 20 1 2, 2),
   (.maxu 20 1 2, 0xFFFFFFFFFFFFFFF9), (.slt 20 1 2, 1), (.sltu 20 1 2, 0), (.seq 20 1 1, 1), (.clz 20 6, 51),
   (.ctz 20 6, 2), (.popc 20 6, 5), (.sel 6 4 5, 0x1234)]

theorem test_integer : ∀ e ∈ integerCases,
    gives e.1 (tile .S) (match e.1 with | .sel d _ _ => d | _ => 20) = some (e.2, 0x10004) := by decide +kernel

/-- R151 at its corners: by 0, and -2^63 by -1. -/
theorem test_division : ∀ e ∈ [(Instr.div 20 6 5, 0xFFFFFFFFFFFFFFFF), (.rem 20 6 5, 0x1234), (.divu 20 6 5, 0xFFFFFFFFFFFFFFFF),
    (.remu 20 6 5, (0x1234 : Word)), (.div 20 3 4, 0x8000000000000000), (.rem 20 3 4, 0)],
    gives e.1 guest 20 = some (e.2, 0x104) := by decide +kernel

/-- R58: a write to x0 is ignored, and it reads 0. -/
theorem test_x0 : gives (.add 0 1 2) guest 0 = some (0, 0x104) ∧ gives (.add 20 0 2) guest 20 = some (2, 0x104) := by decide +kernel

/-- R152: 0x1FFD is -3; LIH places its immediate at bit 13. -/
theorem test_immediate : ∀ e ∈ [(Instr.addi 20 2 0x1FFD, 0xFFFFFFFFFFFFFFFF), (.andi 20 6 0x1FF0, 0x1230),
    (.ori 20 5 0x1FFF, 0xFFFFFFFFFFFFFFFF), (.xori 20 6 4, 0x1230), (.shli 20 6 63, 0), (.shri 20 3 63, 1),
    (.sari 20 3 63, 0xFFFFFFFFFFFFFFFF), (.slti 20 1 0x1FFA, 1), (.sltiu 20 2 0x1FFD, (1 : Word)),
    (.lih 20 0x40000, 0xFFFFFFFF80000000)],
    gives e.1 guest 20 = some (e.2, 0x104) := by decide +kernel

/-- R153: bits 8 to 4 of 0x1234, with and without their sign, and a field laid in. -/
theorem test_bitfield : ∀ e ∈ [(Instr.extu 20 6 2 3, (13 : Word)), (.exts 20 6 2 3, 0xFFFFFFFFFFFFFFFD),
    (.ins 20 4 8 7, 0xFF00), (.extu 20 3 63 0, 1)],
    gives e.1 guest 20 = some (e.2, 0x104) := by decide +kernel

/-- R154: offsets count words; 0x1FFD is 3 words back. -/
theorem test_branch : ∀ e ∈ [(Instr.beq 1 1 4, (0x110 : Word)), (.bne 1 1 4, 0x104), (.blt 1 2 0x1FFD, 0xF4), (.bge 1 2 4, 0x104),
    (.bltu 1 2 4, 0x104), (.bgeu 1 2 4, 0x110), (.j 0x7FFFF, 0xFC)],
    gives e.1 guest 0 = some (0, e.2) := by decide +kernel

theorem test_jump : gives (.jal 20 16) guest 20 = some (0x104, 0x140) ∧ gives (.jalr 20 6 8) guest 20 = some (0x104, 0x123C) ∧
    caught (.jalr 20 6 2) guest 20 = some ⟨0x10, 0x1236, 0x100, 4, 1⟩ := by decide +kernel

theorem witness_DivisionWords : (ScalarTurn (tile .S) ∧ ScalarTurn guest) ∧
    ∀ i ∈ [Instr.div 0 6 5, .divu 20 6 5, .rem 20 3 4, .remu 63 6 4],
      (divisionRule (rx (tile .S)) i).isSome ∧ (divisionRule (rx guest) i).isSome :=
  ⟨⟨tile_scalar, guest_scalar⟩, by decide +kernel⟩

theorem witness_IntegerWords : ScalarTurn (tile .S) ∧ ∀ e ∈ integerCases, (integerRule (rx (tile .S)) e.1).isSome ∨
    (divisionRule (rx (tile .S)) e.1).isSome := ⟨tile_scalar, by decide +kernel⟩

theorem witness_ImmediateWords : ScalarTurn guest ∧ ∀ i ∈ [Instr.addi 0 1 0x1000, .andi 20 1 0, .ori 20 1 0x1FFF, .xori 20 1 1,
    .shli 20 1 63, .shri 20 1 0, .sari 20 1 63, .slti 20 1 0, .sltiu 20 1 0, .lih 20 0x40000],
    (immediateRule (rx guest) i).isSome := ⟨guest_scalar, by decide +kernel⟩

/-- Both clauses at their boundary: position and length of 64 together, and of 65. -/
theorem witness_BitfieldWords : ScalarTurn guest ∧ ∀ e ∈ [(Instr.extu 20 1 63 0, 64), (.exts 20 1 0 63, 64), (.ins 20 1 32 31, 64),
    (.extu 20 1 63 1, 65), (.exts 20 1 1 63, 65), (.ins 20 1 33 31, 65)],
    (bitfieldRule (rx guest) e.1).map (fun r => r.1 + (r.2.1 + 1)) = some e.2 := ⟨guest_scalar, by decide +kernel⟩

theorem test_bitfield_illegal : caught (.extu 20 1 63 1) guest 20 = some ⟨1, 0x16A02FC1, 0x100, 4, 1⟩ := by decide +kernel

/-- A branch taken and one not taken, J, and jumps to a multiple of 4 and to no such target. -/
theorem witness_BranchWords : ScalarTurn guest ∧ branchRule (rx guest) (.beq 1 1 0x1000) = some (true, -4096) ∧
    branchRule (rx guest) (.bne 1 1 0xFFF) = some (false, 4095) ∧ branchRule (rx guest) (.j 0) = some (true, 0) ∧
    jumpRule (rx guest) (pcOf guest) (.jal 0 0) = some (0, 0x100) ∧ jumpRule (rx guest) (pcOf guest) (.jalr 20 6 0) = some (20, 0x1234) ∧
    jumpRule (rx guest) (pcOf guest) (.jalr 20 6 3) = some (20, 0x1237) := ⟨guest_scalar, by decide +kernel⟩

/-! ### Local loads, stores and atomics -/

/-- Bytes 0x81 to 0x88 at offset 0 and 0x99 at the last byte of the window or the store. -/
def eight : List Byte := [0x81, 0x82, 0x83, 0x84, 0x85, 0x86, 0x87, 0x88]
def tileBytes : State := tile .S fun T => { T with spad := mset (mwrite [] 0 eight) 4095 0x99 }
def guestBytes : State := guest fun h => { h with store := mset (mwrite [] 0 eight) 16383 0x99 }

/-- R128, R155, R377: least significant byte first; the offset wraps at the window and at 16 KiB. -/
theorem test_localLoad : ∀ e ∈ [(Instr.ldsB 20 5 0, (0xFFFFFFFFFFFFFF81 : Word)), (.ldsBu 20 5 0, 0x81), (.ldsH 20 5 0, 0xFFFFFFFFFFFF8281),
    (.ldsHu 20 5 0, 0x8281), (.ldsW 20 5 0, 0xFFFFFFFF84838281), (.ldsWu 20 5 0, 0x84838281), (.ldsD 20 5 0, 0x8887868584838281),
    (.ldsHu 20 5 0x1FFF, 0x8199)],
    gives e.1 tileBytes 20 = some (e.2, 0x10004) ∧ gives e.1 guestBytes 20 = some (e.2, 0x104) := by decide +kernel

/-- R155: the low bytes of the register, and no other byte. -/
theorem test_localStore : ∀ e ∈ [(Instr.stsB 6 5 1, 1, (0x84833481 : Word)), (.stsH 6 5 1, 1, 0x84123481), (.stsW 6 5 0, 0, 0x00001234),
    (.stsD 6 5 0x1FFF, 0, 0x00000012)],
    (ran e.1 guestBytes).map (fun t => rx (((ran (.ldsWu 20 5 0) t).getD t)) 20) = some e.2.2 := by decide +kernel

/-- R156: the old value, sign-extended, to xd; the operation's value at the aligned offset. -/
theorem test_amos : ∀ e ∈ [(0, (0x84838283 : Word)), (1, 2), (2, 0), (3, 0x84838283), (4, 0x84838283), (5, 0x84838281), (6, 2),
    (7, 2), (8, 0x84838281)],
    (ran (.amos 20 5 2 2 (Fin.ofNat 32 e.1)) guestBytes).map (fun t => (rx t 20, rx ((ran (.ldsWu 21 5 0) t).getD t) 21)) =
      some (0xFFFFFFFF84838281, e.2) := by decide +kernel

theorem test_cass : gives (.cass 4 5 2 3) guestBytes 4 = some (0x8887868584838281, 0x104) ∧
    (ran (.cass 4 5 2 3) (setThr guestBytes 20 { thrOf guestBytes 20 with x := vset regs 4 0x8887868584838281 })).map
      (fun t => rx ((ran (.ldsD 21 5 0) t).getD t) 21) = some 2 := by decide +kernel

theorem witness_LocalLoads : ScalarTurn tileBytes ∧ ScalarTurn guestBytes ∧ ∀ i ∈ [Instr.ldsB 20 5 0x1FFF, .ldsBu 0 5 0,
    .ldsH 20 5 0x1000, .ldsHu 20 5 0xFFF, .ldsW 20 5 1, .ldsWu 20 5 0, .ldsD 20 5 0x1FFF], (loadRule i).isSome :=
  ⟨.inl ⟨0, rfl⟩, .inr ⟨20, rfl⟩, by decide +kernel⟩

theorem witness_LocalStores : ScalarTurn tileBytes ∧ ScalarTurn guestBytes ∧ ∀ i ∈ [Instr.stsB 6 5 0x1FFF, .stsH 0 5 0x1000,
    .stsW 6 5 1, .stsD 6 5 0x1FFF], (storeRule i).isSome := ⟨.inl ⟨0, rfl⟩, .inr ⟨20, rfl⟩, by decide +kernel⟩

theorem witness_LocalAtomics : ScalarTurn guestBytes ∧ ∀ i ∈ [Instr.amos 20 5 2 2 8, .amos 0 6 2 3 0, .cass 4 5 2 2, .cass 20 6 2 3],
    wellFormed i = true ∧ (localAtomicRule (rx guestBytes) i).isSome := ⟨.inr ⟨20, rfl⟩, by decide +kernel⟩

/-! ### Scalar floating point -/

/-- A flag word and a result (R47): 1 invalid, 2 divide by zero, 4 overflow, 8 underflow, 16 inexact, 32 clamped. -/
def fpGives (i : Instr) (s : State) : Option (Word × Word) := (ran i s).map fun t => (rx t 20, fpsrOf t)

/-- 1.0 and 3.0 in FP32 (R159, R160): 1/3 rounds to 0x3EAAAAAB to nearest and to 0x3EAAAAAA toward zero. -/
theorem test_float : ∀ e ∈ [(Instr.fadd 20 7 8 0, ((0x40800000 : Word), (0 : Word))), (.fsub 20 7 8 0, (0xC0000000, 0)), (.fmul 20 8 8 0, (0x41100000, 0)),
    (.fdiv 20 7 8 0, (0x3EAAAAAB, 16)), (.fdiv 20 7 8 1, (0x3EAAAAAA, 16)), (.fdiv 20 7 5 0, (0x7F800000, 2)),
    (.fma 20 8 8 0, (0x41100000, 0)), (.fsqrt 20 8 0, (0x3FDDB3D7, 16)), (.fmin 20 7 8, (0x3F800000, 0)),
    (.fmax 20 7 8, (0x40400000, 0)), (.fminn 20 7 8, (0x3F800000, 0)), (.fmaxn 20 7 8, (0x40400000, 0)),
    (.fcmp 20 7 8 1, (1, 0)), (.fcmp 20 8 7 2, (0, 0)), (.fclass 20 8, (64, 0)), (.fcvtFmtF32 20 8 false 1 0, (0x4040, 0)),
    (.fcvtF32Fmt 20 9 false 9 0, (0x42820000, 0)), (.fcvtFmtF32 20 8 false 8 0, (3, 0))],
    fpGives e.1 (guest fun h => { h with fpcr := 0 }) = some e.2 := by decide +kernel

/-- FPCR.RM = 1 rounds toward zero (R46); SR takes one draw of the seed's generator (R40). -/
theorem test_dynamic : ∀ e ∈ [(Instr.fdivDyn 20 7 8, (0x3EAAAAAA : Word)), (.faddDyn 20 7 8, 0x40800000), (.fsubDyn 20 7 8, 0xC0000000),
    (.fmulDyn 20 8 8, 0x41100000), (.fmaDyn 20 8 8, 0x41100000), (.fsqrtDyn 20 8, 0x3FDDB3D7), (.fcvtFmtF32Dyn 20 8 false 2, 0x4200),
    (.fcvtF32FmtDyn 20 9 false 9, 0x42820000)],
    (fpGives e.1 (guest fun h => { h with fpcr := 1 })).map Prod.fst = some e.2 := by decide +kernel

theorem test_draw : (ran (.fdivDyn 20 7 8) guest).map (fun t => genOf t) = some { x := xorshift 1, half := true } := by decide +kernel

def rounding (m : Fin 8) : List Instr :=
  [.fadd 20 7 8 m, .fsub 20 7 8 m, .fmul 20 7 8 m, .fdiv 20 7 8 m, .fma 20 7 8 m, .fsqrt 20 7 m, .fcvtFmtF32 20 7 true 4 m,
   .fcvtF32Fmt 20 7 false 10 m, .faddDyn 20 7 8, .fsubDyn 20 7 8, .fmulDyn 20 7 8, .fdivDyn 20 7 8, .fmaDyn 20 7 8,
   .fsqrtDyn 0 7, .fcvtFmtF32Dyn 20 7 false 9, .fcvtF32FmtDyn 20 7 false 0]

/-- In RNE and in SR, static and dynamic: the state `guest` has FPCR.RM 5. -/
theorem witness_FloatOperations : ScalarTurn guest ∧ (∀ m ∈ [(0 : Fin 8), 5], ∀ i ∈ rounding m, wellFormed i = true ∧
      ((fpModeOf ((fpcrOf guest).toNat % 8) i).bind fun mode => fpRule (rx guest) mode 0 i).isSome) ∧
    ∀ i ∈ [Instr.fmin 20 7 8, .fmax 20 7 8, .fminn 20 7 8, .fmaxn 0 7 8, .fcmp 20 7 8 0, .fcmp 20 7 8 4, .fclass 20 7],
      wellFormed i = true ∧ (fpTestRule (rx guest) i).isSome := ⟨guest_scalar, by decide +kernel⟩

/-- 1; a value between 1 and the next multiple of 2^-63, as a third is bracketed; and 2^-127 and 2^128, tiny and too large in
FP32. -/
theorem witness_RoundsOnce :
    ((1 : Rat) = scaled 1 0 ∧ (2 : Rat) ^ (0 : Int) ≤ 1 ∧ (1 : Rat) < 2 ^ ((0 : Int) + 1)) ∧
    (2 ^ 63 ≤ (2 ^ 63 : Nat) ∧ scaled (2 ^ 63) (-63) < 1 + 1 / 2 ^ 64 ∧ (1 + 1 / 2 ^ 64 : Rat) < scaled (2 ^ 63 + 1) (-63)) ∧
    (2 : Rat) ^ (-127 : Int) = scaled 1 (-127) ∧ (2 : Rat) ^ (128 : Int) = scaled 1 128 := by
  norm_num [scaled]

theorem witness_FClassWord : ScalarTurn (tile .S) ∧ ScalarTurn keeper := ⟨tile_scalar, keeper_scalar⟩

/-! ### Global loads, stores and atomics of threads -/

/-- Tables of VF 2, ASID 4 (R343, R344): the first GiB maps to IPA 0 with every right, the second for reading, the third is absent. -/
def tables : Memory :=
  mwrite (mwrite (mwrite [] 0x400000 [1, 0, 1]) 0x410000 [1, 0, 2]) 0x420000 [0x1F, 0, 0, 0, 0, 0, 0, 0, 0x07]

def withMem (s : State) (m : Memory) : State := { s with mem := m }
def withReg (s : State) (r : XReg) (w : Word) : State := wx s r w

/-- A Guest of VF 2 whose x10 holds an address. -/
def guestAt (va : Word) : State := withReg (withMem guest (mwrite tables 0x480000 eight)) 10 va
def keeperAt (pa : Word) : State := withReg (withMem keeper (mwrite [] 0 eight)) 10 pa

/-- R158, R345: virtual 0x80000 is physical 0x480000; a Keeper's address is physical. -/
theorem test_globalLoad : ∀ e ∈ [(Instr.ldB 20 10 0, (0xFFFFFFFFFFFFFF81 : Word)), (.ldBu 20 10 1, 0x82), (.ldH 20 10 0, 0xFFFFFFFFFFFF8281),
    (.ldHu 20 10 2, 0x8483), (.ldW 20 10 4, 0xFFFFFFFF88878685), (.ldWu 20 10 0, 0x84838281), (.ldD 20 10 0, 0x8887868584838281)],
    gives e.1 (guestAt 0x80000) 20 = some (e.2, 0x104) ∧ gives e.1 (keeperAt 0) 20 = some (e.2, 0x104) := by decide +kernel

/-- R158, R344: misaligned, read-only, absent, beyond 2^56, and a Keeper's hole in the physical map. -/
theorem test_globalFault : ∀ e ∈ [(Instr.ldH 20 10 1, 0x80000, ((0x10 : Word), (0x80001 : Word))), (.stB 6 10 0, 0x40000000, (8, 0x40000000)),
    (.ldB 20 10 0, 0x80000000, (7, 0x80000000)), (.ldB 20 10 0, 0x100000000000000, (8, 0x100000000000000))],
    caught e.1 (guestAt e.2.1) 20 = some ⟨e.2.2.1, e.2.2.2, 0x100, 4, 1⟩ := by decide +kernel

theorem test_physicalHole : caught (.ldB 20 10 0) (keeperAt 0x7735940000) 0 = some ⟨9, 0x7735940000, 0x100, 6, 2⟩ := by decide +kernel

theorem test_globalStore : (ran (.stB 6 10 1) (guestAt 0x80000)).map (fun t => mword t.mem 0x480000) = some 0x8887868584833481 := by
  decide +kernel

theorem test_physicalStore :
    ∀ e ∈ [(Instr.stB 6 10 1, (0x8887868584833481 : Word)), (.stH 6 10 2, 0x8887868512348281)],
      (ran e.1 (keeperAt 0)).map (fun t => mword t.mem 0) = some e.2 := by decide +kernel

theorem test_physicalStoreWide :
    ∀ e ∈ [(Instr.stW 6 10 0, (0x8887868500001234 : Word)), (.stD 6 10 0, 0x1234)],
      (ran e.1 (keeperAt 0)).map (fun t => mword t.mem 0) = some e.2 := by decide +kernel

theorem test_globalAtomic : ∀ e ∈ [(Instr.amo 20 10 2 3 0, (0x8887868584838281 : Word), (0x8887868584838283 : Word)),
    (.cas 20 10 2 2, 0xFFFFFFFF84838281, 0x8887868584838281)],
    (ran e.1 (keeperAt 0)).map (fun t => (rx t 20, mword t.mem 0)) = some e.2 := by decide +kernel

theorem test_cas : (ran (.cas 5 10 2 2) (guestAt 0x80008)).map (fun t => (rx t 5, mword t.mem 0x480008)) = some (0, 2) := by decide +kernel

/-- A counter's window at IPA 0x90000 of VF 2 (R394): counter 64 is the VF's first, and holds 5. -/
def windowed (s : State) : State := { setVf s 2 { vf2 with winIpa := 0x90000, winEn := true } with counters := [(64, 5)] }
/-- The VF's segment is held (R348). -/
def held (s : State) : State := setVf s 2 { vf2 with segHeld := true }
/-- An error that ECC cannot correct in the granule at physical address 0 (R428). -/
def bad (s : State) : State := { s with bad := [0] }

theorem test_counterWindow : (ran (.amo 20 10 2 3 0) (windowed (guestAt 0x90000))).map (fun t => (rx t 20, tget 0 t.counters 64)) = some (5, 7) ∧
    (ran (.amo 20 10 2 3 1) (windowed (guestAt 0x90000))).map (fun t => (rx t 20, tget 0 t.counters 64)) = some (5, 5) ∧
    (ran (.stB 6 10 0) (windowed (guestAt 0x90000))).map (fun t => (tget 0 t.counters 64, mget t.mem 0x490000)) = some (5, 0) := by decide +kernel

theorem test_ecc : (ran (.ldB 20 10 0) (bad (keeperAt 63))).map (fun t => (thrOf t 0).queue.map fun e => e.record.getD 2 0) = some [63] := by decide +kernel

/-- Every clause of the loads: misaligned, a cause, a wait, an error, a configuration word that may be read and one that may
not, and plain bytes; of the stores and atomics also a right that is missing, and a counter's window. -/
theorem witness_ThreadLoads : (guestAt 0x80000).cur = .thread 20 ∧ (keeperAt 0).cur = .thread 0 ∧
    (∀ i ∈ [Instr.ldB 20 10 0, .ldBu 20 10 0, .ldH 20 10 0, .ldHu 20 10 0, .ldW 20 10 0, .ldWu 20 10 0, .ldD 0 10 0x1FF8],
      (globalLoadRule i).isSome) ∧
    (threadXlat (guestAt 0) 20 0x3FFFFFFF .read).2 = .fault causeSegment ∧
    (threadXlat (guestAt 0) 20 0xFFFFF .read).2 = .ok 0x4FFFFF ∧ (threadXlat (guestAt 0) 20 0x80000000 .read).2 = .fault causeAbsent ∧
    (threadXlat (held (guestAt 0)) 20 0 .read).2 = .wait ∧ badIn (bad (keeperAt 0)) 63 1 = some 63 ∧ badIn (bad (keeperAt 0)) 64 1 = none ∧
    inConfig 0xF00000002040 = true ∧ spaceRead (keeperAt 0) 0 0xF00000002040 8 = some 0 ∧
    spaceRead (keeperAt 0) 0 0xF00000000000 8 = none := by decide +kernel

theorem witness_ThreadStores : (∀ i ∈ [Instr.stB 6 10 0, .stH 6 10 0, .stW 6 10 0, .stD 0 10 0x1FF8], (globalStoreRule i).isSome) ∧
    (threadXlat (guestAt 0) 20 0x40000000 .write).2 = .fault causePermission ∧ (threadXlat (guestAt 0) 20 0xFFFFF .write).2 = .ok 0x4FFFFF ∧
    (threadXlat (held (guestAt 0)) 20 0 .write).2 = .wait ∧ (spaceWrite (keeperAt 0) 0 0xF00000002040 8 3).isSome = true ∧
    spaceWrite (keeperAt 0) 0 0xF00000000000 8 3 = none ∧ windowCtr (windowed guest) 0x49001F = some (67, 7) ∧
    windowCtr (windowed guest) 0x490020 = none := by decide +kernel

theorem witness_ThreadAtomics : (∀ i ∈ [Instr.amo 20 10 2 2 8, .amo 20 10 2 3 0, .cas 20 10 2 2, .cas 0 10 2 3],
      wellFormed i = true ∧ (globalAtomicRule (rx guest) i).isSome) ∧ (guestAt 1).cur = .thread 20 ∧
    (threadXlat (guestAt 0) 20 0xFFFF8 .write).2 = .ok 0x4FFFF8 ∧ inConfig 0x4FFFF8 = false ∧
    windowCtr (windowed guest) 0x490000 = some (64, 0) ∧ ctrHeld (windowed guest) 64 = false ∧
    ctrHeld (setVf (windowed guest) 2 { vf2 with state := 3, winIpa := 0x90000, winEn := true }) 64 = true := by decide +kernel

/-! ### Queues, streams and commit points of a task -/

/-- Queue 1 holds 3.0 in FP32 and converts to BF16 (R250). -/
def queued (w : Bool) (fmt : Word) (es : List (BitVec 32 × Byte)) : State :=
  tile .S fun T => { T with queues := vset T.queues 1 { inb := es, waits := if w then [(.V, 0)] else [], fmt := fmt } }

theorem test_qpops : gives (.qpops 20 1) (queued false 0x10 [(0x40400000, 0), (1, 0)]) 20 = some (0x4040, 0x10004) ∧
    (ran (.qpops 20 1) (queued false 0x10 [(0x40400000, 0), (1, 0)])).map (fun t => (queueOf (tileOf t 0) 1).inb) = some [(1, 0)] := by decide +kernel

/-- A format that serves no pop, a V pop ahead, an empty side, and an element in RNE and in SR. -/
theorem witness_QueuePopScalar : StreamTurn (tile .S) 0 .S task0 ∧ qPopOk 0x50 = false ∧ qPopOk 0x600 = false ∧ qPopOk 0x90 = true ∧
    (queueOf (tileOf (queued true 0 [(1, 0)]) 0) 1).waits.head?.map Prod.fst = some .V ∧ (queueOf (tileOf (queued false 0 []) 0) 1).inb = [] ∧
    (queueOf (tileOf (queued false 0 [(1, 0)]) 0) 1).waits.head?.map Prod.fst = none ∧ qRm 0x510 = 5 ∧ (queueOf (tileOf (queued false 0x510 [(1, 0)]) 0) 1).inb = [(1, 0)] := ⟨tile_turn .S, by decide +kernel⟩

/-- x10 to x12 hold the offsets of streams. -/
def forker (a : Word) : State := withReg (withReg (withReg alone 10 a) 11 0x12) 12 0x14

theorem test_fork : (ran (.fork 10 5) (forker 0x10)).map (fun t =>
      let T := tileOf t 0
      (T.vs.pc, T.vs.run, T.m.run, T.a.pc, T.a.run)) = some (0x10010, .running, .idle, 0x10014, .running) := by decide +kernel

/-- Each clause: every stream at an aligned address; one that is forked; V at no multiple of 4, and after an aligned V, M at no
multiple of 2. -/
theorem witness_ForkClauses : (∀ st ∈ [Stream.V, .M, .A], forkNames 7 st = true ∧ (strm (tileOf (forker 0x10) 0) st).run = .idle ∧
      (forkAt (tileOf (forker 0x10) 0) task0 10 st).toNat % streamWord st = 0) ∧ forkNames 7 .S = false ∧
    (forkNames 1 .V = true ∧ (strm (tileOf (tile .S) 0) .V).run ≠ .idle) ∧
    (forkAt (tileOf (forker 0x12) 0) task0 10 .V).toNat % streamWord .V ≠ 0 ∧ forkedBefore .V = [] ∧
    (forkAt (tileOf (withReg (forker 0x10) 11 0x13) 0) task0 10 .M).toNat % streamWord .M ≠ 0 := by decide +kernel

/-- Every stream, one that runs, and none; addresses at a multiple of 4 and 2. -/
theorem witness_ForkStarts : StreamTurn (forker 0x10) 0 .S task0 ∧ wellFormed (.fork 10 7) = true ∧ wellFormed (.fork 61 1) = true ∧
    (strm (tileOf (tile .S) 0) .V).run ≠ .idle ∧ (∀ st ∈ [Stream.V, .M, .A], (strm (tileOf (forker 0x10) 0) st).run = .idle) ∧
    ((0x10000 : Word) + 0x10).toNat % 4 = 0 ∧ ((0x10000 : Word) + 0x12).toNat % 2 = 0 := ⟨⟨rfl, rfl⟩, by decide +kernel⟩

def ended : State := tile .S fun T => { T with vs := { T.vs with run := .ended }, m := {}, a := { T.a with run := .ended } }

theorem test_join : (ran .join ended).map (fun t => ((tileOf t 0).vs.run, pcOf t)) = some (.idle, 0x10004) ∧
    (ran .join (tile .S)).map pcOf = some 0x10000 := by decide +kernel

theorem witness_JoinAndEnd : StreamTurn ended 0 .S task0 ∧ StreamTurn (tile .S) 0 .S task0 ∧ StreamTurn alone 0 .S task0 ∧
    (∀ c ∈ [(tileOf ended 0).vs, (tileOf ended 0).m, (tileOf ended 0).a], c.run = .idle ∨ c.run = .ended) ∧
    (∀ c ∈ [(tileOf alone 0).vs, (tileOf alone 0).m, (tileOf alone 0).a], c.run = .idle) ∧ (tileOf (tile .S) 0).vs.run = .running :=
  ⟨⟨rfl, rfl⟩, tile_turn .S, alone_turn, by decide +kernel⟩

/-- One store and one increment stand in the phase's buffer. -/
def buffered : State :=
  alone fun T => { T with stores := [{ dest := .ipa, addr := 0x80000, bytes := [{ off := 3, lo := true, hi := true, val := 9 }] }],
                          effects := [.incr 2 0x80040 1] }

theorem test_phase : ((ran (.phase 2) buffered).map fun t => (tileOf t 0).publishes.map fun p => (p.scope, p.stores.length, p.effects.length)) =
      some [(2, 1, 1)] ∧
    ((ran (.phase 2) buffered).map fun t => (tileOf t 0).stores.length + (tileOf t 0).effects.length) = some 0 ∧
    ((ran (.phase 2) buffered).map fun t => ((tileOf t 0).sWait, pcOf t)) = some (.publish, 0x10004) := by decide +kernel

theorem test_bar : (ran (.bar false 0) buffered).map (fun t => ((tileOf t 0).sWait, ((tileOf t 0).task.map Task.barGen))) = some (.bar 1, some 1) ∧
    (ran .taskEnd buffered).map (fun t => ((tileOf t 0).sWait, (tileOf t 0).publishes.length)) = some (.ended, 1) := by decide +kernel

theorem witness_PhaseAndBar : StreamTurn buffered 0 .S task0 ∧ (1 : Fin 4) ≠ 0 := ⟨⟨rfl, rfl⟩, by decide +kernel⟩

/-- A live-range table of one range at offset 8: 1 range, no blocks; 64 bytes from offset 0. -/
def tabled : State := alone fun T => { T with spad := mwrite [] 8 (leBytes 8 1 ++ leBytes 8 (64 * 2 ^ 21)) }

theorem clean (n : Word) (h : bfld n 63 43 = 0) : tableClean [1, n] :=
  ⟨by show bfld 1 63 40 = 0; decide +kernel, by show bfld 1 23 17 = 0; decide +kernel, by show bfld 1 15 6 = 0; decide +kernel,
    by simpa using h⟩

theorem fits (n : Word) (h : bfld n 42 21 ≤ 4096) : tableFits task0 [1, n] :=
  ⟨by show bfld 1 5 0 ≤ 32; decide +kernel, by simpa [task0] using h,
    by show ∀ c : Fin 16, (bfld 1 39 24).testBit c.val = true → _; decide +kernel⟩

/-- A range of the whole window fits, one byte more does not, and no more does a block that the task does not hold; a table
with bit 43 of a range set is not clean. -/
theorem witness_CheckpointBegins : StreamTurn tabled 0 .S task0 ∧ StreamTurn (tile .S) 0 .S task0 ∧
    (∃ c ∈ [(tileOf (tile .S) 0).vs, (tileOf (tile .S) 0).m, (tileOf (tile .S) 0).a], c.run ≠ .idle) ∧
    (¬ ∃ c ∈ [(tileOf tabled 0).vs, (tileOf tabled 0).m, (tileOf tabled 0).a], c.run ≠ .idle) ∧
    windowWord (tileOf tabled 0) 8 = 1 ∧ windowWord (tileOf tabled 0) 16 = 0x8000000 ∧
    (tableClean [1, 0x200000000] ∧ tableFits task0 [1, 0x200000000]) ∧
    (tableClean [1, 0x200200000] ∧ ¬ tableFits task0 [1, 0x200200000]) ∧ ¬ tableFits task0 [0x10000001] ∧
    ¬ tableClean [1, 0x80000000000] :=
  ⟨⟨rfl, rfl⟩, tile_turn .S, by decide +kernel, by decide +kernel, by decide +kernel, by decide +kernel,
    ⟨clean _ (by decide +kernel), fits _ (by decide +kernel)⟩,
    ⟨clean _ (by decide +kernel), fun h => absurd (h.2.1 0x200200000 (by simp)) (by decide +kernel)⟩,
    fun h => absurd (h.2.2 4 (by decide +kernel)) (by decide +kernel),
    fun h => absurd (h.2.2.2 0x80000000000 (by simp)) (by decide +kernel)⟩

theorem test_ckpt : (ran (.ckpt 5 8) tabled).map (fun t => ((tileOf t 0).sWait, (tileOf t 0).publishes.map Publish.why, pcOf t)) =
    some (.publish, [.ckpt [1, 64 * 2 ^ 21]], 0x10004) := by decide +kernel

/-! ### Pegs, waits and counters -/

def pegged : State := alone fun T => { T with pegs := vset T.pegs 3 2 }

theorem test_pegs : (ran (.pegp 3) pegged).map (fun t => vget (tileOf t 0).pegs 3) = some 3 ∧
    (ran (.pegw 2 3) pegged).map pcOf = some 0x10004 ∧ (ran (.pegw 9 3) pegged).map pcOf = some 0x10000 := by decide +kernel

/-- A launch command on A: class 0, loads (R337). -/
def busy : State :=
  alone fun T => { T with cmdsA := [{ id := 4, kind := .pref 0 64, acq := false, rel := false, scope := 0, cspec := 0, pc := 0, order := 4, issued := 0 }] }

theorem test_waits : (ran (.waitc 15 15 15 15) busy).map pcOf = some 0x10004 ∧ (ran (.waitc 0 0 0 0) alone).map pcOf = some 0x10004 ∧
    (ran (.waitc 0 0 0 0) busy).map pcOf = some 0x10000 ∧ (ran (.fence 1) guest).map pcOf = some 0x104 := by decide +kernel

/-- A WAITV block at offset 0: a time-out, and the counter at window offset 256 with a target, enabled by bit 0 (R328). -/
def waiting (timeout kind loc target : Nat) : State :=
  alone fun T => { T with spad := mwrite (mset [] 256 5) 0 (leBytes 8 timeout ++ leBytes 8 (loc + kind) ++ leBytes 8 target) }

theorem test_waitv : gives (.waitv 20 5 true 1) (waiting 9 1 256 5) 20 = some (1, 0x10004) ∧
    gives (.waitv 20 5 false 1) (waiting 0 1 256 6) 20 = some (0x100, 0x10004) ∧
    (ran (.waitv 20 5 true 1) (waiting 9 1 256 6)).map (fun t => ((tileOf t 0).sWait, pcOf t)) =
      some (.waitv 20 true 1 [{ bit := 0, isGlobal := false, loc := 256, target := 6 }] 9 0, 0x10000) := by decide +kernel

/-- A reserved time-out bit, KIND 0 and 3, KIND 2 beyond 2^56 and below it, and KIND 1. -/
theorem witness_WaitsAndFences : ScalarTurn guest ∧ StreamTurn pegged 0 .S task0 ∧ StreamTurn busy 0 .S task0 ∧
    StreamTurn (waiting 0 1 256 5) 0 .S task0 ∧ (1 : Fin 16).val ≠ 0 ∧
    (∀ e ∈ [(2 ^ 48, 1, 0, 0), (2 ^ 48 - 1, 0, 0, 0), (1, 3, 0, 0), (1, 2, 2 ^ 56, 0), (1, 2, 2 ^ 56 - 8, 0), (1, 1, 256, 5)],
      windowWord (tileOf (waiting e.1 e.2.1 e.2.2.1 e.2.2.2) 0) 0 = BitVec.ofNat 64 e.1 ∧
        windowWord (tileOf (waiting e.1 e.2.1 e.2.2.1 e.2.2.2) 0) 8 = BitVec.ofNat 64 (e.2.2.1 + e.2.1)) :=
  ⟨guest_scalar, ⟨rfl, rfl⟩, ⟨rfl, rfl⟩, ⟨rfl, rfl⟩, by decide +kernel⟩

/-- A tile that maps the first GiB, with x10 at an address. -/
def mapped (va : Word) (n : Nat) : State :=
  withReg (withMem (alone fun T => { T with effects := List.replicate n (.incr 2 0 0) }) tables) 10 va

theorem test_ctraddLocal : (ran (.ctraddLocal 5 2) guestBytes).map (fun t => mword (thrOf t 20).store 0) = some 0x8887868584838283 := by
  decide +kernel

theorem test_ctraddGlobal : (ran (.ctraddGlobal 10 2) (mapped 0x80000 0)).map (fun t => ((tileOf t 0).effects, pcOf t)) =
      some ([.incr 2 0x80000 2], 0x10004) := by
  decide +kernel

theorem test_ctraddGuest :
    (ran (.ctraddGlobal 10 2) (guestAt 0x80000)).map (fun t => mword t.mem 0x480000) = some 0x8887868584838283 := by decide +kernel

theorem snd_eq {α β : Type} {p : α × β} {b : β} (h : p.2 = b) : ∃ a, p = (a, b) := ⟨p.1, by rw [← h]⟩
theorem mapped_xlat : (tileXlat (mapped 0xFFFF8 255) 0 task0 0xFFFF8 .write).2 = .ok (0xFFFF8, 0x4FFFF8) := by decide +kernel
theorem guestAt_xlat : (threadXlat (guestAt 0) 20 0xFFFF8 .write).2 = .ok 0x4FFFF8 := by decide +kernel
theorem mapped_scalar (va : Word) (n : Nat) : ScalarTurn (mapped va n) := .inl ⟨0, wx_cur _ _ _⟩

theorem witness_CounterAdditions : ScalarTurn (mapped 0 0) ∧ ScalarTurn guest ∧ StreamTurn (mapped 0xFFFF8 255) 0 .S task0 ∧
    (∃ s1, tileXlat (mapped 0xFFFF8 255) 0 task0 0xFFFF8 .write = (s1, .ok (0xFFFF8, 0x4FFFF8))) ∧
    (∃ s1, threadXlat (guestAt 0) 20 0xFFFF8 .write = (s1, .ok 0x4FFFF8)) ∧
    (tileOf (mapped 0xFFFF8 255) 0).effects.length = 255 ∧ (tileOf (mapped 0xFFFF8 256) 0).effects.length = 256 ∧
    (guestAt 0xFFFF8).cur = .thread 20 ∧ (2 ^ 56 - 8 : Nat) % 8 = 0 ∧ windowCtr (windowed guest) 0x490018 = some (67, 0) ∧
    windowCtr guest 0x490018 = none :=
  ⟨mapped_scalar 0 0, guest_scalar, ⟨by decide +kernel, by decide +kernel⟩, snd_eq mapped_xlat, snd_eq guestAt_xlat,
    by decide +kernel⟩

/-! ### CSRs, traps and events -/

/-- R103 on a tile: TASKINFO-like words as the rule lays them out. -/
theorem test_csrTile : ∀ e ∈ [(0x001, (5 : Word)), (0x200, 0), (0x201, 5 * 2 ^ 24 + 4 * 2 ^ 16 + 1 * 2 ^ 8 + 2), (0x202, 0xF000C), (0x209, 0)],
    gives (.csrr 20 (BitVec.ofNat 12 e.1)) alone 20 = some (e.2, 0x10004) := by decide +kernel

/-- R103, R104 on threads: TID, VFINFO, TVEC, and what Guest level may not read or nobody has. -/
theorem test_csrThread : ∀ e ∈ [(0x001, (5 : Word)), (0x200, 0x8014), (0x201, 4 * 2 ^ 16 + 1 * 2 ^ 8 + 2)],
    gives (.csrr 20 (BitVec.ofNat 12 e.1)) guest 20 = some (e.2, 0x104) := by decide +kernel

theorem test_csrRefused : caught (.csrr 20 0x400) guest 20 = some ⟨2, 0xE0A00800, 0x100, 4, 1⟩ ∧
    caught (.csrr 20 0x123) guest 20 = some ⟨1, 0xE0A00246, 0x100, 4, 1⟩ ∧
    caught (.csrw 1 0x200) guest 20 = some ⟨1, 0xE2002400, 0x100, 4, 1⟩ := by decide +kernel

theorem witness_CsrWords : ScalarTurn alone ∧ ScalarTurn guest ∧ ScalarTurn steward ∧ ScalarTurn keeper ∧
    (tileOf alone 0).task.isSome ∧
    (∀ c ∈ [0x001, 0x002, 0x200, 0x201, 0x202, 0x203, 0x204, 0x205, 0x206, 0x207, 0x208, 0x209], (csrRule alone c).isSome) ∧
    (∀ c ∈ [0x001, 0x002, 0x200, 0x201, 0x206, 0x207, 0x208, 0x400, 0x401, 0x402, 0x403, 0x404, 0x405, 0x406, 0x407, 0x600, 0x601,
      0x800, 0x801, 0x802, 0x803, 0x804, 0x805, 0xA00], (csrRule guest c).isSome ∧ c ≠ 0x408) ∧
    csrRule alone 0x400 = none ∧ csrRule guest 0x202 = none ∧ levelInTurn guest = 0 ∧ levelInTurn steward = 1 ∧ levelInTurn keeper = 2 ∧
    (0x3FF : Nat) / 1024 = 0 ∧ (0x400 : Nat) / 1024 = 1 ∧
    (∀ i ∈ [Instr.csrw 1 0x404, .csrwC 1 0x402, .csrx 20 1 0x001, .csrxS 20 1 0x002], (csrWriteRule (rx steward) i).isSome) :=
  ⟨alone_scalar, guest_scalar, steward_scalar, keeper_scalar, by decide +kernel⟩

/-- R105: a write, a clear and a set of FPCR and FPSR, with the old value; R46: RM 6 leaves RM. -/
theorem test_csrWrite : (ran (.csrx 20 7 0x001) guest).map (fun t => (rx t 20, (thrOf t 20).fpcr)) = some (5, 0) ∧
    (ran (.csrxS 20 2 0x001) guest).map (fun t => (rx t 20, (thrOf t 20).fpcr)) = some (5, 5) ∧
    (ran (.csrwC 9 0x002) (guest fun h => { h with fpsr := 0x43 })).map (fun t => (thrOf t 20).fpsr) = some 2 ∧
    (ran (.csrw 6 0x404) steward).map (fun t => (thrOf t 16).steward.tvec) = some 0x1234 := by decide +kernel

/-- A write of VFCTL that names VF 2 with command 3 (UNFREEZE): rejected, since the VF is READY, and its counter advances. -/
theorem witness_CommandRegisters : steward.cur = .thread 16 ∧ keeper.cur = .thread 0 ∧ (0x405 : BitVec 12).toNat / 1024 ≤ (thrOf steward 16).level ∧
    (0x805 : BitVec 12).toNat / 1024 ≤ (thrOf keeper 0).level ∧ (vfctl steward 16 0x50302).isSome = true ∧
    (vfctl steward 16 0x00305).isSome = false ∧ (dbgctl steward 16 0x100).isSome = true ∧ (dbgctl steward 16 0x1FF).isSome = false := by decide +kernel

theorem test_vfctl : (ran (.csrw 10 0x405) (withReg steward 10 0x50302)).map (fun t => (tget 0 t.counters 69, bfld (thrOf t 16).vfstat 9 8)) =
    some (1, 1) := by decide +kernel

/-- R106, R115: TRAP from Guest level goes to the Steward level, TEPC at the next word, SW set. -/
theorem test_trap : caught (.trap 0x80) guest 20 = some ⟨0x80, 0xFFFFFFFFFFFFFFF9, 0x104, 0xC, 1⟩ ∧
    caught (.trap 0x13) steward 16 = some ⟨0x13, 0x100, 0x104, 0xD, 2⟩ ∧ caught (.trap 0x7F) guest 20 = some ⟨1, 0xE600007F, 0x100, 4, 1⟩ := by
  decide +kernel

def armed : State := setVf alone 2 { vf2 with breakpoints := some 17 }

theorem witness_TrapWord : ScalarTurn alone ∧ ScalarTurn guest ∧ ScalarTurn armed ∧
    ¬ ((0x13 : BitVec 8).toNat ≠ 0x13 ∧ (0x13 : BitVec 8).toNat < 0x80) ∧ ((0x7F : BitVec 8).toNat ≠ 0x13 ∧ (0x7F : BitVec 8).toNat < 0x80) ∧
    ¬ ((0x80 : BitVec 8).toNat < 0x80) ∧ ((tileOf armed 0).task.bind fun k => (vfOf armed k.vf).breakpoints) = some 17 ∧
    ((tileOf alone 0).task.bind fun k => (vfOf alone k.vf).breakpoints) = none :=
  ⟨alone_scalar, guest_scalar, .inl ⟨0, rfl⟩, by decide +kernel⟩

theorem test_breakpoint : (ran (.trap 0x13) armed).map (fun t => ((tileOf t 0).debug, pcOf t)) = some (.halting 17 0x13 0x10000, 0x10004) ∧
    (ran (.trap 0x80) alone).map (fun t => (t.gangs.length, (tfind t.entries 9).map JqEntry.state)) = some (0, some .faulted) := by decide +kernel

/-- A Guest, a Steward and a Keeper whose next level is free. -/
theorem witness_TrapEntry : (thrOf guest 20).level < 3 ∧ (thrOf guest 20).steward.tstat.toNat / 4 % 2 = 0 ∧ (thrOf steward 16).level < 3 ∧
    (thrOf steward 16).keeper.tstat.toNat / 4 % 2 = 0 ∧ (thrOf keeper 0).level = 2 ∧ (thrOf keeper 0).keeper.tstat.toNat / 4 % 2 = 0 := by
  decide +kernel

/-- A Guest that handles an event while its Steward level handles a trap. -/
def twice : State :=
  guest fun h =>
    { h with steward := { h.steward with tstat := 4 }
             evgetPc := some 0x40
             evgetReg := 9
             handler := some { summary := 3, record := [] } }

theorem witness_ThreadTraps : guest.cur = .thread 20 ∧ (0x01 : Nat) ≠ causeEcc ∧ (thrOf guest 20).level < 3 ∧
    (thrOf guest 20).steward.tstat.toNat / 4 % 2 = 0 ∧ (thrOf twice 20).handler.all (fun e => e.entry.isNone) = true ∧
    (thrOf twice 20).evgetPc = some 0x40 ∧ (thrOf twice 20).steward.tstat.toNat / 4 % 2 = 1 := by decide +kernel

/-- R116: parked at its EVGET, ACT clear, and the Steward thread 16 has the record with DOUBLE. -/
theorem test_double : (ran .sret twice).map (fun t => ((thrOf t 20).pc, (thrOf t 20).steward.tstat, (thrOf t 20).wait)) =
      some (0x40, 0, .evget 9) ∧
    (ran .sret twice).map (fun t => (thrOf t 16).queue.map fun e => bbit (e.record.getD 0 0) 20) = some [true] := by decide +kernel

def handling : State := steward fun h => { h with steward := { h.steward with tstat := 4, tepc := 0x200 } }

theorem test_sret : (ran .sret handling).map (fun t => ((thrOf t 16).level, (thrOf t 16).pc, (thrOf t 16).steward.tstat)) = some (0, 0x200, 0) ∧
    caught .sret guest 20 = some ⟨2, 0xE8000000, 0x100, 4, 1⟩ ∧ caught .sret steward 16 = some ⟨1, 0xE8000000, 0x100, 5, 2⟩ := by decide +kernel

theorem witness_ReturnFromTrap : alone.cur = .tile 0 .S ∧ guest.cur = .thread 20 ∧ (thrOf guest 20).level = 0 ∧ (thrOf steward 16).level ≠ 0 ∧
    (thrOf steward 16).steward.tstat.toNat / 4 % 2 = 0 ∧ (thrOf handling 16).steward.tstat.toNat / 4 % 2 = 1 := by decide +kernel

theorem witness_WrongIssuer : alone.cur = .tile 0 .S ∧ guest.cur = .thread 20 ∧ (tile .V).cur = .tile 0 .V ∧ (globalLoadRule (.ldB 1 2 3)).isSome ∧
    (globalStoreRule (.stD 1 2 3)).isSome ∧ encode (.vtrn 0 0 false) = some (.vector, 0x50000000) ∧ encode .dup = some (.engine, 0x0100) ∧
    encode (.add 0 0 0) = some (.scalar, 0) := by decide +kernel

theorem test_wrongIssuer : (ran .evdone alone).map (fun t => t.gangs.length) = some 0 ∧
    caught (.vidx 3 true) guest 20 = some ⟨1, 0x6E600001, 0x100, 4, 1⟩ ∧ caught .join guest 20 = some ⟨1, 0xA2000000, 0x100, 4, 1⟩ := by decide +kernel

/-! ### Queue words -/

/-- x10 holds a handle of class 5 (slot 8, generation 1, all rights), x11 an offset in the core-local store. -/
def handler (n : ThreadId) (l : Nat) (ws : List Word) : State :=
  withReg (withReg (thread n l fun h => storePutWords h 64 ws) 10 0x100007008) 11 64

theorem test_jqput : (ran (.jqput 20 10 11) (handler 20 0 [7, 0, 1, 2])).map (fun t => (rx t 20, t.reserved, t.arrivals.length)) = some (0, [2], 1) ∧
    (ran (.jqput 20 10 11) (withMem (withReg (withReg alone 10 0x100007008) 11 64) [])).map (fun t => (rx t 20, (tileOf t 0).effects.length)) = some (0, 1) ∧
    caught (.jqput 20 10 11) (handler 20 0 [7, 0x10, 1, 2]) 20 = some ⟨0xB, 0x100007008, 0x100, 4, 1⟩ := by decide +kernel

/-- The quota of 4 and 8 is used up by reservations. -/
def spent : State := { handler 20 0 [7, 0] with reserved := List.replicate 11 2 }

theorem witness_QueuePuts : ScalarTurn guest ∧ ScalarTurn alone ∧ putterOf (handler 20 0 []) = some (1, some 2) ∧
    putterOf (thread 0 2) = none ∧ (checkHandle guest 1 (some 2) 0x100007008 1).isSome = true ∧ checkHandle guest 1 (some 2) 0x200007008 1 = none ∧
    checkHandle guest 1 (some 3) 0x100007008 1 = none ∧ (reserve guest 2).isSome = true ∧ (reserve spent 2).isSome = false ∧
    (tileOf (mapped 0 256) 0).effects.length = 256 := ⟨guest_scalar, alone_scalar, by decide +kernel⟩

/-- A handle that serves, a slot that nothing has used, and each arm of the quota: a guaranteed unit, a pool unit, none. -/
theorem witness_HandlesAndQuotas :
    ((checkHandle guest 1 (some 2) 0x100007008 1).map fun l => (l.cls, l.rights, l.vf)) = some (5, 7, 2) ∧
    tfind (partOf guest 1).handles 9 = none ∧ usageRule guest 2 = 1 ∧ (vfOf guest 2).jqGuar = 4 ∧ (vfOf guest 2).jqBurst = 8 ∧
    (usageRule { guest with reserved := List.replicate 3 2 } 2 = 4 ∧ poolRule { guest with reserved := List.replicate 3 2 } 1 = 60) ∧
    usageRule spent 2 = 12 := by decide +kernel

theorem test_quota : gives (.jqput 20 10 11) spent 20 = some (6, 0x104) := by decide +kernel

/-- A put of thread 20 waits at the port. -/
def put20 : Put := { part := 1, handle := 0x100007008, cls := 5, desc := [7, 0, 6, 0], unitVf := 2, putter := some 2 }
/-- The port is in a cycle's select phase, or its match phase is past. -/
def inSelect (s : State) : State := { s with selected := true }

def unsettled : State :=
  { handler 20 0 [] with arrivals := [({ cycle := 0, rank := 2, source := 20, order := 0, work := .put put20 } : Arrival)] }

theorem witness_QueueControlChecks : (∀ i ∈ [Instr.jqctlClassget 20 10 11, .jqctlFreeze 20 10 11, .jqctlThaw 20 10 11, .jqctlTake 20 10 11,
      .jqctlSteal 20 10 11], (jqctlRule i).isSome) ∧ alone.cur = .tile 0 .S ∧ unsettled.cur = .thread 20 ∧ threadPutsDone unsettled 20 = false ∧
    threadPutsDone guest 20 = true ∧ putterOf guest = some (1, some 2) ∧ checkHandle guest 1 (some 2) (rx guest 10) 2 = none ∧
    checkHandle guest 1 (some 2) (rx guest 10) 4 = none := by decide +kernel

theorem test_freeze : (ran (.jqctlFreeze 20 10 11) (handler 20 0 [])).map (fun t => (rx t 20, classFrozen t 1 5)) = some (0, true) ∧
    (ran (.jqctlClassget 20 10 2) (handler 20 0 [])).map (fun t => rx t 20) = some 0 ∧
    (ran (.jqctlClassget 20 10 12) (withReg (handler 20 0 []) 12 0x20001)).map (fun t => rx t 20) = some 0x100001000 := by decide +kernel

theorem jqReady {s : State} {n : ThreadId} {ph : PortPhase} (h : threadPutsDone s n = true ∧ (thrOf s n).dealt = none)
    (h1 : ph ≠ .inSelect → s.selected = false) (h2 : ph = .inSelect → s.selected = true) : JqReady s n ph :=
  ⟨h.1, h1, h2, fun c hc => by simp [h.2] at hc⟩

/-- The port has dealt with thread 20 in the cycle before, or in this one. -/
def dealtIn (c : Nat) : State := { handler 20 0 [] with portCycle := 3, threads := (setThr (handler 20 0 []) 20 { thrOf (handler 20 0 []) 20 with dealt := some c }).threads }

/-- A request that acts in each phase, and one that waits for a put, for its phase, and for the next port cycle. -/
theorem witness_JqReady : JqReady (handler 20 0 []) 20 .afterMatch ∧ JqReady (inSelect (handler 20 0 [])) 20 .inSelect ∧
    JqReady (handler 20 0 []) 20 .beforeSelect ∧ JqReady (dealtIn 1) 20 .afterMatch ∧ ¬ JqReady unsettled 20 .afterMatch ∧
    ¬ JqReady (handler 20 0 []) 20 .inSelect ∧ ¬ JqReady (dealtIn 2) 20 .afterMatch :=
  ⟨jqReady (by decide +kernel) (fun _ => rfl) (by simp), jqReady (by decide +kernel) (by simp) (fun _ => rfl),
    jqReady (by decide +kernel) (fun _ => rfl) (by simp),
    ⟨by decide +kernel, fun _ => rfl, by simp, fun c hc => by
      have : (thrOf (dealtIn 1) 20).dealt = some 1 := by decide +kernel
      rw [this] at hc; cases hc; decide +kernel⟩,
    fun h => absurd h.1 (by decide +kernel), fun h => absurd (h.2.2.1 rfl) (by decide +kernel),
    fun h => absurd (h.2.2.2 2 (by decide +kernel)) (by decide +kernel)⟩

/-- The entry of key 7 in a state. -/
def entryIn (st : EntryState) (s : State) : State := { s with entries := [(9, { entry9 with state := st, payload := 5, prio := 3 })] }

theorem test_thaw : (ran (.jqctlThaw 20 10 5) (entryIn .faulted (handler 20 0 []))).map (fun t => (rx t 20, t.entries.length)) = some (1, 0) ∧
    (ran (.jqctlThaw 20 10 9) (entryIn .faulted (handler 20 0 []))).map (fun t => (rx t 20, t.arrivals.length)) = some (1, 1) := by decide +kernel

theorem test_take : (ran (.jqctlTake 20 10 11) (inSelect (entryIn .ready (handler 20 0 [])))).map (fun t => (rx t 20, t.entries.length, storeWords (thrOf t 20) 64 3)) =
      some (0, 0, [7, 0x100000302, 5]) ∧
    gives (.jqctlTake 20 10 11) (inSelect (handler 20 0 [])) 20 = some (1, 0x104) := by decide +kernel

theorem test_steal : (ran (.jqctlSteal 20 10 11) (inSelect (entryIn .waiting (handler 20 0 [7])))).map (fun t => (rx t 20, t.entries.length)) = some (0, 0) ∧
    gives (.jqctlSteal 20 10 11) (inSelect (entryIn .waiting (handler 20 0 [8]))) 20 = some (1, 0x104) := by decide +kernel

theorem test_query : gives (.jqctlQuery 20 10 12) (withReg (entryIn .waiting (handler 20 0 [])) 12 7) 20 = some (0x100000301, 0x104) ∧
    gives (.jqctlQuery 20 10 12) (withReg (withReg (entryIn .waiting alone) 12 8) 10 0x100007008) 20 = some (0, 0x10004) := by decide +kernel

theorem witness_QueueControl : (handler 20 0 []).cur = .thread 20 ∧ threadPutsDone (handler 20 0 []) 20 = true ∧
    putterOf (handler 20 0 []) = some (1, some 2) ∧ rx (handler 20 0 []) 10 = 0x100007008 ∧
    (checkHandle (handler 20 0 []) 1 (some 2) 0x100007008 2).isSome = true ∧ (checkHandle (handler 20 0 []) 1 (some 2) 0x100007008 4).isSome = true ∧
    (checkHandle (handler 20 0 []) 1 (some 2) 0x100007008 7).isSome = true ∧ issuerPutsDone guest = true ∧ issuerPutsDone alone = true ∧
    (7 : Nat) &&& (2 % 8) ≠ 0 ∧ (7 : Nat) &&& (8 % 8) = 0 := by decide +kernel

/-- A class record: one tile, VF 2, ASID 4, operator 4, entry 0x20000, windows of 2^13 bytes, blocks 0 to 3. -/
def classRecord (op : Nat) : List Word :=
  [BitVec.ofNat 64 (4 * 2 ^ 56 + 2 * 2 ^ 48 + op), 0x20000, BitVec.ofNat 64 (15 * 2 ^ 8 + 13), 0x700000000, 0, 0, 0, 0]

theorem test_classset : (ran (.jqctlClassset 20 12 11) (withReg { handler 16 1 (classRecord 4) with entries := [] } 12 5)).map (fun t =>
      (rx t 20, (tfind (partOf t 1).classes 5).map fun r => (r.entry, r.wlog2))) = some (0x100007000, some (0x20000, 13)) ∧
    gives (.jqctlClassset 20 12 11) (withReg (handler 16 1 (classRecord 4)) 12 5) 20 = some (0, 0x104) ∧
    caught (.jqctlClassset 20 12 11) (withReg (handler 16 1 (classRecord 16)) 12 5) 16 = some ⟨0xB, 5, 0x100, 5, 2⟩ := by decide +kernel

def emptied : State := { handler 16 1 (classRecord 4) with entries := [] }

theorem notRefused : ¬ RecordRefused emptied 1 none 5 (classRecord 4) := by
  simp only [RecordRefused]
  have hn : bfld (recw (classRecord 4) 0) 19 16 = 0 := by decide +kernel
  rintro (h | h | h | h | h | h | h | h | ⟨i, hi, h⟩ | h | h | h | h | ⟨i, h, -⟩ | h | ⟨i, h, -⟩ | h | ⟨x, h, -⟩ | h | ⟨h, -⟩ | ⟨e, h, -⟩ | h)
  all_goals first
    | omega
    | cases h; done
    | exact absurd (h 0 (by decide)) (by decide +kernel)
    | exact absurd h (by decide +kernel)
    | interval_cases i <;> exact absurd h (by decide +kernel)

/-- CLASSSET of a fresh class's record is accepted where the class has no entry; a record with a reserved bit is refused. -/
theorem witness_ClassSetCompletes : JqReady (withReg emptied 12 5) 16 .afterMatch ∧
    ¬ RecordRefused emptied 1 none 5 (classRecord 4) ∧ RecordRefused emptied 1 none 5 (classRecord (2 ^ 55 + 4)) ∧
    localRecord (handler 16 1 (classRecord 4)) 64 8 = classRecord 4 := by
  exact ⟨jqReady (by decide +kernel) (fun _ => rfl) (by simp), notRefused, .inl (by decide +kernel), by decide +kernel⟩

theorem witness_QueueClassSet : alone.cur = .tile 0 .S ∧ guest.cur = .thread 20 ∧ threadPutsDone guest 20 = true ∧ threadPutsDone steward 16 = true ∧
    threadPutsDone keeper 0 = true ∧ putterOf keeper = none ∧ putterOf steward = some (1, none) ∧
    (tfind (partOf guest 1).classes 5).map JqClass.vf = some 2 ∧ (tfind (partOf guest 1).classes 6).map JqClass.vf ≠ some 2 ∧
    bfld (recw (classRecord 15) 0) 4 0 = 15 ∧ bfld (recw (classRecord 16) 0) 4 0 = 16 ∧ classRefused { steward with entries := [] } 1 none 5 (classRecord 4) = false ∧
    classRefused steward 1 none 5 (classRecord 4) = true := by decide +kernel

/-! ### SEND, events, bookings, TLBI and segments -/

/-- A descriptor of five words at offset 64, with its data at 128: here a timer request of 9 ticks with cookie 3 (R402, R404). -/
def sender (n : ThreadId) (l : Nat) (h : Word) (w : List Word) : State :=
  withReg (withReg (thread n l fun h => storePutWords (storePutWords h 64 w) 128 [9, 3]) 10 h) 11 64

theorem test_sendTimer : (ran (.send 20 10 11) (sender 20 0 6 [0, 0, 16, 128, 0])).map (fun t => (rx t 20, t.timers.map fun x => (x.2.left, x.2.cookie))) =
      some (0, [(9, 3)]) ∧
    gives (.send 20 10 11) (sender 20 0 6 [0, 0, 4097, 128, 0]) 20 = some (1, 0x104) ∧
    gives (.send 20 10 11) (sender 20 0 6 [0, 0, 8, 128, 0]) 20 = some (1, 0x104) ∧
    gives (.send 20 10 11) (sender 20 0 0x8 [0, 0, 16, 128, 0]) 20 = some (1, 0x104) := by decide +kernel

/-- Endpoint slot 9 of partition 1: valid, Ethernet, generation 1, VF 2. -/
def endpointed (s : State) : State :=
  modPart s 1 fun q => { q with endpoints := tset 0 q.endpoints 36 0x180010002 }

/-- A Guest thread of no VF, and one whose data lie in a held segment. -/
def vfless : State := setVf guest 2 { vf2 with gtCount := 0 }

theorem witness_SendWaits : noVfGuest vfless = true ∧ noVfGuest guest = false ∧ noVfGuest steward = false ∧
    sdWaits (held guest) [0, 0, 0x2000000000000010, 0x80000, 0] = true ∧ sdWaits guest [0, 0, 16, 0, 0] = false := by decide +kernel

theorem witness_Sends : ScalarTurn guest ∧ ScalarTurn alone ∧ sdInRange guest [0, 0, 4097, 0, 0] = false ∧ sdInRange guest [0, 0, 4096, 0, 0] = true ∧
    sdDataOk guest [0, 0, 0, 0, 0] = true ∧ (7 : Word).toNat < 8 ∧ ¬ (8 : Word).toNat < 8 ∧ issuerPart guest = some 1 ∧ issuerPart keeper = none ∧
    endpointOk (endpointed guest) 1 (some 2) 0x100000009 = true ∧ endpointOk (endpointed guest) 1 (some 2) 0x200000009 = false ∧
    (tileOf (mapped 0 255) 0).effects.length = 255 := ⟨guest_scalar, alone_scalar, by decide +kernel⟩

def event : Event := { summary := 0x402, record := [0xA, 0xB] }
def eventful (f : Thread → Thread := id) : State := guest fun h => f { h with queue := [event] }

theorem test_evget : (ran (.evget 20) eventful).map (fun t => (rx t 20, storeWords (thrOf t 20) 0 2, (thrOf t 20).queue.length, pcOf t)) =
      some (0x402, [0xA, 0xB], 0, 0x104) ∧
    (ran (.evget 20) guest).map (fun t => ((thrOf t 20).wait, pcOf t)) = some (.evget 20, 0x100) ∧
    (ran .evdone (eventful fun h => { h with handler := some event })).map (fun t => ((thrOf t 20).handler.isSome, pcOf t)) = some (false, 0x104) := by
  decide +kernel

/-- With an event, without one, and with one that a FROZEN VF holds back. -/
theorem witness_EventWords : eventful.cur = .thread 20 ∧ (thrOf eventful 20).queue = [event] ∧ (thrOf guest 20).queue = [] ∧
    eventsHeld eventful 20 = false ∧ eventsHeld (setVf eventful 2 { vf2 with state := 3 }) 20 = true := by decide +kernel

/-- A record: armed, threshold 5, counter 1, VF 2, no action and no placement (R396). -/
def booked (arm : Nat) : List Word := [BitVec.ofNat 64 (arm * 2 ^ 63 + 2 * 2 ^ 16 + 1), 0, 0, 5, 0, 0, 0] ++ List.replicate 11 0

theorem test_bkarm : (ran (.bkarm 20 2 11) (withReg (thread 20 0 fun h => storePutWords h 64 (booked 1)) 11 64)).map (fun t =>
      (rx t 20, t.bookings.map fun b => (b.1, b.2.threshold, b.2.ctr))) = some (0, [(66, 5, 65)]) ∧
    (ran (.bkarm 20 2 11) (withReg (thread 20 0 fun h => storePutWords h 64 (booked 0)) 11 64)).map (fun t => rx t 20) = some 2 ∧
    caught (.bkarm 20 9 11) (withReg (thread 20 0 fun h => storePutWords h 64 (booked 1)) 11 64) 20 = some ⟨2, 0xC8A12580, 0x100, 4, 1⟩ := by
  decide +kernel

theorem witness_BookingWord : guest.cur = .thread 20 ∧ steward.cur = .thread 16 ∧ bookOfVf vf2 3 = true ∧ bookOfVf vf2 4 = false ∧
    bookNumberOk guest (some 1) 31 = true ∧ bookNumberOk guest (some 1) 32 = false ∧ bkArm (booked 1) = true ∧ bkArm (booked 0) = false ∧
    bkAccepted guest (some 1) (some 2) 3 (booked 1) = true ∧ bkAccepted guest (some 1) (some 2) 4 (booked 1) = false := by decide +kernel

theorem test_tlbi : (ran (.tlbiVa 6 12) (withReg guest 12 5)).map (fun t => ((thrOf t 20).wait, pcOf t)) = some (.tlbi 0 0x1234 5, 0x104) ∧
    (ran (.tlbiAsid 12) (withReg guest 12 4)).map (fun t => (thrOf t 20).wait) = some (.tlbi 1 0 4) ∧
    (ran .tlbiAll steward).map (fun t => (thrOf t 16).wait) = some (.tlbi 2 0 0) ∧
    caught (.tlbiAsid 12) (withReg guest 12 6) 20 = some ⟨2, 0xEA000601, 0x100, 4, 1⟩ := by decide +kernel

theorem test_segment : (ran (.seghold 2) steward).map (fun t => ((vfOf t 2).segHeld, (thrOf t 16).wait)) = some (true, .seghold 2) ∧
    (ran (.segrel 12) (withReg (held steward) 12 0x600002)).map (fun t => ((vfOf t 2).segHeld, (vfOf t 2).segBase)) = some (false, 0x600000) ∧
    caught (.segrel 12) (withReg (held steward) 12 0x4200002) 16 = some ⟨9, 0x4200000, 0x100, 5, 2⟩ ∧
    caught (.seghold 2) guest 20 = some ⟨2, 0xEC004000, 0x100, 4, 1⟩ := by decide +kernel

/-- ASIDs 4 and 5 are VF 2's, 6 is nobody's; a segment's last place in the carve-out, and one beyond it. -/
theorem witness_TranslationWords : guest.cur = .thread 20 ∧ steward.cur = .thread 16 ∧ mayNameAsid guest 20 4 = true ∧ mayNameAsid guest 20 5 = true ∧
    mayNameAsid guest 20 6 = false ∧ mayNameAsid guest 20 3 = false ∧ (thrOf steward 16).level ≠ 0 ∧ partOfThread steward 16 = some 1 ∧
    partOfVf steward 2 = some 1 ∧ partOfVf steward 4 = none ∧ (0x4000000 : Nat) + 0x100000 ≤ 0x200000 + 0x4000000 ∧
    ¬ ((0x4200000 : Nat) + 0x100000 ≤ 0x200000 + 0x4000000) := by decide +kernel


/-! ### V words -/

/-- An image whose lanes (0, 0), (0, 1) and (1, 0) are given; the others are 0. -/
def img (a b c : Lane) : Image := vset (vset (vset (Vector.replicate 1024 0) 0 a) 1 b) 64 c

/-- v0 has lanes 1.0, all ones and 5; v1 has 3.0, 1 and 7; k1 is 8, k2 is -1. -/
def vec (f : Tile → Tile := id) : State :=
  tile .V fun T => f { T with v := vset (vset T.v 0 (img 0x3F800000 0xFFFFFFFF 5)) 1 (img 0x40400000 1 7)
                              k := vset (vset T.k 1 8) 2 0xFFFFFFFF }

/-- The three lanes of v3 after a word. -/
def lanes (i : Instr) (s : State) : Option (Lane × Lane × Lane) :=
  (ran i s).map fun t =>
    let v := vget (tileOf t 0).v 3
    (vget v 0, vget v 1, vget v 64)

def lane0 (i : Instr) : Option Lane := (lanes i vec).map Prod.fst

/-- R175, R177 to R179: integers; the third lane is 5 against 7. -/
theorem test_vectorIntegers : ∀ e ∈ [(Instr.vadd 3 0 1 5 0 false false false, ((0x7FC00000 : Lane), (0 : Lane), (12 : Lane))),
    (.vsub 3 0 1 5 0 false false false, (0xFF400000, 0xFFFFFFFE, 0xFFFFFFFE)), (.vmul 3 0 1 5 0 false false false, (0, 0xFFFFFFFF, 35)),
    (.vmin 3 0 1 5 false, (0x3F800000, 0xFFFFFFFF, 5)), (.vmax 3 0 1 5 false, (0x40400000, 1, 7)),
    (.vabs 3 0 5 false false, (0x3F800000, 1, 5)), (.vneg 3 0 5 false false, (0xC0800000, 1, 0xFFFFFFFB)),
    (.vcmp 3 0 1 5 2 false false, (0xFFFFFFFF, 0xFFFFFFFF, 0xFFFFFFFF)), (.vcmp 3 0 1 5 2 false true, (0xFFFFFFFF, 0, 0xFFFFFFFF)),
    (.vand 3 0 1 5 false, (0, 1, 5)), (.vor 3 0 1 5 false, (0x7FC00000, 0xFFFFFFFF, 7)), (.vxor 3 0 1 5 false, (0x7FC00000, 0xFFFFFFFE, 2)),
    (.vshl 3 0 1 5 false, (0x3F800000, 0xFFFFFFFE, 640)), (.vshr 3 0 1 5 false, (0x3F800000, 0x7FFFFFFF, 0)),
    (.vsar 3 0 1 5 false, (0x3F800000, 0xFFFFFFFF, 0)), (.vsel 3 0 1 5 false, (0x40400000, 1, 7))],
    lanes e.1 vec = some e.2 := by decide +kernel

/-- R177, R181 to R188, with 1.0 and 3.0 in FP32, rounded to nearest. -/
theorem test_vectorFloats : ∀ e ∈ [(Instr.vadd 3 0 1 0 0 false false false, (0x40800000 : Lane)), (.vsub 3 0 1 0 0 false false false, 0xC0000000),
    (.vmul 3 0 1 0 0 false false false, 0x40400000), (.vdiv 3 0 1 0 0 false false false, 0x3EAAAAAB),
    (.vsqrt 3 1 0 0 false false false, 0x3FDDB3D7), (.vfma 3 0 1 0 0 false false false, 0x40400000),
    (.vfms 3 0 1 0 0 false false false, 0xC0400000), (.vminn 3 0 1 0 false, 0x3F800000), (.vmaxn 3 0 1 0 false, 0x40400000),
    (.vcvt 3 0 0 0 false false 5, 1), (.vclass 3 0 0 false, 6), (.vrcp 3 0 0 0 false false false, 0x3F800000),
    (.vpack 3 1 1 0 0 false false 1, 0x00004040), (.vredr 3 0 5 0 false false 0, 0x3F7FFFFF), (.vredc 3 0 5 0 false false 0, 0x3F800005)],
    lane0 e.1 = some e.2 := by decide +kernel

/-- R183, R184, of 1.0: 2, 0, 1, tanh 1 and erf 1, rounded to nearest. -/
theorem test_functions : ∀ e ∈ [(Instr.vexp2 3 0 0 0 false false false, (0x40000000 : Lane)), (.vlog2 3 0 0 0 false false false, 0),
    (.vrsq 3 0 0 0 false false false, 0x3F800000), (.vtanh 3 0 0 0 false false false, 0x3F42F7D6), (.verf 3 0 0 0 false false false, 0x3F57BB3D)],
    lane0 e.1 = some e.2 := by decide +kernel

/-- R185, R186, R189, R191 to R194, R201: lanes move, within rows, columns and blocks. -/
theorem test_moves : ∀ e ∈ [(Instr.vrotr 3 0 false 1, ((0xFFFFFFFF : Lane), (0 : Lane), (0 : Lane))), (.vbcr 3 0 false 0, (0x3F800000, 0x3F800000, 5)),
    (.vrotc 3 0 false 1, (5, 0, 0)), (.vbcc 3 0 false 1, (5, 0, 5)), (.vtrn 3 0 false, (0x3F800000, 5, 0xFFFFFFFF)),
    (.vcompr 3 0 1 false, (0x3F800000, 0xFFFFFFFF, 5)), (.vmov 3 1 false, (0x40400000, 1, 7)), (.vidx 3 false, (0, 0, 1)),
    (.vidx 3 true, (0, 1, 0)), (.vunpk 3 0 1 false 0, (0, 0x3F800000, 0)), (.vselk 3 0 0 5 1, (0, 1, 1))],
    lanes e.1 vec = some e.2 := by decide +kernel

/-- A window whose word at offset 8 is 0x44434241 and at 20 is 9; block 3 of the accumulators, with 6 in row 8. -/
def stored : State :=
  vec fun T => { T with spad := mset (mwrite [] 8 [0x41, 0x42, 0x43, 0x44]) 20 9
                        acc := vset T.acc 3 (vset (Vector.replicate 8192 0) (8 * 128) 6) }

theorem test_vectorMemory : lanes (.vlds 3 1) stored = some (0x44434241, 0, 0) ∧ lanes (.vaccr 3 3 1) stored = some (6, 0, 0) ∧
    (ran (.vsts 0 1) stored).map (fun t => ((List.range 4).map fun j => mget (tileOf t 0).spad (8 + j))) = some [0, 0, 0x80, 0x3F] := by
  decide +kernel

theorem test_vaccw :
    (ran (.vaccw 0 2 7) stored).map (fun t => vget (vget (tileOf t 0).acc 2) (56 * 128 + 1)) = some 0xFFFFFFFF := by decide +kernel

/-- Operand v2 has lane 0 at 3 and the others at 0: lane 0 moves at offset 8 + 12. -/
theorem test_gatherScatter :
    lanes (.vldx 3 2 1) (vec fun T => { T with v := vset T.v 2 (img 3 0 0), spad := mset [] 20 9 }) = some (9, 0, 0) ∧
    (ran (.vstx 1 2 1) (vec fun T => { T with v := vset T.v 2 (img 3 0 0) })).map
      (fun t => (mget (tileOf t 0).spad 23, mget (tileOf t 0).spad 8)) = some (0x40, 0) := by decide +kernel

/-- A V stream whose queue 1 holds `n` elements, in the format `f`. -/
def popping (n : Nat) (f : Word) : State :=
  vec fun T => { T with queues := vset T.queues 1 { inb := List.replicate n (0x40400000, 0), fmt := f } }

theorem test_vpop : lanes (.vpop 3 1) (popping 1025 0) = some (0x40400000, 0x40400000, 0x40400000) ∧
    (ran (.vpop 3 1) (popping 1025 0)).map (fun t => (queueOf (tileOf t 0) 1).inb.length) = some 1 ∧
    (ran (.vpop 3 1) (popping 1023 0)).map (fun t => (pcOf t, (queueOf (tileOf t 0) 1).waits.map Prod.fst)) = some (0x10100, [.V]) ∧
    (ran (.vpush 0 1) (popping 0 0)).map (fun t => ((queueOf (tileOf t 0) 1).outb.take 2, (queueOf (tileOf t 0) 1).outb.length)) =
      some ([0x3F800000, 0xFFFFFFFF], 1024) := by decide +kernel

/-- R169, R170: a result enters the bypass window, and NW leaves the register. -/
theorem test_bypass : (ran (.vmov 0 1 true) vec).map (fun t => ((tileOf t 0).bypass.map fun v => vget v 0, vget (vget (tileOf t 0).v 0) 0)) =
    some ([0x40400000], 0x3F800000) := by decide +kernel

theorem vec_turn (f : Tile → Tile) (h : ∀ T, T.task = some task0 → (f T).task = some task0) : StreamTurn (vec f) 0 .V task0 :=
  ⟨rfl, by show (tileOf (setTile _ _ _) 0).task = _; simp only [tileOf, setTile, vget_vset]; exact h _ rfl⟩

/-- Queues that no S pop waits at and that hold what a word pops. -/
def fedNow (T : Tile) (qs : List (Fin 4)) : Bool :=
  qs.all fun q => (queueOf T q).waits.head?.all (fun w => decide (w.1 = .V)) &&
    decide (qs.count q * (32768 / fmtBits ((queueOf T q).fmt.toNat / 16 % 16)) ≤ (queueOf T q).inb.length)

theorem fedNow_fed {T : Tile} {qs : List (Fin 4)} (h : fedNow T qs = true) : Fed T qs := by
  intro q hq
  simp only [fedNow, List.all_eq_true, Bool.and_eq_true, decide_eq_true_eq] at h
  refine ⟨fun w hw => ?_, (h q hq).2⟩
  simpa [hw] using (h q hq).1

/-- A well-formed word whose operands are in place is ready. -/
def readyNow (s : State) (i : Instr) (w : Option Nat) (cs : List VOpnd) : Bool :=
  wellFormed i && cs.all (fun c => !deadBypass (tileOf s 0) c) && (badSink (tileOf s 0) w cs).isNone && fedNow (tileOf s 0) (cs.filterMap queueCode)

theorem readyNow_ready {s : State} {i : Instr} {w : Option Nat} {cs : List VOpnd} (h : readyNow s i w cs = true) :
    vReady (tileOf s 0) i w cs := by
  simp only [readyNow, Bool.and_eq_true, List.all_eq_true, Bool.not_eq_true', Option.isNone_iff_eq_none] at h
  exact ⟨h.1.1.1, h.1.1.2, h.1.2, fedNow_fed h.2⟩

/-- One queue and a bypass slot stand among the operands. -/
def fed : State := popping 1024 0

def resultWords : List Instr :=
  [.vadd 3 0 17 0 5 false true false, .vsub 0 0 1 6 0 false true true, .vmul 0 0 1 7 0 false false false, .vfma 3 0 1 1 4 false false false,
   .vfms 3 0 1 0 0 false false false, .vdiv 3 0 1 0 0 false false false, .vsqrt 3 17 0 0 false false false, .vmin 3 0 1 7 false,
   .vmax 3 0 1 0 false, .vminn 3 0 1 0 false, .vmaxn 3 0 1 2 false, .vabs 3 0 5 true false, .vneg 0 0 3 false true,
   .vcmp 3 0 1 0 3 false false, .vsel 3 0 1 5 false, .vand 3 0 1 5 false, .vor 3 0 1 6 false, .vxor 3 0 1 7 false, .vshl 3 0 1 5 false,
   .vshr 3 0 1 6 false, .vsar 3 0 1 7 false, .vcvt 3 0 0 0 false false 5, .vclass 3 0 1 false, .vexp2 3 0 0 0 false false false,
   .vlog2 3 0 1 0 false false false, .vrcp 3 0 2 0 false false false, .vrsq 3 0 1 0 false false false, .vtanh 3 0 0 0 false true false,
   .verf 3 0 0 5 false false false, .vredr 3 17 5 0 false false 0, .vredc 3 0 0 0 false false 3, .vpack 3 0 1 0 0 false false 1,
   .vpack 3 4 6 0 0 false true 3, .vunpk 3 0 1 true 0]

theorem witness_VectorResults : StreamTurn fed 0 .V task0 ∧
    ∀ i ∈ resultWords, ∃ r, resultRule i = some r ∧ vReady (tileOf fed 0) i (some r.srcWidth) r.cs := by
  have h : ∀ i ∈ resultWords, ((resultRule i).map fun r => readyNow fed i (some r.srcWidth) r.cs) = some true := by decide +kernel
  refine ⟨vec_turn _ fun _ h => h, fun i hi => ?_⟩
  obtain ⟨r, hr, hb⟩ := Option.map_eq_some_iff.mp (h i hi)
  exact ⟨r, hr, readyNow_ready hb⟩

def laneWords : List Instr :=
  [.vrotr 3 0 false 63, .vbcr 3 17 false 0, .vrotc 0 0 true 15, .vbcc 3 0 false 15, .vtrn 0 0 false, .vcompr 3 0 1 false, .vmov 15 17 false,
   .vpop 3 1, .vidx 3 true, .vlds 3 7, .vldx 3 1 2, .vaccr 3 3 7]

/-- Every word that moves lanes, with block 3 held and block 4 not. -/
theorem witness_VectorMoves : StreamTurn fed 0 .V task0 ∧ task0.acc.getLsbD 3 = true ∧ task0.acc.getLsbD 4 = false ∧
    ∀ i ∈ laneWords, ∃ cs d nw f, laneRule i = some (cs, d, nw, f) ∧ vReady (tileOf fed 0) i none cs := by
  have h : ∀ i ∈ laneWords, ((laneRule i).map fun r => readyNow fed i none r.1) = some true := by decide +kernel
  refine ⟨vec_turn _ fun _ h => h, by decide +kernel, by decide +kernel, fun i hi => ?_⟩
  obtain ⟨r, hr, hb⟩ := Option.map_eq_some_iff.mp (h i hi)
  exact ⟨r.1, r.2.1, r.2.2.1, r.2.2.2, hr, readyNow_ready hb⟩

/-- Stores of a register and of a queue's elements, a push with room and without, and blocks held and not. -/
theorem witness_VectorStores : StreamTurn fed 0 .V task0 ∧ vReady (tileOf fed 0) (.vsts 17 7) none [17] ∧
    vReady (tileOf fed 0) (.vstx 0 1 1) none [0, 1] ∧ vReady (tileOf fed 0) (.vpush 17 1) none [17] ∧ vReady (tileOf fed 0) (.vaccw 0 3 7) none [0] ∧
    task0.acc.getLsbD 3 = true ∧ task0.acc.getLsbD 4 = false ∧ deadBypass (tileOf fed 0) 0 = false ∧
    qPopOk (queueOf (tileOf (popping 0 0x50) 0) 1).fmt = false ∧
    (queueOf (tileOf fed 0) 1).outb.length * fmtBits ((queueOf (tileOf fed 0) 1).fmt.toNat / 16 % 16) + 32768 ≤ 65536 :=
  ⟨vec_turn _ fun _ h => h, readyNow_ready (by decide +kernel), readyNow_ready (by decide +kernel), readyNow_ready (by decide +kernel),
    readyNow_ready (by decide +kernel), by decide +kernel⟩

theorem witness_VectorSelect : StreamTurn vec 0 .V task0 ∧ wellFormed (.vselk 3 0 0 5 1) = true ∧ wellFormed (.vselk 12 0 7 0 15) = true :=
  ⟨vec_turn _ fun _ h => h, by decide +kernel⟩

/-- A word that reads a dead bypass slot, a queue whose format serves no pop, and a queue that holds too little. -/
theorem unfed : ¬ Fed (tileOf (popping 1023 0) 0) [1] := fun h => absurd (h 1 (List.mem_singleton.mpr rfl)).2 (by decide +kernel)

theorem witness_VectorIssue : StreamTurn vec 0 .V task0 ∧ StreamTurn (popping 1023 0) 0 .V task0 ∧
    operandRule (.vmov 3 20 false) = some (none, [20]) ∧ deadBypass (tileOf vec 0) 20 = true ∧
    ((operandRule (.vadd 3 0 1 5 6 false false false)).isSome ∧ wellFormed (.vadd 3 0 1 5 6 false false false) = false) ∧
    ((operandRule (.vadd 3 0 17 0 0 false false false)).map fun r => r.2.filterMap queueCode) = some [1] ∧
    qPopOk (queueOf (tileOf (popping 1023 0x50) 0) 1).fmt = false ∧
    (qPopOk (queueOf (tileOf (popping 1023 0) 0) 1).fmt = true ∧ snkBits (queueOf (tileOf (popping 1023 0) 0) 1).fmt = 32) ∧
    wellFormed (.vadd 3 0 17 0 0 false false false) = true ∧ ¬ Fed (tileOf (popping 1023 0) 0) [1] :=
  ⟨vec_turn _ fun _ h => h, vec_turn _ fun _ h => h, by decide +kernel, by decide +kernel, by decide +kernel, by decide +kernel,
    by decide +kernel, by decide +kernel, by decide +kernel, unfed⟩

/-! ### V control -/

/-- In a loop over the two words from 0x10100, with `c` rounds left. -/
def looping (pc : Word) (c : Lane) : State :=
  vec fun T => { T with vloops := [{ first := 0x10100, last := 0x10104, count := c }], vs := { T.vs with pc := pc } }

/-- R202 to R204: the last word of a body goes back while the count says so; VLOOP opens a loop or jumps; KBR leaves one. -/
theorem test_vectorControl :
    (ran (.kli 1 0x1FFFFF) vec).map (fun t => vget (tileOf t 0).k 1) = some 0xFFFFFFFF ∧
    (ran (.kadd 3 1 0xFFFF) vec).map (fun t => vget (tileOf t 0).k 3) = some 7 ∧
    (ran (.kbr 2 2 0xFFFF) vec).map pcOf = some 0x100FC ∧ (ran (.kbr 3 2 4) vec).map pcOf = some 0x10104 ∧
    (ran (.vidx 3 true) (looping 0x10104 2)).map (fun t => (pcOf t, (tileOf t 0).vloops.map VLoop.count)) = some (0x10100, [1]) ∧
    (ran (.vidx 3 true) (looping 0x10104 1)).map (fun t => (pcOf t, (tileOf t 0).vloops.length)) = some (0x10108, 0) ∧
    (ran (.vloop 1 2) vec).map (fun t => (pcOf t, (tileOf t 0).vloops.map VLoop.last)) = some (0x10104, [0x1010C]) ∧
    (ran (.vloop 2 2) vec).map (fun t => (pcOf t, (tileOf t 0).vloops.length)) = some (0x10110, 0) ∧
    (ran (.kbr 1 0 8) (looping 0x10100 2)).map (fun t => (pcOf t, (tileOf t 0).vloops.length)) = some (0x10120, 0) ∧
    (ran (.vEnd 0 0) vec).map (fun t => (tileOf t 0).vs.run) = some .ending := by decide +kernel

/-- Tests that hold and fail at 0, a third loop, one that reaches beyond the outer body's last word, and one that ends there. -/
theorem witness_VectorControl : StreamTurn vec 0 .V task0 ∧ StreamTurn (looping 0x10104 2) 0 .V task0 ∧ StreamTurn (looping 0x10100 1) 0 .V task0 ∧
    (∀ l ∈ (tileOf vec 0).vloops, l.last ≠ (tileOf vec 0).vs.pc) ∧
    (tileOf (looping 0x10104 2) 0).vloops = [{ first := 0x10100, last := 0x10104, count := 2 }] ∧ (tileOf (looping 0x10104 2) 0).vs.pc = 0x10104 ∧
    (vget (tileOf vec 0).k 0).toInt = 0 ∧ (vget (tileOf vec 0).k 2).toInt = -1 ∧ (vget (tileOf vec 0).k 1).toInt = 8 ∧
    ((tileOf (looping 0x10100 1) 0).vloops.head?.any fun l => decide (l.last.toNat < (0x10108 : Nat))) = true ∧
    ((tileOf (looping 0x10100 1) 0).vloops.head?.any fun l => decide (l.last.toNat < (0x10104 : Nat))) = false :=
  ⟨vec_turn _ fun _ h => h, vec_turn _ fun _ h => h, vec_turn _ fun _ h => h, by decide +kernel⟩

/-! ### Engine words and commands -/

/-- Words of 8 bytes at window offsets. -/
def words (m : Memory) (es : List (Nat × Nat)) : Memory := es.foldl (fun m e => mwrite m e.1 (leBytes 8 e.2)) m

/-- At 32 a frame record (R238): FP32, rank 2, 8 by 4 elements of a tensor at 0, a 2 by 2 window that lands at 512; at 192
an A record of 2 by 3 and at 224 a B record of 3 by 2 (R211), in INT8 from 1024 and 1056; at 256 a nest record over the
frame (R254), two iterations of dimension 1 by 2; at 352 the frame again with rank 1; at 480 the value 2. -/
def records : Memory :=
  words (words (words (words [] [(40, 0x20), (48, 4 * 2 ^ 24 + 8), (64, 32), (112, 2 + 2 * 2 ^ 12), (120, 512 * 2 ^ 32)])
    [(192, 6 * 2 ^ 21 + 1024), (200, 16 * 2 ^ 32 + 3 * 2 ^ 16 + 2), (224, 6 * 2 ^ 21 + 1056), (232, 16 * 2 ^ 32 + 2 * 2 ^ 16 + 3)])
    ([(256, 32), (264, 1), (272, 2 ^ 24 + 2)] ++ [280, 288, 296, 304, 312].map fun o => (o, 7 * 2 ^ 24)))
    [(360, 0x10), (368, 8), (432, 2), (440, 512 * 2 ^ 32)]

/-- A stream in turn with a stack, top first, over those records; entry 0 of the address groups names VF 2 of this device. -/
def eng (st : Stream) (ws : List Word) (f : Tile → Tile := id) : State :=
  withMem (tile st fun T => f (modStrm { T with spad := records } st fun c => { c with stack := ws, l0 := 2, l1 := 1 }))
    (words tables [(0x220000, 2 ^ 63), (0x220008, 2 * 2 ^ 12)])

theorem eng_turn (st : Stream) (ws : List Word) (f : Tile → Tile) (h : ∀ T, T.task = some task0 → (f T).task = some task0)
    (hs : st = .M ∨ st = .A) : StreamTurn (eng st ws f) 0 st task0 := by
  refine ⟨rfl, ?_⟩
  show (tileOf (setTile _ _ _) 0).task = _
  simp only [tileOf, setTile, vget_vset]
  exact h _ (by rcases hs with rfl | rfl <;> rfl)

/-- A stream's stack and the pc after a word. -/
def after (i : Instr) (s : State) : Option (List Word × Word) :=
  match s.cur with
  | .tile t st => (ran i s).map fun u => ((strm (tileOf u t) st).stack, pcOf u)
  | _ => none

/-- R74, R229: the stack words on 7 above 3; SUB takes the top from the entry below it. -/
theorem test_stack : ∀ e ∈ [(Instr.lit 0x7FFF, ([0xFFFFFFFFFFFFFFFF, 7, 3] : List Word)), (.litx 5, [7 * 2 ^ 14 + 5, 3]), (.dup, [7, 7, 3]),
    (.drop, [3]), (.swap, [3, 7]), (.over, [3, 7, 3]), (.engineAdd, [10]), (.engineSub, [0xFFFFFFFFFFFFFFFC]), (.engineDo true, [3])],
    after e.1 (eng .A [7, 3]) = some (e.2, 0x10302) := by decide +kernel

/-- A stack that is empty or holds 8 entries: the task is gone, with its cause. -/
theorem test_stackTrap : ∀ e ∈ [(Instr.dup, ([] : List Word)), (.lit 1, List.replicate 8 0), (.engineBz 1, []), (.enginePegw 1, [])],
    (ran e.1 (eng .M e.2)).map (fun t => t.gangs.length) = some 0 := by decide +kernel

/-- R229: LOOP goes back while the counter is above 0; branches count 2-byte words from their own. -/
theorem test_engineBranch : ∀ e ∈ [(Instr.engineLoop false 3, (0x102FA : Word)), (.engineLoop true 3, 0x10302), (.engineBr 0xFF, 0x102FE),
    (.engineBz 4, 0x10308), (.enginePegw 1, 0x10302), (.engineWaitc 0 0, 0x10302), (.engineFence 3, 0x10302)],
    (after e.1 (eng .A [0])).map Prod.snd = some e.2 := by decide +kernel

/-- A peg that is short, and commands that have not completed: the word waits. -/
theorem test_engineWaits : (after (.enginePegw 1) (eng .A [1])).map Prod.snd = some 0x10300 ∧
    (after (.engineFence 0) (eng .A [] fun T => { T with cmdsA := [{ id := 4, kind := .pref 0 64, acq := false, rel := false, scope := 0, cspec := 0, pc := 0, order := 4, issued := 0 }] })).map
      Prod.snd = some 0x10300 ∧
    (ran .engineEnd (eng .M [])).map (fun t => (tileOf t 0).m.run) = some .ending := by decide +kernel

def pending (k : CmdKind) : Cmd := { id := 4, kind := k, acq := false, rel := false, scope := 0, cspec := 0, pc := 0, order := 4, issued := 0 }

/-- Both outcomes of each clause: short and full after, counters above and at 0, a top entry of 0 and another, pegs and
queues that hold the word and that let it go. -/
theorem witness_EngineWords : StreamTurn (eng .M []) 0 .M task0 ∧ StreamTurn (eng .A [0, 3]) 0 .A task0 ∧
    StreamTurn (eng .A [] fun T => { T with cmdsA := [pending (.pref 0 64)] }) 0 .A task0 ∧
    (∀ i ∈ [Instr.lit 0, .litx 0, .dup, .drop, .swap, .over, .engineAdd, .engineSub], (stackRule i).isSome) ∧
    (strm (tileOf (eng .M []) 0) .M).stack = [] ∧ (strm (tileOf (eng .A [0, 3]) 0) .A).stack = [0, 3] ∧
    (strm (tileOf (eng .M []) 0) .M).l0 = 2 ∧ (strm (tileOf (eng .M []) 0) .M).l1 = 1 ∧
    (vget (tileOf (eng .A [0, 3]) 0).pegs 15).toNat = 0 ∧ cmdClass (.pref 0 64) = 0 :=
  ⟨eng_turn _ _ _ (fun _ h => h) (.inl rfl), eng_turn _ _ _ (fun _ h => h) (.inr rfl), eng_turn _ _ _ (fun _ h => h) (.inr rfl),
    by decide +kernel⟩

/-- A launch word, its stack, and the engine that takes it. -/
def launches : List (Stream × Instr × List Word) :=
  [(.M, .mma false false 0 false, [3, 224, 192]), (.M, .accz true true 1, [0xF]), (.M, .accdrain false false 0, [1]), (.M, .scaleset true, [2]),
   (.M, .enginePegp 15, []), (.M, .engineCtraddLocal false false 0, [1, 8]), (.A, .engineCtraddGlobal false true 3, [1, 8]),
   (.A, .copyin false false 0 true, [0, 63]), (.A, .copyout false true 2 false, [1, 32]), (.A, .nest false false 0 false, [0, 256]),
   (.A, .gath false false 0 false, [0, 64, 32]), (.A, .scat false false 0 true, [2, 64, 32]), (.A, .qstream true false 0 3, [0, 0, 32]),
   (.A, .qdrain false false 0 0, [0, 32]), (.A, .mlr false false 0 true, [0, 2 ^ 32 + 2 ^ 21 + 8, 2, 256]), (.A, .mst false false 0, [0, 2 ^ 32 + 8, 1, 0]),
   (.A, .pref false false 0, [64, 0])]

/-- What a launch word's rule says of a stack: how many entries it pops, and the cause that its checks raise. -/
def launchCheck (i : Instr) (ws : List Word) : Option (Nat × Nat) :=
  (launchRule (eng .A ws) (tileOf (eng .A ws) 0) task0 ws i).map fun r =>
    (r.2.1, match r.2.2.2.2.2 with | .ok _ => 0 | .error e => e.1)

/-- Every launch word passes its checks on one stack; checks that fail; a queue that is full; the other engine's word. -/
theorem witness_CommandLaunches :
    (∀ e ∈ launches, wellFormed e.2.1 = true ∧ launchCheck e.2.1 e.2.2 = some (e.2.2.length, 0)) ∧
    (∀ e ∈ [(Instr.mma false false 0 false, [(4 : Word), 224, 192], causePrivilege), (.mma false false 0 false, [3, 192, 192], causeShape),
      (.gath false false 0 false, [0, 64, 352], causeInvalid), (.engineCtraddGlobal false false 0, [1, 4], causeMisaligned),
      (.copyin false false 0 false, [3, 32], causeInvalid), (.mlr false false 0 false, [0, 0, 0, 1], causeInvalid)],
      launchCheck e.1 e.2.1 = some (e.2.1.length, e.2.2)) ∧
    StreamTurn (eng .M [3, 224, 192]) 0 .M task0 ∧ StreamTurn (eng .A [3, 224, 192]) 0 .A task0 ∧
    StreamTurn (eng .M [1] fun T => { T with cmdsM := List.replicate 4 (pending (.accz 1)) }) 0 .M task0 :=
  ⟨by decide +kernel, by decide +kernel, eng_turn _ _ _ (fun _ h => h) (.inl rfl), eng_turn _ _ _ (fun _ h => h) (.inr rfl),
    eng_turn _ _ _ (fun _ h => h) (.inl rfl)⟩

/-- Each launch puts its command last into its queue and pops its entries. -/
theorem test_launch : ∀ e ∈ launches, (ran e.2.1 (eng e.1 (e.2.2 ++ [99]))).map (fun t =>
      ((strm (tileOf t 0) e.1).stack, (if e.1 = .M then (tileOf t 0).cmdsM else (tileOf t 0).cmdsA).length)) = some ([99], 1) := by decide +kernel

/-! ### What commands do -/

/-- One command in a queue of tile 0, and another behind it. -/
def running (onM : Bool) (k : CmdKind) (f : Tile → Tile := id) : State :=
  eng .M [] fun T => f (withCmds T onM fun _ => [pending k, { pending (.pegp 1) with id := 5, order := 5 }])

/-- R220, R221: ((1, 2, 3), (-1, 0, 4)) by ((1, 0), (2, 1), (0, -1)). -/
def matrices : Memory :=
  mwrite (mwrite (mwrite (mwrite (mwrite records 1024 [1, 2, 3]) 1040 [0xFF, 0, 4]) 1056 [1, 0]) 1072 [2, 1]) 1088 [0, 0xFF]

def int8 (off rows cols : Nat) : Shape :=
  { off := off, fmt := 6, interleave := 0, xormask := 0, transpose := false, rows := rows, cols := cols, stride := 16, live := rows,
    scaled := false, scaleFmt := 0, blockLog2 := 0, scaleOff := 0 }

/-- R33, R221: the sums 5, -1, -1, -4 by hand. -/
theorem test_mma : (ran (.commandCompletion 0 true 4) (running true (.mma (int8 1024 2 3) (int8 1056 3 2) 3 false) fun T => { T with spad := matrices })).map
    (fun t => ([0, 1, 128, 129, 2].map fun p => vget (vget (tileOf t 0).acc 3) (Fin.ofNat 8192 p), (tileOf t 0).cmdsM.map Cmd.id)) =
      some ([5, 0xFFFFFFFF, 0xFFFFFFFF, 0xFFFFFFFC, 0], [5]) := by decide +kernel

theorem test_commands :
    (ran (.commandCompletion 0 true 4) (running true (.scaleset true 7))).map (fun t => ((tileOf t 0).ssa, (tileOf t 0).ssb)) = some (0x3F800000, 7) ∧
    (ran (.commandCompletion 0 false 4) (running false (.pegp 3))).map (fun t => vget (tileOf t 0).pegs 3) = some 1 ∧
    (ran (.commandCompletion 0 false 4) (running false (.ctradd false 264 5))).map (fun t => mword (tileOf t 0).spad 264) = some 6 ∧
    (ran (.commandCompletion 0 true 4) (running true (.accz 2) fun T => { T with acc := vset T.acc 1 (Vector.replicate 8192 9) })).map
      (fun t => vget (vget (tileOf t 0).acc 1) 5) = some 0 ∧
    (ran (.commandCompletion 0 true 4) (running true (.accdrain 2))).map (fun t => (tileOf t 0).cmdsM.length) = some 1 := by decide +kernel

/-- One command of each kind, first in its queue. -/
theorem witness_CommandEffects : (∀ e ∈ [(true, CmdKind.accz 3), (true, .accdrain 1), (true, .scaleset false 0), (false, .pegp 15),
      (true, .ctradd false 264 5), (true, .mma (int8 1024 64 33) (int8 1056 33 128) 15 false)],
      let T := tileOf (running e.1 e.2) 0
      T.task = some task0 ∧ T.debug = .none ∧ (if e.1 then T.cmdsM else T.cmdsA).map Cmd.id = [4, 5]) ∧
    (pending (.accz 3)).landed = false ∧ (pending (.accz 3)).rel = false ∧ (pending (.accz 3)).cspec = 0 ∧
    (int8 1024 2 3).fmt = 6 ∧ (int8 1024 64 33).lrows = 64 ∧ (int8 1056 33 128).lcols = 128 := by decide +kernel

/-- A 2 by 2 window of FP32 at 0x80000 and 0x80020 that lands at 512. -/
def copied : Frame :=
  { off := 32, base := 0x80000, fmt := 0, rank := 2, transpose := false, fill := 0, interleave := 0, xormask := 0, dest := 512,
    fillbits := 0, sizes := [8, 4], strides := [32], origins := [0, 0], extents := [2, 2],
    dyn := none, clamped := false }

/-- A command in the A queue, over memory that holds 1, 2 and 3 at VA 0x80000, 0x80004 and 0x80020. -/
def copying (k : CmdKind) : State :=
  withMem (running false k fun T => { T with cmdsA := T.cmdsA.take 1 }) (words tables [(0x480000, 2 * 2 ^ 32 + 1), (0x480020, 3)])

/-- The same with the page in the tile's TLB. -/
def hitting (k : CmdKind) : State :=
  modTile (copying k) 0 fun T => { T with tlb := [{ asid := 4, base := 0, size := 2 ^ 30, r := true, w := true, x := true, ipa := 0 }] }

/-- R253: COPYIN lands its window's elements in walk order; COPYOUT buffers a store of each. -/
theorem test_copy : (ran (.commandCompletion 0 false 4) (copying (.copyin copied false))).map
      (fun t => ([512, 516, 520, 524].map fun o => leNat (mread (tileOf t 0).spad o 4), (tileOf t 0).cmdsA.length)) = some ([1, 2, 3, 0], 0) := by
  decide +kernel

theorem test_copyout :
    (ran (.commandCompletion 0 false 4) (copying (.copyout copied false))).map
      (fun t => ((tileOf t 0).stores.map fun g => (g.addr, g.bytes.length))) = some [(0x80000, 16)] := by decide +kernel

/-- The frame in INT8: one byte an element. -/
def copied8 : Frame := { copied with fmt := 6 }

theorem copied_shape : FrameShape copied ∧ FrameShape copied8 := by unfold FrameShape; decide +kernel

/-- A position in bounds, one beyond an index list's entry, and one beyond a dynamic count. -/
theorem witness_WindowPlaces : FrameShape copied ∧ (∀ i, i < copied.rank → ([1, 1] : List Nat).getD i 0 < copied.extents.getD i 0) ∧
    InBounds {} copied none [1, 1] ∧ ¬ InBounds { spad := mwrite [] 0 [9] } copied (some 0) [1, 0] ∧
    ¬ InBounds {} { copied with dyn := some 1 } none [1, 1] :=
  ⟨copied_shape.1, by decide +kernel, ⟨by decide +kernel, fun n h => by cases h⟩, fun h => absurd (h.1 1 (by decide)) (by decide +kernel),
    fun h => absurd (h.2 1 rfl) (by decide +kernel)⟩

/-- The one byte of an element at 0x80000 translates in the TLB. -/
theorem translates_hit (k : CmdKind) (r : Right) :
    Translates (hitting k) 0 task0 4 r 1 0x80000 (fun _ => 0x80000) (fun _ => 0x480000) := by
  rintro u ⟨cs, gs, qs, rfl⟩ i hi
  match i, hi with
  | 0, _ => cases r <;> rfl

theorem isCmd_hit (k : CmdKind) : IsCmd (tileOf (hitting k) 0) (pending k) :=
  ⟨List.mem_singleton.mpr rfl, fun _ hd _ => List.mem_singleton.mp hd⟩

/-- Loads of an element from memory and from the fill, a store, a QSTREAM with room and without, and a QDRAIN with an element and
without. -/
theorem witness_ElementMoves :
    (∀ k ∈ [CmdKind.copyin copied8 false, .copyout copied8 false], let s := hitting k
      (tileOf s 0).task = some task0 ∧ s.olds = [] ∧ s.marks = [] ∧ (walkOf k 0).isSome ∧ usesWindow k = true ∧ (tileOf s 0).stores.length + 1 ≤ 8192 ∧
        sourceOf (viewTile (tileOf s 0) (pending k)) copied8 none 0 = .mem 0x80000 false ∧
        placeOf (viewTile (tileOf s 0) (pending k)) copied8 none 0 = some (0x80000, false) ∧ badIn s 0x480000 1 = none) ∧
    sourceOf {} { copied8 with dyn := some 0 } none 0 = .bits 0 ∧ placeOf {} { copied8 with dyn := some 0 } none 0 = none ∧
    (fmtBits ((queueOf (tileOf (hitting (.pegp 0)) 0) 1).fmt.toNat / 16 % 16) = 32 ∧ (queueOf (tileOf (hitting (.pegp 0)) 0) 1).inb = [] ∧
      65536 < (2048 + 1) * 32) ∧
    ((queueOf (tileOf (hitting (.pegp 0)) 0) 1).outb = [] ∧ (pending (.pegp 0)).pos < windowCount copied8) := by
  refine ⟨?_, ?_, ?_, ?_, ?_⟩ <;> decide +kernel

theorem witness_bufferClean (k : CmdKind) : BufferClean (tileOf (hitting k) 0) := fun _ h => absurd h (List.not_mem_nil)

/-- A group whose member serves, and one with a member more, whose record has a reserved bit set. -/
def grouped (k : CmdKind) (more : Bool) : State :=
  let s := running false k
  { s with mem := if more then words s.mem [(0x220010, 2 ^ 63 + 2 ^ 48)] else s.mem }

theorem witness_GroupMoves :
    (∀ k ∈ [CmdKind.mlr 0 0 (2 ^ 32 + 8) false, .mst 0 0 (2 ^ 32)], (tileOf (grouped k false) 0).cmdsA.map (fun c => (c.id, c.landed, c.members.isNone, c.pend.length)) =
      [(4, false, true, 0), (5, false, true, 0)] ∧
      (groupAnswers (grouped k false) (membersOf (grouped k false) 1 0) 0 4).map Prod.snd = [.serves] ∧
      (groupAnswers (grouped k true) (membersOf (grouped k true) 1 0) 0 4).map Prod.snd = [.serves, .absent] ∧
      groupBad (grouped k false) (membersOf (grouped k false) 1 0) 0 4 = none) ∧
    bfld (2 ^ 32 + 8 : Word) 47 32 = 1 := by
  refine ⟨fun k hk => ?_, by decide⟩
  rcases List.mem_pair.mp hk with rfl | rfl <;> refine ⟨?_, ?_, ?_, ?_⟩ <;> decide +kernel

/-! ### Gangs -/

/-- The base state with a gang of its own. -/
def withGang (g : Gang) (s : State := base) : State := { s with gangs := [(1, g)] }

/-- A placed gang on tiles 0 and 5, for its first start. -/
def placed2 : Gang := { gang1 with state := .placed, size := 2, tiles := [0, 5], runs := 0, args := [7, 8] }

def emptyCkpt : Checkpoint :=
  { x := regs, pc := 0x10040, fpcr := 5, fpsr := [0, 0, 0, 0], gens := [{}, {}, {}, {}], pegs := Vector.replicate 16 1, qfmt := [0, 0, 0, 0],
    barGen := 3, bytes := [(4097, 9)], acc := [], v := none, k := none, start := false }

/-- A first start, and a restart whose checkpoints are a later one and a start checkpoint. -/
theorem witness_GangStarts : gangOf (withGang placed2) 1 = some placed2 ∧ placed2.state = .placed ∧ placed2.ckpts = [] ∧ placed2.argAddr = none ∧
    placed2.onTile = none ∧ placed2.tiles.Nodup ∧ placed2.args.length ≤ 2 ^ placed2.log2 ∧
    (let g : Gang := { placed2 with ckpts := [emptyCkpt, { emptyCkpt with start := true }] }
     gangOf (withGang g) 1 = some g ∧ g.ckpts ≠ [] ∧ g.tiles.length = g.ckpts.length) := by decide +kernel

/-- R129 to R131: the second member's registers, pc and window; x7 is its rank and x8 the size. -/
theorem test_gangStart : (ran (.gangStart 1) (withGang placed2)).map (fun t =>
      ([2, 5, 7, 8, 9, 11].map fun r => vget (tileOf t 5).x r, (tileOf t 5).s.pc, mget (tileOf t 5).spad 1)) =
    some ([11, 7, 1, 2, 1, 0], 0x10000, 8) := by decide +kernel

theorem test_restart : (ran (.gangStart 1) (withGang { placed2 with runs := 4, ckpts := [emptyCkpt, { emptyCkpt with start := true }] })).map (fun t =>
      ([(0 : TileId), 5].map fun n => (vget (tileOf t n).x 9, (tileOf t n).s.pc, mget (tileOf t n).spad 1))) =
    some [(0x41, 0x10040, 9), (5, 0x10040, 9)] := by decide +kernel

/-- A running gang on tile 0, after a change of the gang and of the tile. -/
def onTile0 (g : Gang → Gang) (f : Tile → Tile) : State := withGang (g gang1) (alone f)

def endedTask : State := onTile0 id fun T => { T with task := some { task0 with hasEnded := true }, sWait := .ended }
def atCkpt (preq : Bool) : State := onTile0 (fun g => { g with preq := preq }) fun T => { T with sWait := .saved emptyCkpt }
def atBarrier : State := onTile0 id fun T => { T with sWait := .bar 1 }
def preempted : State := onTile0 (fun g => { g with preq := true, preqTicks := 10000 }) id

def msg (w0 w1 w2 w3 w4 : Word) : Msg := { w0 := w0, w1 := w1, w2 := w2, w3 := w3, w4 := w4, w5 := 0, w6 := 0, w7 := 0 }

/-- PREEMPT (1) and WITHDRAW (2) of tile 0, of VF 2 and of class 5 (R309). -/
def preemptMsgs (c : Nat) : List Msg := [(0, 0), (1, 2), (2, 5)].map fun e => msg (BitVec.ofNat 64 (e.2 * 2 ^ 32 + e.1 * 16 + c)) 0 0 0 0

theorem witness_GangEvents :
    (gangOf endedTask 1 = some gang1 ∧ gang1.state = .running ∧ gang1.chunk = none ∧ ∀ t ∈ gang1.tiles, memberDone endedTask t = true) ∧
    gangOf (withGang { gang1 with state := .aborting }) 1 = some { gang1 with state := .aborting } ∧
    ((∀ t ∈ gang1.tiles, (ckptReady (atCkpt false) t).isSome = true) ∧ (∀ t ∈ gang1.tiles, (ckptReady (atCkpt true) t).isSome = true) ∧
      gangOf (atCkpt true) 1 = some { gang1 with preq := true }) ∧
    (∀ t ∈ gang1.tiles, barReady atBarrier t = true) ∧
    (gangOf preempted 1 = some { gang1 with preq := true, preqTicks := 10000 } ∧
      ∀ t ∈ gang1.tiles, (tileOf preempted t).task.all fun k => !k.irrevocable) ∧
    partOfThread preempted 16 = some 1 ∧ isStewardOf preempted 1 16 = true ∧
    (∀ c ∈ [1, 2], ∀ m ∈ preemptMsgs c, bfld m.w0 2 0 = c ∧ bfld m.w0 31 6 = 0 ∧ bbit m.w0 3 = false ∧ bfld m.w0 5 4 ≠ 3 ∧
      preemptTarget preempted 1 (bfld m.w0 5 4) (bfld m.w0 63 32) = true ∧ inScope 1 (bfld m.w0 5 4) (bfld m.w0 63 32) gang1 = true) := by
  refine ⟨?_, ?_, ?_, ?_, ?_, ?_, ?_, ?_⟩ <;> decide +kernel

theorem test_gangEvents :
    (ran (.gangComplete 1) endedTask).map (fun t => (t.gangs.length, t.entries.length, (tileOf t 0).task.isNone)) = some (0, 0, true) ∧
    (ran (.discardComplete 1) (withGang { gang1 with state := .aborting })).map (fun t => t.gangs.map fun g => g.2.state) = some [.queued] ∧
    (ran (.checkpointCommit 1) (atCkpt false)).map (fun t => (t.gangs.map fun g => g.2.ckpts.map Checkpoint.pc, (tileOf t 0).sWait)) =
      some ([[0x10040]], .none) ∧
    (ran (.checkpointCommit 1) (atCkpt true)).map (fun t => (t.gangs.map fun g => g.2.state, (tileOf t 0).task.isNone)) = some ([.queued], true) ∧
    (ran (.barComplete 1) atBarrier).map (fun t => (tileOf t 0).sWait) = some .none ∧
    (ran (.preemptFallback 1) preempted).map (fun t => t.gangs.map fun g => g.2.state) = some [.aborting] ∧
    (∀ m ∈ preemptMsgs 1, (ran (.preempt 16 m) atBarrier).map (fun t => (tileOf t 0).task.map Task.preq) = some (some true)) ∧
    (∀ m ∈ preemptMsgs 2, (ran (.withdraw 16 m) preempted).map (fun t => t.gangs.map fun g => g.2.preq) = some [false]) := by decide +kernel

/-! ### Streams, publishes and waits -/

/-- A publish of the task's gang and run, with one store of a byte 9 at IPA 0x80003 and one increment. -/
def publish (why : PublishFor) : Publish :=
  { why := why, num := 0, vf := 2, gang := 1, runs := 1, scope := 2,
    stores := [{ dest := .ipa, addr := 0x80000, bytes := [{ off := 3, lo := true, hi := true, val := 9 }] }], effects := [] }

def publishing (why : PublishFor) : State := onTile0 id fun T => { T with sWait := .publish, publishes := [publish why], pubs := 1 }

/-- A NEST over the 2 by 2 window, two iterations, whose first has moved its elements; it posts peg 3. -/
def nesting : State :=
  running false (.nest copied [2 ^ 31 + 3 * 2 ^ 27, 1, 7 * 2 ^ 24, 7 * 2 ^ 24, 7 * 2 ^ 24, 7 * 2 ^ 24, 7 * 2 ^ 24, 7 * 2 ^ 24] false) fun T =>
    { T with cmdsA := T.cmdsA.map fun c => { c with pos := 4 } }

/-- A WAITV on the counter at 256, which holds 5. -/
def waitsFor (target ticks : Nat) : State :=
  onTile0 id fun T => { T with spad := mset [] 256 5, sWait := .waitv 20 true 1 [{ bit := 0, isGlobal := false, loc := 256, target := BitVec.ofNat 64 target }] 100 ticks }

def retrying : State :=
  running false (.mst 0 0 (2 ^ 32)) fun T => { T with cmdsA := T.cmdsA.map fun c => { c with started := true, retryTicks := some 10000 } }

theorem witness_StreamEvents :
    ((strm (tileOf (tile .V fun T => { T with vs := { T.vs with run := .ending } }) 0) .V).run = .ending ∧
      (strm (tileOf (eng .A [] fun T => { T with a := { T.a with run := .ending } }) 0) .A).run = .ending ∧
      (tileOf (eng .A [] fun T => { T with a := { T.a with run := .ending } }) 0).cmdsA = []) ∧
    (∀ w ∈ [PublishFor.phase, .bar, .taskEnd, .ckpt [0]], (tileOf (publishing w) 0).publishes = [publish w] ∧
      (∀ g ∈ (publish w).stores, granuleAnswer (publishing w) 2 g = .serves) ∧ (tileOf (publishing w) 0).task = some task0 ∧
      (gangOf (publishing w) 1).elim 0 Gang.runs = 1) ∧
    ((tileOf nesting 0).cmdsA.map (fun c => (c.id, c.iter, c.pos, nestWaits (tileOf nesting 0) c)) = [(4, 0, 4, false), (5, 0, 4, false)] ∧
      windowCount copied = 4 ∧ (tileOf nesting 0).cmdsA.map (fun c => iterations c.kind) = [2, 1]) ∧
    (∀ e ∈ [(5, 0), (6, 0), (6, 99), (6, 100)], (tileOf (waitsFor e.1 e.2) 0).task = some task0 ∧ (tileOf (waitsFor e.1 e.2) 0).debug = .none ∧
      (tileOf (waitsFor e.1 e.2) 0).sWait =
        .waitv 20 true 1 [{ bit := 0, isGlobal := false, loc := 256, target := BitVec.ofNat 64 e.1 }] 100 e.2) ∧
    (findCmd (tileOf retrying 0) false 4).map (fun c => (c.started, c.retryTicks)) = some (true, some 10000) := by decide +kernel

theorem test_streamEvents :
    (ran (.streamEnd 0 .V) (tile .V fun T => { T with vs := { T.vs with run := .ending } })).map (fun t => (tileOf t 0).vs.run) = some .ended ∧
    (ran (.publishComplete 0) (publishing .phase)).map (fun t => (mget t.mem 0x480003, (tileOf t 0).sWait, (tileOf t 0).publishes.length)) =
      some (9, .none, 0) ∧
    (ran (.publishComplete 0) (publishing .taskEnd)).map (fun t => (tileOf t 0).task.map Task.hasEnded) = some (some true) ∧
    (ran (.nestIteration 0 4) nesting).map (fun t => ((tileOf t 0).cmdsA.map Cmd.iter, vget (tileOf t 0).pegs 3)) = some ([1, 0], 1) ∧
    (ran (.waitvReturn 0) (waitsFor 5 0)).map (fun t => (rx t 20, pcOf t)) = some (1, 0x10004) ∧
    (ran (.waitvTimeout 0) (waitsFor 6 99)).map (fun t => (rx t 20, pcOf t)) = some (0, 0x10000) ∧
    (ran (.waitvTimeout 0) (waitsFor 6 100)).map (fun t => (rx t 20, pcOf t)) = some (0x100, 0x10004) ∧
    (ran (.purlinRetryExpiry 0 4) retrying).map (fun t => (tileOf t 0).cmdsA.map Cmd.retryOver) = some [true, false] := by decide +kernel

/-- Tile 5 may go on reading the granule that tile 0's publish is about to write. -/
def kept : State := keepOld (publishing .phase) 5 (0x480000 / 64)

/-- R317, R319: the old value is read until an acquire whose scope takes in the publish; one at GANG does not. -/
theorem test_oldValue : (ran (.publishComplete 0) kept).map (fun t => (taskByte t 5 0x80003 0x480003,
    taskByte (acquire t 5 1) 5 0x80003 0x480003, taskByte (acquire t 5 2) 5 0x80003 0x480003, taskByte t 0 0x80003 0x480003)) =
    some (0, 0, 9, 9) := by decide +kernel

/-- A state in which every older value of tile 5 was made old by a publish that an acquire at DEVICE sees. -/
theorem witness_OldValues : (ran (.publishComplete 0) kept).map (fun t => (t.olds.map fun x => (x.tile, x.addr, x.overs.map (visible t 5 2)))) =
    some [(5, 0x480000, [true])] := by decide +kernel

/-! ### The Joinery -/

/-- One put of key 7 to class 5 at the port, and a waiting entry that it matches. -/
def arrivedPut : Put := { part := 1, handle := 0x100007008, cls := 5, desc := [7, 0x8B, 1, 0, 0, 0, 0, 0, 0, 0], unitVf := 2, putter := some 2 }

def atPort : State :=
  { base with entries := [(9, { entry9 with state := .waiting, payload := 6 })], gangs := [], reserved := [2],
              arrivals := [{ cycle := 0, rank := 2, source := 20, order := 1, work := .put arrivedPut }] }

/-- A card in slot 0 whose record at VA 0x80000 asks for tasks of one tile over 4 records. -/
def carded : State :=
  let s := withMem base (words tables [(0x480000, 0x10000), (0x480008, 0x20000), (0x480010, 4 + 2 ^ 48), (0x480018, 2 ^ 32 + 2 ^ 8)])
  let q := partOf s 1
  let c : Card := { entry := 9, addr := 0x80000, ready := false, words := [], next := 0, redeal := [], live := [], stopped := false, pageWait := none,
                    pageTicks := 0, aged := 0, unplaced := 0, bucket := 0 }
  setPart { s with entries := [(9, { entry9 with state := .dispatched, card := some 0 })] } 1 { q with cards := [(0, c)] }

def aged (st : EntryState) (n : Nat) : State := { base with entries := [(9, { entry9 with state := st, aged := n, unplaced := 1000, backoff := 8 })] }

theorem witness_QueueTurns :
    (∀ q : PartId, (partOf atPort q).state = 1 → itemsOf atPort q = [] ∧ (partOf atPort q).hold = none) ∧
    (atPort.lodging = [] ∧ vfStands atPort 2 = true ∧ (checkHandle atPort 1 (some 2) arrivedPut.handle rightPut).map HandleSlot.cls = some 5 ∧
      tfind (partOf atPort 1).classes 5 = some class5 ∧ class5.op ≠ 1 ∧ (findMatch atPort 1 5 7 none).map Prod.fst = some 9) ∧
    ((tfind (partOf carded 1).cards 0).map (fun c => (c.ready, c.pageWait)) = some (false, none) ∧ (tfind carded.entries 9).isSome ∧
      (asidXlat carded (.card 1 0) 2 4 0x80000 .read).2 = .ok 0x480000) ∧
    ((tfind (aged .ready 1000000).entries 9).map (fun e => (e.state, e.aged)) = some (.ready, 1000000)) ∧
    (gangOf (withGang { gang1 with state := .queued, aged := 1000000 }) 1).map Gang.aged = some 1000000 ∧
    ((partOf (aged .ready 0) 1).hold = none ∧ (holdWinner (claimants (aged .ready 0) 1)).map Item.id = some (.entry 9)) ∧
    (entryVf (aged .held 0) { entry9 with state := .held } = some 2 ∧ (vfOf (aged .held 0) 2).state = 2 ∧ (aged .held 0).arrivals = []) ∧
    (gangOf (withGang { gang1 with pageWait := some (4, 8), pageTicks := 100000 }) 1).map Gang.pageTicks = some 100000 := by decide +kernel

/-- R268, R269: operator 4 folds the payload of the put into that of the entry, and FIRE makes it READY. -/
theorem test_portCycle : (ran .portCycle atPort).map (fun t => (t.portCycle, t.arrivals.length, (tfind t.entries 9).map fun e => (e.folds, e.prio, e.state))) =
    some (1, 0, some (2, 3, .ready)) := by decide +kernel

theorem test_queueTurns :
    (ran (.cardRead 1 0) carded).map (fun t => (tfind (partOf t 1).cards 0).map Card.ready) = some (some true) ∧
    (ran (.agingStep (.entry 9)) (aged .ready 1000000)).map (fun t => (tfind t.entries 9).map fun e => (e.prio, e.aged)) = some (some (1, 0)) ∧
    (ran (.agingStep (.entry 9)) (aged .ready 999999)).map (fun t => (tfind t.entries 9).map JqEntry.prio) = some (some 0) ∧
    (ran (.holdClaim 1 (.entry 9)) (aged .ready 0)).map (fun t => (partOf t 1).hold.map Prod.fst) = some (some (.entry 9)) ∧
    (ran (.backoffExpiry 9) (aged .held 0)).map (fun t => t.arrivals.map Arrival.work) = some [.reentry 9] ∧
    (ran (.pageWaitTimeout (.gang 1)) (withGang { gang1 with pageWait := some (4, 8), pageTicks := 100000 })).map
      (fun t => t.gangs.map fun g => g.2.pageWait) = some [none] := by decide +kernel

/-! ### Translations, experts and lodging -/

def lodged (n : Nat) : Lodging :=
  { part := 1, vf := 2, expert := 6, vbase := 0x40000000, length := 0x200000, state := n, frames := [], nvme := false, port := 0, nsid := 0,
    loc := 0x100000000000, pin := 0, last := 0, notify := none, fetching := false, issued := 0, wanted := false, removing := false, parlour := [] }

/-- Lodging entry 3 in a state, in turn for Steward thread 16. -/
def lodge (n : Nat) (f : Lodging → Lodging := id) : State := { steward with lodging := [(3, f (lodged n))] }

/-- A lodging message of VF 2's expert 6. -/
def lodgeMsg (c w1 w2 w4 : Nat) : Msg :=
  msg (BitVec.ofNat 64 (6 * 2 ^ 44 + 2 * 2 ^ 16 + c)) (BitVec.ofNat 64 w1) (BitVec.ofNat 64 w2) 0 (BitVec.ofNat 64 w4)

/-- An ARRIVING expert with entry 9 parked on it, and a gang that waits for its first page. -/
def arriving (f : Lodging → Lodging := id) : State :=
  let s := lodge 1 fun e => f { e with fetching := true, issued := 1, frames := [loanIpa], parlour := [9] }
  { s with entries := [(9, { entry9 with state := .parked })], gangs := [(1, { gang1 with pageWait := some (4, 0x4000) })] }

/-- The same while its one transfer runs on Drover 0. -/
def fetching : State :=
  { arriving with drovers := [(8, { kind := .fetch 3 0, part := some 1, pool := 0, unit := some 0, pos := 0, vf := some 2, src := 0x100000000000,
                                    dst := loanIpa, length := 0x200000, done := none, notify := none })] }

def invalidating : State :=
  let s := setTile (steward fun h => { h with wait := .tlbi 0 0x5000 4 }) 0
    { tileOf base 0 with tlb := [{ asid := 4, base := 0x4000, size := 0x10000, r := true, w := true, x := true, ipa := 0 },
                                 { asid := 5, base := 0x4000, size := 0x10000, r := true, w := true, x := true, ipa := 0 }] }
  { s with gangs := [(1, { gang1 with pageWait := some (4, 0) })] }

theorem lodgeFits {s : State} {n : ThreadId} {m : Msg} {p : PartId} {c : Nat}
    (h : partOfThread s n = some p ∧ bfld m.w0 2 0 = c ∧ lodgeSender s n p m = true ∧ lodgeReserved m = false) : LodgeMsg s n m p c := h

/-- INSTALL at a length of 1 and at the VF's most; REMOVE in both states; the other commands; both ends of an eviction. -/
theorem witness_LodgingTurns :
    (partOfThread invalidating 16 = some 1 ∧ (thrOf invalidating 16).wait = .tlbi 0 0x5000 4) ∧
    (thrOf (steward fun h => { h with wait := .seghold 2 }) 16).wait = .seghold 2 ∧
    (∀ len ∈ [1, 0x800000 - 1, 0x800000], lodgeSender steward 16 1 (lodgeMsg 1 0x40000000 len 0x100000000000) = true ∧
      lodgeReserved (lodgeMsg 1 0x40000000 len 0x100000000000) = false ∧ len ≤ 2 ^ 21 * ((vfOf steward 2).frGuar + (vfOf steward 2).frBurst)) ∧
    (tierOk (partOf steward 1) false 0 0x100000000000 0x400000 = true ∧ tfree steward.lodging 0 32768 = some 0 ∧
      lodgingOf steward 2 6 = none ∧ steward.lodging = [] ∧ 0 < (partOf steward 1).lodgeShare) ∧
    (∀ n ∈ [0, 2], (lodgingOf (lodge n) 2 6).map (fun e => (e.1, e.2.state, e.2.pin)) = some (3, n, 0) ∧ parkedEntries (lodge n) 3 (lodged n) = []) ∧
    (∀ c ∈ [2, 3, 4], lodgeSender (lodge 2) 16 1 (lodgeMsg c 0 0 0) = true ∧ lodgeReserved (lodgeMsg c 0 0 0) = false) ∧
    (lodgeSender steward 16 1 (lodgeMsg 5 0 0 0) = true ∧ framesOf steward 2 = [] ∧ 0 + (vfOf steward 2).frGuar * 2 ^ 21 ≤ (vfOf (setVf steward 2 { vf2 with segSize := 0x400000 }) 2).segSize) ∧
    (lodgeSender steward 16 1 (lodgeMsg 6 0x300000 256 0) = true ∧ lodgeReserved (lodgeMsg 6 0x300000 256 0) = false ∧
      (partOf steward 1).spillCount = 0 ∧ 256 = 2 ^ 8) ∧
    ((tfind arriving.lodging 3).map (fun e => (e.state, e.fetching, e.issued, pieceCount e, writeWaits arriving (some e.vf) (tailIpa e) (tailBytes e))) =
      some (1, true, 1, 1, false) ∧ arriving.drovers = [] ∧ vfOfAsid arriving 4 = some 2) ∧
    ((tfind fetching.lodging 3).map (fun e => (e.state, e.fetching, parkedEntries fetching 3 e)) = some (1, true, [9]) ∧
      fetching.drovers.map (fun x => (pieceOf 3 x.2, x.2.unit, tierOf (lodged 1) x.2)) = [(true, some 0, 0x100000000000)]) ∧
    (∀ b ∈ [true, false], (tfind (lodge 3 fun e => { e with removing := b, frames := [loanIpa] }).lodging 3).map (fun e => (e.state, e.removing)) = some (3, b)) := by
  refine ⟨?_, ?_, ?_, ?_, ?_, ?_, ?_, ?_, ?_, ?_⟩ <;> decide +kernel

theorem witness_lodgeMsg : LodgeMsg steward 16 (lodgeMsg 1 0x40000000 0x200000 0x100000000000) 1 1 ∧ LodgeMsg (lodge 2) 16 (lodgeMsg 4 0 0 0) 1 4 :=
  ⟨lodgeFits (by decide +kernel), lodgeFits (by decide +kernel)⟩

/-- A lodging command's entry 3 (or the one it installs at 0): its state, if it is still there. -/
def lodgeState (i : Instr) (s : State) (l : Nat := 3) : Option (Option Nat) := (ran i s).map fun t => (tfind t.lodging l).map Lodging.state

/-- R347, R356 to R363. -/
theorem test_lodging :
    (ran (.tlbiComplete 16) invalidating).map (fun t => ((tileOf t 0).tlb.map TlbEntry.asid, t.gangs.map fun g => g.2.pageWait)) = some ([5], [none]) ∧
    (ran (.segholdComplete 16) (steward fun h => { h with wait := .seghold 2 })).map (fun t => (thrOf t 16).wait) = some .none ∧
    lodgeState (.install 16 (lodgeMsg 1 0x40000000 0x200000 0x100000000000)) steward 0 = some (some 0) ∧
    lodgeState (.install 16 (lodgeMsg 1 0x40000000 0x800001 0x100000000000)) steward 0 = some none ∧
    lodgeState (.remove 16 (lodgeMsg 2 0 0 0)) (lodge 2) = some (some 3) ∧ lodgeState (.remove 16 (lodgeMsg 2 0 0 0)) (lodge 0) = some none ∧
    lodgeState (.prefetch 16 (lodgeMsg 3 0 0 0)) (lodge 0) = some (some 1) ∧ lodgeState (.evict 16 (lodgeMsg 4 0 0 0)) (lodge 2) = some (some 3) ∧
    lodgeState (.evict 16 (lodgeMsg 4 0 0 0)) (lodge 2 fun e => { e with pin := 1 }) = some (some 2) ∧
    lodgeState (.fetchComplete 3) arriving = some (some 2) ∧ lodgeState (.fetchFailure 3 0x100000000000) fetching = some (some 0) ∧
    lodgeState (.evictionComplete 3) (lodge 3) = some (some 0) ∧ lodgeState (.evictionComplete 3) (lodge 3 fun e => { e with removing := true }) = some none := by
  decide +kernel

theorem test_regions :
    (ran (.pool 16 (lodgeMsg 5 0 0 0)) (setVf steward 2 { vf2 with segSize := 0x400000 })).map (fun t => (vfOf t 2).pool) = some (some 0) ∧
    (ran (.spill 16 (lodgeMsg 6 0x300000 256 0)) steward).map (fun t => ((partOf t 1).spillBase, (partOf t 1).spillSize)) = some (0x300000, 256) ∧
    (ran (.fetchFailure 3 0x100000000000) fetching).map (fun t => (tfind t.entries 9).map JqEntry.state) = some (some .faulted) := by decide +kernel

/-! ### Services -/

/-- A snapshot of partition 1 to NVMe port 0, with one frame of two bytes to save. -/
def shot (cut : Bool) (header : List Byte) (frames : List (Nat × Nat)) : Snapshot :=
  { scope := .partition 1, thread := 16, cookie := 77, ctr := 70, notify := none, done := none, nvme := false, ports := 0, loc := 0x300000, nsid := 0,
    cut := cut, frames := frames, header := header, image := [], pubs := [], msgs := [] }

def shooting (x : Snapshot) : State := { steward with snapshots := [x] }
/-- The same with its save served by Drover 0, the target's place free. -/
def saving (header : List Byte) (frames : List (Nat × Nat)) : State :=
  { shooting (shot true header frames) with drovers := [(8, { kind := .save (.partition 1), part := some 1, pool := 0, unit := some 0, pos := 0,
                                                              vf := none, src := 0, dst := 0x300000, length := 65536, done := none, notify := none })] }
def admin : NvmeCmd := { port := 0, cmd := msg 0x02 0 0 0 0, notify := some 16, cookie := 5, done := none }
def drover (k : DroverKind) : Drover :=
  { kind := k, part := some 1, pool := 0, unit := some 0, pos := 0, vf := none, src := 0x300000, dst := 0x310000, length := 4,
    done := none, notify := none }
def droving (k : DroverKind) : State := { withMem steward (mwrite [] 0x300000 [1, 2, 3, 4]) with drovers := [(8, drover k)] }

/-- VF 2 FROZEN, and VF 3 CREATED beside an image of seven empty sections at 0x300000. -/
def images : State :=
  setVf (setVf (withMem steward (mwrite [] 0x300038 (sm3Bytes []))) 2 { vf2 with state := 3 }) 3 { vf2 with state := 1 }

/-- The published standard's digest of "abc". -/
theorem test_sm3 : (sm3Bytes [0x61, 0x62, 0x63]).take 8 = [0x66, 0xC7, 0xF0, 0xF4, 0x62, 0xEE, 0xED, 0xD9] := by decide +kernel

/-- A drive on port 0 whose namespace 0 holds 65536 LBAs of 4096 bytes. -/
def driven : State := { steward with namespaces := [(0, (4096, 65536))] }

def snapMsg : Msg := msg (BitVec.ofNat 64 (16 * 2 ^ 32 + 6 * 2 ^ 16 + 2 ^ 8 + 1)) 0 0 0 0

theorem witness_ServiceTurns :
    (snapScope driven 16 = some (.partition 1) ∧ bfld snapMsg.w0 15 9 = 0 ∧ bfld snapMsg.w0 63 42 = 0 ∧ driven.snapshots = [] ∧
      snapTarget driven (.partition 1) true 1 0 0 = true ∧ doneCtr driven 16 6 = some 70 ∧ bbit snapMsg.w0 8 = true ∧ bfld snapMsg.w0 7 0 = 1) ∧
    ((shot false [] []).cut = false ∧ (shooting (shot false [] [])).snapshots = [shot false [] []] ∧
      (shot true [9] []).header ≠ [] ∧ (shot true [] [(0, 64)]).frames = [(0, 64)] ∧ (shot true [] []).notify = none) ∧
    (isStewardOf steward 1 16 = true ∧ (partOf steward 1).tierPorts.getLsbD (bfld (0x08 : Word) 2 0) = true ∧ bfld (0x08 : Word) 7 0 = 8) ∧
    admin.notify = some 16 ∧
    (copyRange steward 16 0x300000 4 = true ∧ copyRange steward 16 0x310000 4 = true ∧ copyRange guest 20 0x80000 4 = true) ∧
    (partOfVf images 2 = some 1 ∧ (vfOf images 2).state = 3 ∧ partOfVf images 3 = some 1 ∧ (vfOf images 3).state = 1) ∧
    (imageLength (physRead images 0x300000 88) = 88 ∧ imageOk (physRead images 0x300000 88) = true ∧ stewardRange (partOf images 1) 0x300000 88 = true) ∧
    (∀ k ∈ [DroverKind.copy, .frame 1], (tfind (droving k).drovers 8).map (fun x => (x.kind, x.vf, x.done)) = some (k, none, none)) ∧
    (vfOfThread guest 20 = some 2 ∧ (vfOf guest 2).cplWaiting = []) ∧ bfld (1 : Word) 47 0 ≠ 0 ∧
    ((thrOf guest 20).wait = .none ∧ (thrOf guest 20).held = false ∧ (thrOf guest 20).heldAccess = false) := by
  refine ⟨?_, ?_, ?_, ?_, ?_, ?_, ?_, ?_, ?_, ?_, ?_⟩ <;> decide +kernel

/-- Two requests that wait; a copy and a zeroing that run; a cut to come; a header and a frame to save; an end with an error and
without; guarded commands of a Steward and of the Keeper, and others; interrupts asked for and not. -/
theorem witness_Transfers :
    (nextServed steward [(8, { drover .copy with unit := none }), (9, { drover (.fetch 3 0) with unit := none })]).map Prod.fst = some 9 ∧
    (∀ k ∈ [DroverKind.copy, .frame 1], droverDown (droving k) (drover k) = false ∧ unsaved (droving k) 0x310000 4 = false) ∧
    ((saving [9, 8] []).snapshots = [shot true [9, 8] []] ∧ (saveRequest (saving [9, 8] []) (.partition 1)).map Prod.fst = some 8 ∧
      saveDown (saving [9, 8] []) (shot true [9, 8] []) { drover .copy with dst := 0x300000, length := 65536 } = false ∧
      frameAwaits (saving [] [(0, 0x200000)]) (shot true [] [(0, 0x200000)]) 0x200000 = false) ∧
    (bfld (0x80 : Word) 7 0 = 0x80 ∧ bfld (0x0D : Word) 7 0 = 0x0D ∧ partOfThread keeper 0 = none ∧ isKeeper 0 = true) ∧
    (bbit (vfOf guest 2).msix 0 = false ∧ bbit (5 : Word) 0 = true) := by
  refine ⟨?_, ?_, ?_, ?_, ?_⟩ <;> decide +kernel

theorem witness_stateExport : stewardRange (partOf images 1) 0x300000 (stateImage images 2).length = true := by decide +kernel

def timed (n : Nat) : State := { guest with timers := [(4, { thread := 20, left := n, cookie := 9 })] }

theorem test_services :
    (ran (.snapshot 16 snapMsg) driven).map (fun t => t.snapshots.map fun x => (x.ctr, x.cut, x.thread)) = some [(70, false, 16)] ∧
    (ran (.snapshotCut (.partition 1)) (shooting (shot false [] []))).map (fun t => t.snapshots.map fun x => (x.cut, x.frames.length)) = some [(true, 1024)] ∧
    (ran (.snapshotFrameSave (.partition 1)) (saving [9, 8] [(0, 0x200000)])).map (fun t => (mget t.mem 0x300001, t.snapshots.map Snapshot.header, t.drovers.map fun x => x.2.dst)) =
      some (8, [[]], [0x310000]) ∧
    (ran (.snapshotComplete (.partition 1) false) (shooting (shot true [] []))).map (fun t => (t.snapshots.length, tget 0 t.counters 70)) = some (0, 1) ∧
    (ran (.nvmeAdmin 16 (msg 0x08 0 0 0 0)) steward).map (fun t => t.nvmeAdmin.length) = some 1 ∧
    (ran (.nvmeAdminCompletion 0 7 8) { steward with nvmeAdmin := [admin] }).map
      (fun t => (t.nvmeAdmin.length, (thrOf t 16).queue.map fun e => e.record.take 4)) = some (0, [[5, 0, 7, 8]]) ∧
    (ran (.droverCopy 16 (msg 0x300000 0x310000 4 0 0)) steward).map (fun t => t.drovers.map fun x => x.2.dst) = some [0x310000] ∧
    (ran (.droverComplete 8 false) (droving .copy)).map (fun t => (mget t.mem 0x310003, t.drovers.length)) = some (4, 0) := by decide +kernel

theorem test_stateImages :
    (ran (.stateImport 16 (msg 0x300000 0 (BitVec.ofNat 64 (2 ^ 63 + 3 * 2 ^ 49)) 0 0)) images).map (fun t => t.drovers.map fun x => x.2.kind) = some [.importState 3] ∧
    (ran (.stateExport 16 (msg 0 0x300000 (BitVec.ofNat 64 (2 ^ 62 + 2 * 2 ^ 49)) 0 0)) images).map (fun t => t.drovers.map fun x => x.2.kind) = some [.exportState 2] := by
  decide +kernel

theorem test_timers :
    (ran (.timerRequest 20 (msg 3 9 0 0 0)) guest).map (fun t => t.timers.map fun x => x.2.left) = some [3] ∧
    (ran (.timerExpiry 4) (timed 0)).map (fun t => (t.timers.length, (thrOf t 20).queue.length)) = some (0, 1) ∧
    (ran (.timerExpiry 4) (timed 1)).map (fun t => t.timers.length) = some 1 ∧
    (ran (.watchdog 20) (guest fun h => { h with watchdog := 4999 })).map (fun t => (thrOf t 20).pc) = some 0x100 ∧
    (ran (.watchdog 20) (guest fun h => { h with watchdog := 5000, handler := some { summary := 3, record := [] }, evgetPc := some 0x40 })).map
      (fun t => (thrOf t 20).pc) = some 0x40 ∧
    (ran (.hostCompletion 20 3 7 8) (setVf guest 2 { vf2 with cplLog2 := 4, cplHead := 0, cplNext := 16 })).map (fun t => (vfOf t 2).cplWaiting.length) = some 1 ∧
    (ran (.cplhead 2 6) guest).map (fun t => (vfOf t 2).cplHead) = some 6 := by decide +kernel

/-! ### Links -/

/-- A booking of VF 2 for sends of tag 7, with a PLACE of its own: 0 none, 2 an intermediate address (0x80000). -/
def booking (place : Nat) : Booking :=
  { part := some 1, words := [BitVec.ofNat 64 (place * 2 ^ 53), 7, 0xFFFFFFFFFFFFFFFF, 0, 0, 0x80000, 64, 0, 0, 0], threshold := 3, vf := some 2,
    ctr := 64, bound := 0, arm := 0, armed := true }

/-- Two bytes of a message of 4 that a peer's VF 3 sends to VF 2 over Purlin. -/
def packet (dropped : Bool) : Packet :=
  { port := 1, purlin := true, context := 6, seqNo := 11, message := 12, kind := .send, addrLo := 0, addrHi := 0, job := 0, pid := 0, ri := 0,
    remoteVf := 3, destVf := 2, tag := 7, offset := 0, total := 4, position := 2, bytes := [0x51, 0x52], dropped := dropped }

def bound (received total place : Nat) : InMessage :=
  { context := some (6, 12, true), vf := 2, booking := 64, arm := 0, words := (booking place).words, ctr := 64, kind := .send, slot := 4095,
    tag := 7, order := 0, offset := 0, total := total, received := received, placed := 0, launch := false, ext := none, data := [],
    response := [] }

def bookedAt (place : Nat) (ms : List InMessage := []) : State :=
  { base with bookings := [(64, booking place)], inbound := ms.map fun m => (9, m) }

def send9 : Send :=
  { part := 1, vf := some 2, handle := 0x100001008, cookie := 4, tag := 7, op := 0, fromMem := false, notify := none, done := none, length := 2,
    srcAddr := 0, remote := 0, data := [1, 2] }

def sending (tries ticks : Nat) (backoff : Option Nat) (answer : Nat) (notify : Option ThreadId) : State :=
  { base with outbound := [(5, { send := { send9 with notify := notify },
                                 packets := [{ sent := true, port := some 0, tries := tries, ticks := ticks, backoff := backoff, answer := answer,
                                               bytes := [1, 2] }] })] }

def outLeft (i : Instr) (s : State) : Option Nat := (ran i s).map fun t => t.outbound.length

def keyed : State := setVf base 2 { vf2 with purlinKey := 0x77 }

/-- A peer's write that ends at the segment's last byte, and one that reaches beyond it. -/
def write (ipa : Nat) (key : BitVec 32) : PurlinReq := { vf := 2, key := key, ipa := ipa, length := 2, write := true, bytes := [5, 6] }

def launchMsg (seq : Nat) : Msg := msg (BitVec.ofNat 64 (seq * 2 ^ 32)) 0x99 0 0 0

/-- An Ethernet packet for slot 9's VF, and a full share of delivery contexts. -/
def ether : Packet := { packet false with purlin := false }
def crowded : State := { endpointed (bookedAt 0) with contexts := (List.range 16).map fun i => (100 + i, 1) }

/-- Each answer to a packet; a first packet and a later one, over Purlin and over Ethernet with room for its context and without;
bytes that land and bytes that wait at a halted tile. -/
theorem witness_Packets :
    (∀ d ∈ [true, false], ((if (packet d).purlin then PortKind.purlin else .ethernet), (packet d).port) ∉ (bookedAt 0).linksDown) ∧
    (packetSeen (bookedAt 0) (packet false) = false ∧ packetSeen { bookedAt 0 with accepted := [(packetKey (packet false), 11, 12)] } (packet false) = true) ∧
    (packetVf (bookedAt 0) (packet false) = some 2 ∧ packetVf (bookedAt 0) ether = none ∧ packetVf (endpointed (bookedAt 0)) ether = some 2 ∧
      packetVf (bookedAt 0) { packet false with kind := .unsupported } = some 2) ∧
    (vfReady (bookedAt 0) 2 = true ∧ vfReady (setVf (bookedAt 0) 2 { vf2 with state := 3 }) 2 = false) ∧
    ((bookingFor (bookedAt 0) 2 .send (sourceSlot (bookedAt 0) 2 (packet false)) 7).map Prod.fst = some 64 ∧
      bookingFor base 2 .send (sourceSlot base 2 (packet false)) 7 = none ∧ (bookedAt 0).bookPos ≤ matchPlace true 1) ∧
    ((tfind (endpointed (bookedAt 0)).contexts 6).isSome = false ∧ (partOf crowded 1).ctrShare / 2 = 16 ∧
      (crowded.contexts.filter fun c => decide (c.2 = (1 : PartId))).length = 16 ∧ (tfind crowded.contexts 6).isSome = false) ∧
    (∀ pl ∈ [0, 2], ((bookedAt pl [bound 2 4 pl]).inbound.find? (fun m => decide (m.2.context = some (6, 12, true)))).map Prod.fst = some 9 ∧
      landWaits (bookedAt pl [bound 2 4 pl]) (some 9) (bound 2 4 pl) 2 2 = false) ∧
    (∀ id ∈ [none, some 9], landWaits (setTile (bookedAt 1) 0 { tileOf base 0 with debug := .halted }) id (bound 2 4 1) 2 2 = true) := by
  refine ⟨?_, ?_, ?_, ?_, ?_, ?_, ?_, ?_⟩ <;> decide +kernel

/-- A complete message whose booking counts its bytes in tile 0's scratchpad at 8, in a block that another VF wrote. -/
def counted : InMessage := { bound 4 4 1 with words := (booking 1).words.set 6 (2 ^ 63 + 8 * 2 ^ 32 + 64), placed := 4 }

/-- Messages with SPEN and without; counters of a READY and of a FROZEN VF; a last packet and one of two; a read; packets to send
again, at the ends of their tries and their back-off; sends that end. -/
theorem witness_LinkSends :
    ((vfOf (bookedAt 0) 2).state ≠ 3 ∧ (bound 4 4 0).total ≤ (bound 4 4 0).received ∧ landWaits (bookedAt 2) (some 9) (bound 4 4 2) 0 0 = false ∧
      bkPlace (bound 4 4 0).words ≠ 1) ∧
    (bkPlace counted.words = 1 ∧ bkSpen counted.words = true ∧ bkSpctr counted.words = 8 ∧ landBlocked (tileOf base 0) 2 8 8 = false ∧
      landWaits (bookedAt 1 [counted]) (some 9) counted 0 0 = false ∧ tfind (tileOf base 0).tags 0 = none) ∧
    (isFrozen base (vfOfCtr base 64) = false ∧ base.bookings.length = 0 ∧
      isFrozen (setVf base 2 { vf2 with state := 3 }) (vfOfCtr (setVf base 2 { vf2 with state := 3 }) 64) = true) ∧
    ((sending 0 0 none 0 none).outbound.map (fun o => (o.2.send.op, o.2.packets.map fun p => (p.acked, p.sent, p.answer))) =
      [(0, [(false, true, 0)])] ∧ isFrozen base (some 2) = false ∧ writeWaits base (some 2) 0x80000 2 = false) ∧
    (∀ e ∈ [(16, 4999999), (17, 0), (0, 5000000)], (tfind (sending e.1 e.2 none 0 none).outbound 5).isSome) ∧
    (tfind (sending 3 4 (some 0) 1 none).outbound 5).map (fun o => o.packets.map fun p => (p.backoff, p.tries)) = some [(some 0, 3)] := by
  refine ⟨?_, ?_, ?_, ?_, ?_, ?_⟩ <;> decide +kernel

/-- A CXL port's copy on Drover 0. -/
def copying2 : State := { base with drovers := [(8, { drover .copy with src := 0x100000000000 })] }

/-- Requests that are served, that come too early, and that are refused; every kind of link, down and up; launches with a booking,
without one, of a VF that is torn down, and ones that break a condition. -/
theorem witness_LinkTurns :
    ((vfOf keyed 2).purlinKey = (0x77 : BitVec 32).toNat ∧ 0xFFFFE + 2 ≤ (vfOf keyed 2).segSize ∧ (vfOf keyed 2).freezeCtr = none ∧
      (vfOf keyed 2).state = 2 ∧ writeWaits keyed (some 2) 0xFFFFE 2 = false ∧ rangeWaits keyed 2 0xFFFFE 2 = false ∧
      (vfOf keyed 2).segSize < 0xFFFFF + 2) ∧
    (7 < kindPorts .ethernet ∧ 7 < kindPorts .purlin ∧ 0 < kindPorts .host ∧ 3 < kindPorts .cxl ∧ 7 < kindPorts .nvme) ∧
    (decide ((PortKind.cxl, 3) ∈ base.linksDown) = false ∧ (partOf base 1).state ≠ 0) ∧
    ((copying2.drovers.map fun x => (x.2.kind, x.2.unit)) = [(.copy, some 0)] ∧
      ((List.range 4).any fun n => transferUses copying2 { drover .copy with src := 0x100000000000 } n) = true) ∧
    (launchClean (launchMsg 1) = true ∧ (vfOf base 2).lastSeq = 0 ∧ (vfOf base 2).launches < 256 ∧ bookingFor base 2 .send 7 0x99 = none ∧
      (bookingFor (bookedAt 0) 2 .send 7 7).map Prod.fst = some 64 ∧ launchClean (msg (2 ^ 32 + 2) 0 0 0 0) = false ∧
      launchClean (msg (2 ^ 32 + 1) 7 0x80000 9 0) = true) ∧
    (vfOf (setVf base 2 { vf2 with state := 4 }) 2).state = 4 := by
  refine ⟨?_, ?_, ?_, ?_, ?_, ?_⟩ <;> decide +kernel

theorem test_packets :
    (ran (.packetArrival (packet true)) (bookedAt 0)).map (fun t => t.dropped) = some 1 ∧
    (ran (.packetArrival (packet false)) (bookedAt 0)).map (fun t => (t.inbound.map (fun m => (m.2.booking, m.2.received)), t.bookings.map fun b => b.2.bound)) =
      some ([(64, 2)], [1]) ∧
    (ran (.packetArrival (packet false)) (bookedAt 2 [bound 2 4 2])).map (fun t => (t.inbound.map (fun m => m.2.received), mget t.mem 0x480002)) = some ([4], 0x51) ∧
    (ran (.packetArrival (packet false)) base).map (fun t => t.inbound.length) = some 0 ∧
    (ran (.messageCompletion 9) (bookedAt 0 [bound 4 4 0])).map (fun t => (t.inbound.length, tget 0 t.counters 64)) = some (0, 1) ∧
    (ran (.messageCompletion 9) (bookedAt 0 [bound 3 4 0])).map (fun t => t.inbound.length) = some 1 ∧
    (ran (.counterIncrement 64 5) base).map (fun t => tget 0 t.counters 64) = some 5 := by decide +kernel

theorem test_sends :
    (ran (.ackArrival ⟨5, 0⟩ []) (sending 1 0 none 0 (some 20))).map (fun t => (t.outbound.length, (thrOf t 20).queue.map fun e => e.record.headD 0)) = some (0, [4]) ∧
    outLeft (.retransmitTimeout ⟨5, 0⟩) (sending 16 4999999 none 0 none) = some 1 ∧ outLeft (.retransmitTimeout ⟨5, 0⟩) (sending 17 0 none 0 none) = some 0 ∧
    outLeft (.retransmitTimeout ⟨5, 0⟩) (sending 0 5000000 none 0 none) = some 0 ∧ (ran (.retryBackoffExpiry ⟨5, 0⟩) (sending 3 4 (some 1) 1 none)).map (fun t => t.outbound.map fun o => o.2.packets.map OutPacket.tries) = some [[3]] := by
  decide +kernel

theorem test_peers :
    (ran (.purlinRequest (write 0xFFFFE 0x77)) keyed).map (fun t => mget t.mem 0x4FFFFF) = some 6 ∧
    (ran (.purlinRequest (write 0xFFFFF 0x77)) keyed).map (fun t => mget t.mem 0x4FFFFF) = some 0 ∧
    (ran (.purlinRequest (write 0xFFFFE 0x78)) keyed).map (fun t => mget t.mem 0x4FFFFE) = some 0 ∧
    (ran (.linkStateChange .ethernet 7 false) base).map (fun t => t.linksDown.contains (.ethernet, 7)) = some true ∧
    (ran (.linkStateChange .cxl 3 false) base).map (fun t => t.linksDown.contains (.cxl, 3)) = some true ∧
    (ran (.launch 2 (launchMsg 1)) base).map (fun t => ((vfOf t 2).lastSeq, (thrOf t 20).queue.length)) = some (1, 1) ∧
    (ran (.launch 2 (launchMsg 2)) base).map (fun t => (vfOf t 2).lastSeq) = some 0 := by decide +kernel

/-! ### Contexts -/

def vf3 (n : Nat) : State := setVf steward 3 { vf2 with state := n, gtFirst := 24 }

/-- A VFCTL value: counter 5, a command and a VF (R99). -/
def vfctl5 (c v : Nat) : Word := BitVec.ofNat 64 (5 * 2 ^ 16 + c * 2 ^ 8 + v)

/-- A halting, a halted and a halted tile with a held trap. -/
def debugged (d : Debug) (held : Option HeldTrap) : State :=
  { alone with cur := .thread 16, tiles := (setTile alone 0 { tileOf alone 0 with debug := d, heldTrap := held }).tiles,
               threads := (steward fun h => { h with dbgsel := 8 * 2 ^ 32 + 2 ^ 8 }).threads }

/-- A record of VF 3: 2 MiB at 6 MiB, ASID 6, Guest threads 24 to 27, faults to thread 16, weight 1. -/
def vfRecord : List Word := [0x600000, 0x200000, 1, 0, BitVec.ofNat 64 (2 ^ 32 + 24 * 2 ^ 16 + 6), BitVec.ofNat 64 (4 * 2 ^ 16 + 24), 0, 0]

/-- VF 2 FROZEN, with an increment of its first counter held. -/
def heldCount : State := { setVf base 2 { vf2 with state := 3 } with heldCounts := [(64, 5)] }

/-- The tile halted while CKPT's second step is to come; and the M stream's FPSR selected. -/
def haltedCkpt : State := modTile (debugged .halted none) 0 fun T => { T with sWait := .ckpt [0] }
def fpsrSelected : State := { debugged .halted none with threads := (steward fun h => { h with dbgsel := 48 * 2 ^ 32 + 6 * 2 ^ 8 }).threads }

/-- CREATE of a record that is accepted, and of one in a FAULTED partition; held counts; a checkpoint at a halted tile; the FPSR
of stream 2 by DBGDATA; launches that wait at TEAR. -/
theorem witness_ContextCommands :
    ((createVf steward 1 3 vfRecord).isSome = true ∧
      (createVf (setPart steward 1 { partOf steward 1 with state := 2 }) 1 3 vfRecord).isNone = true) ∧
    ((vfOf heldCount 2).state = 3 ∧ (vfOf heldCount 2).relaunch.length = 0 ∧ vfOfCtr heldCount 64 = some 2 ∧ heldCount.bookings.length = 0) ∧
    ((tileOf haltedCkpt 0).debug = .halted ∧ (tileOf haltedCkpt 0).sWait = .ckpt [0] ∧ (tileOf haltedCkpt 0).task = some task0) ∧
    (levelOf fpsrSelected 16 = 1 ∧ bfld (thrOf fpsrSelected 16).dbgsel 11 8 = 6 ∧ bfld (thrOf fpsrSelected 16).dbgsel 52 32 = 32 + 8 * 2 ∧
      (tileOf fpsrSelected 0).debug = .halted ∧ partOfThread fpsrSelected 16 = some 1 ∧ tileInPart (partOf fpsrSelected 1) 0 = true) ∧
    (∀ t, (tileOf steward t).publishes.length = 0) := by
  refine ⟨?_, ?_, ?_, ?_, ?_⟩ <;> decide +kernel

theorem test_contexts :
    ((createVf steward 1 3 vfRecord).map fun t => ((vfOf t 3).state, (vfOf t 3).segBase, (vfOf t 3).gtFirst)) = some (1, 0x600000, 24) ∧
    tget 0 (unfreezeVf heldCount 2).counters 64 = 5 ∧
    (ran (.dbgctlResume 16 0x200) haltedCkpt).map (fun t => match (tileOf t 0).sWait with | .saved c => c.pc | _ => 0) = some 0x10000 ∧
    (ran (.dbgdataWrite 16 0xFFFF) fpsrSelected).map (fun t => ((tileOf t 0).m.fpsr, bfld (thrOf t 16).dbgsel 52 32)) = some (0x3F, 56) := by
  decide +kernel

def tearing : State := setVf steward 2 { vf2 with state := 4, tearCtr := some none }
def freezing : State := { setVf steward 2 { vf2 with freezeCtr := some (some 69) } with gangs := [] }

theorem witness_ContextTurns :
    (partOfThread steward 16 = some 1 ∧ 1 ≤ levelOf steward 16 ∧ partOfVf steward 2 = some 1 ∧ stewardCtr steward 1 5 = true ∧
      bfld (vfctl5 4 2) 31 16 = 5 ∧ bfld (vfctl5 4 2) 10 8 = 4 ∧ bfld (vfctl5 4 2) 6 0 = 2) ∧
    (∀ n ∈ [1, 2, 3], partOfVf (vf3 n) 3 = some 1 ∧ (vfOf (vf3 n) 3).state = n) ∧
    ((vfOf freezing 2).freezeCtr = some (some 69) ∧ quiet freezing 2 = true ∧ (vfOf freezing 2).cmdThread = none) ∧
    ((vfOf tearing 2).tearCtr = some none ∧ (vfOf tearing 2).cplLog2 < 4 ∧ (partOf tearing 1).deleting = none) ∧
    (levelOf keeper 0 = 2 ∧ keeperCtr keeper 5 = true ∧ keeperCtr keeper 63 = true ∧ keeperCtr keeper 64 = false ∧ (partOf keeper 1).state = 1 ∧
      (partOf keeper 39).state = 0) ∧
    (tileInPart (partOf alone 1) 0 = true ∧ (tileOf alone 0).task = some task0 ∧ (tileOf alone 0).debug = .none) ∧
    (∀ e ∈ [none, some (⟨3, 9, 0, 0x10000, 0⟩ : HeldTrap)], (tileOf (debugged .halted e) 0).debug = .halted ∧ (tileOf (debugged .halted e) 0).heldTrap = e ∧
      (tileOf (debugged .halted e) 0).task = some task0) ∧
    ((tileOf (debugged (.halting 17 0x13 4) none) 0).debug = .halting 17 0x13 4 ∧ (tileOf (debugged (.halting 17 0x13 4) none) 0).cmdsM = []) ∧
    (levelOf (debugged .halted none) 16 = 1 ∧ bfld (thrOf (debugged .halted none) 16).dbgsel 11 8 = 1 ∧
      bfld (thrOf (debugged .halted none) 16).dbgsel 52 32 = 8 * (1 : XReg).val ∧ (tileOf (debugged .none none) 0).debug ≠ .halted) ∧
    (guest.cur = .thread 20 ∧ alone.cur = .tile 0 .S) := by
  refine ⟨?_, ?_, ?_, ?_, ?_, ?_, ?_, ?_, ?_, ?_⟩ <;> decide +kernel

/-- The VF's state and VFSTAT.RESULT after a VFCTL command on VF 3. -/
def vfResult (i : Instr) (s : State) : Option (Nat × Nat) := (ran i s).map fun t => ((vfOf t 3).state, bfld (thrOf t 16).vfstat 9 8)

theorem test_vf :
    vfResult (.vfctlFreeze 16 (vfctl5 2 3)) (vf3 2) = some (2, 2) ∧ vfResult (.vfctlFreeze 16 (vfctl5 2 3)) (vf3 1) = some (1, 1) ∧
    vfResult (.vfctlUnfreeze 16 (vfctl5 3 3)) (vf3 3) = some (2, 0) ∧ vfResult (.vfctlTear 16 (vfctl5 4 3)) (vf3 2) = some (4, 2) ∧
    vfResult (.vfctlCreate 16 (vfctl5 1 3)) (vf3 2) = some (2, 1) := by
  decide +kernel

theorem test_vfEnds :
    (ran (.freezeComplete 2) freezing).map (fun t => ((vfOf t 2).state, tget 0 t.counters 69)) = some (3, 1) ∧
    (ran (.teardownComplete 2) { tearing with gangs := [] }).map (fun t => ((vfOf t 2).state, t.entries.length)) = some (0, 0) := by
  decide +kernel

theorem test_part :
    (ran (.partctlCreate 0 (BitVec.ofNat 64 (5 * 2 ^ 16 + 256 + 1))) keeper).map (fun t => (bfld (thrOf t 0).partstat 9 8, tget 0 t.counters 5)) = some (1, 1) ∧
    (ran (.partctlDelete 0 (BitVec.ofNat 64 (5 * 2 ^ 16 + 512 + 1))) keeper).map (fun t => bfld (thrOf t 0).partstat 9 8) = some 2 ∧
    (ran (.partitionFault 1) keeper).map (fun t => ((partOf t 1).state, (vfOf t 2).state)) = some (2, 4) := by decide +kernel

def debugOf (i : Instr) (s : State) : Option Debug := (ran i s).map fun t => (tileOf t 0).debug

theorem test_debug :
    debugOf (.dbgctlHalt 16 0x100) (debugged .none none) = some (.halting 16 0x14 0x10000) ∧ debugOf (.haltReport 0) (debugged (.halting 16 0x14 0) none) = some .halted ∧
    debugOf (.dbgctlResume 16 0x200) (debugged .halted none) = some .none ∧
    (ran (.dbgctlResume 16 0x200) (debugged .halted (some ⟨3, 9, 0, 0x10000, 0⟩))).map (fun t => t.gangs.length) = some 0 ∧
    (ran (.dbgctlAbort 16 0x300) (debugged .halted none)).map (fun t => t.gangs.map fun g => g.2.state) = some [.aborting] ∧
    (ran (.dbgctlBparm 16 0x402) steward).map (fun t => (vfOf t 2).breakpoints) = some (some 16) ∧
    (ran (.dbgctlBpdisarm 16 0x502) steward).map (fun t => (vfOf t 2).breakpoints) = some none ∧
    (ran (.dbgdataWrite 16 0x55) (debugged .halted none)).map (fun t => (vget (tileOf t 0).x 1, bfld (thrOf t 16).dbgsel 52 32)) = some (0x55, 16) ∧
    (ran (.dbgdataRead 16) (debugged .none none)).map (fun t => (thrOf t 16).dbgErr) = some true ∧
    (ran (.dbgselWrite 16 0xFFFFFFFFFFFFFFFF) steward).map (fun t => (thrOf t 16).dbgsel) = some 0x001FFFFF00000FFF ∧
    (ran (.fpcrWrite 0x700000006) guest).map (fun t => (thrOf t 20).fpcr) = some 0x700000005 := by decide +kernel

/-! ### The device -/

def poweredAs (p : Power) : State := { State.reset with power := p }

/-- R421: marker copy M1 names slot B with SEQ 7; its hash is SM3 of its first 32 bytes. -/
def marked (seq : Nat) : State :=
  let head := leBytes 8 0x4B52414D ++ leBytes 8 7 ++ leBytes 8 1 ++ leBytes 8 0
  { poweredAs .bootPending with flash := mset (mwrite (mwrite [] 0x10000 head) 0x10020 (sm3Bytes head)) 0x10008 (BitVec.ofNat 8 seq) }

/-- A write of 3 bytes that the flash has still to take, and one behind it. -/
def flashing (p : Power) : State := { poweredAs p with flashWrites := [⟨0x100000, [7, 8, 9]⟩, ⟨0, [1]⟩] }

/-- Writes taken in part and whole; an update's two steps; a marker that names the running slot; a die's clock in both directions;
host reads; a frame that changes hands and one that is taken up. -/
theorem witness_Bringup :
    ((flashing .booted).flashWrites.map (fun w => w.bytes.length) = [3, 1] ∧ (flashing .recovery).power = .recovery ∧ (flashing .booted).power = .booted) ∧
    ((poweredAs .booted).flashWrites.length = 0 ∧ (poweredAs .recovery).flashWrites.length = 0) ∧
    (markerValid (marked 7) true = true ∧ markerValid (marked 7) false = false) ∧
    (decide (base.drawn ≤ base.powerLimit) = true ∧ decide ({ base with drawn := base.powerLimit + 1 }.drawn ≤ base.powerLimit) = false) ∧
    (tget 0 steward.owners 128 = 0 ∧ (let s := { steward with owners := [(128, 5)] }
      tagReachable s 16 128 = true ∧ tagOver s 128 3 = false ∧ tget 0 s.owners 128 ≠ 0)) := by
  refine ⟨?_, ?_, ?_, ?_, ?_⟩ <;> decide +kernel

/-- A step of the flash takes 2 bytes; PF register reads; the marker's reads; a second reading of a frame's tag zeroes it. -/
theorem test_worlds :
    ((runWorld (flashing .booted) (.flashStep 2)).flashWrites.map (fun w => (w.offset, w.bytes)) = [(0x100002, [9]), (0, [1])]) ∧
    mget (runWorld (flashing .booted) (.flashStep 2)).flash 0x100001 = 8 ∧
    (runWorld base (.hostRead (some 2) 0x0C0)).wire = [.hostValue (some 2) 0x0C0 0x201] ∧
    ((ran (.ownerTag 16 128 3) { steward with owners := [(128, 5)] }).map fun t => (t.zeroing, t.drovers.map fun x => x.2.kind)) =
      some ([128], [.frame 128]) := by decide +kernel

/-- A stream that issues, a thread that stands ready, a command that has started, and an MMA with RED at its first step. -/
def redundant : State :=
  modTile { running true (.mma (int8 1024 2 3) (int8 1056 3 2) 3 true) with power := .booted } 0 fun T =>
    { T with cmdsM := T.cmdsM.map fun c => { c with started := true, view := some T.spad } }

theorem witness_SoftErrors : streamIssues alone 0 .S = true ∧ (thrOf guest 20).held = false ∧ (thrOf guest 20).wait = .none ∧
    (findCmd (tileOf redundant 0) true 4).map (fun c => (c.started, c.landed, c.view.isSome, c.ahead.isEmpty, c.pos)) = some (true, false, true, true, 0) ∧
    0 < groupCount (int8 1024 2 3) (int8 1056 3 2) ∧ ((findCmd (tileOf redundant 0) true 4).all fun c => mayRun (tileOf redundant 0) true c) = true ∧
    alone.power = .booted := by decide +kernel

/-- R428, R224: an error in a word of S, in a Guest's registers, and two results of an MMA that differ. -/
theorem test_softErrors :
    (runWorld alone (.eccWord 0 .S 0x40)).gangs.length = 0 ∧
    ((thrOf (runWorld (guest fun h => { h with evgetPc := some 0x40 }) (.eccThread 20 7)) 16).queue.map fun e => e.record.getD 2 0) = [7] ∧
    ((thrOf (runWorld redundant (.mismatch 0 4)) 16).queue.map fun e => (bfld (e.record.getD 0 0) 15 0, e.record.getD 2 0)) = [(0x0D, 3)] := by
  decide +kernel

/-- Owner tag 3 for a frame of the loan pool by a Steward, and one outside it. -/
theorem witness_DeviceTurns :
    ((poweredAs .bootPending).power = .bootPending ∧ chosenSlot (poweredAs .bootPending) = none) ∧
    ((poweredAs .recovery).power = .recovery ∧ imageVerifies [] = false) ∧ (poweredAs .off).power = .off ∧ 64 * 0 < hbmEnd ∧
    ((vfOf steward 2).state ≠ 0 ∧ (vfOf steward 2).attReport = none) ∧
    (let s := setPart keeper 1 { partOf keeper 1 with codeSize := 0 }
     2 ≤ levelOf s 0 ∧ threadsHeld { s with threads := (setThr State.reset 0 (thrOf keeper 0)).threads } 1 = true ∧ (partOf s 1).state ≠ 0 ∧
      bfld (0x20000 : Word) 24 0 % 65536 = 0 ∧ (partOf s 1).codeBase + 0x20000 ≤ (partOf s 1).carveBase + (partOf s 1).carveSize) ∧
    (tagReachable steward 16 128 = true ∧ tagOver steward 128 3 = false ∧ 2097152 * 128 < hbmEnd ∧ tagReachable steward 16 127 = false) ∧
    (levelOf steward 16 = 1 ∧ partOfThread steward 16 = some 1) ∧ guest.cur = .thread 20 ∧ 2 ≤ levelOf keeper 0 := by
  refine ⟨?_, ?_, ?_, ?_, ?_, ?_, ?_, ?_, ?_, ?_⟩ <;> decide +kernel

theorem test_power :
    (ran .boot (poweredAs .bootPending)).map State.power = some .recovery ∧ (ran (.powerOn true) (poweredAs .off)).map State.power = some .bootPending ∧
    (ran (.powerOn false) (poweredAs .off)).map State.power = some .heldInReset ∧ (ran (.powerLoss none) base).map State.power = some .off ∧
    (ran (.clockStep 0 false) { base with drawn := base.powerLimit + 1, dies := vset base.dies 0 { vget base.dies 0 with mhz := 420 } }).map (fun t => (vget t.dies 0).mhz) = some 400 ∧
    (ran (.scrub 5 .uncorrectable) base).map (fun t => (t.bad, t.scrubLost)) = some ([5], 1) := by decide +kernel

theorem test_registers :
    (ran (.readyctl (some 3) 1) (vf3 1)).map (fun t => (vfOf t 3).state) = some 2 ∧ (ran (.readyctl (some 3) 0) (vf3 1)).map (fun t => (vfOf t 3).state) = some 1 ∧
    (ran (.attgo 2 1) steward).map (fun t => ((vfOf t 2).attReport.map List.length, (vfOf t 2).attDone)) = some (some 512, false) ∧
    (ran (.ownerTag 16 128 3) steward).map (fun t => tget 0 t.owners 128) = some 3 ∧ (ran (.ownerTag 16 127 3) steward).map (fun t => tget 0 t.owners 127) = some 0 ∧
    (ran (.registerWrite (.csr 0x002) 1) (guest fun h => { h with fpsr := 3 })).map (fun t => (thrOf t 20).fpsr) = some 2 ∧
    (ran (.registerWrite (.hostPage 2 0x080) 0x12345) steward).map (fun t => (vfOf t 2).cplBase) = some 0x12000 ∧
    (ran (.registerWrite (.config 0 (0xF00000002000 + 64)) 9) keeper).map (fun t => vget (partOf t 1).stats 0) = some 9 := by decide +kernel

theorem test_marker : markerValid (marked 7) true = true ∧ candidates (marked 7) = [true] ∧ markerSlot (marked 7) true = true ∧
    markerSeq (marked 7) true = 7 ∧ markerValid (marked 8) true = false := by decide +kernel

/-! ### The machine as a whole -/

/-- A gang whose region is irrevocable, or is not. -/
def faulting (irr : Bool) : State := { tile .A with tiles := (setTile base 0 { tileOf (tile .A) 0 with task := some { task0 with irrevocable := irr } }).tiles }

theorem witness_TileFates : (faulting false).cur = .tile 0 .A ∧ (tileOf (faulting false) 0).debug = .none ∧
    (tileOf (faulting false) 0).task = some { task0 with irrevocable := false } ∧ gangOf (faulting false) task0.gang = some gang1 ∧
    gangIrrevocable (faulting false) gang1 = false ∧ gangIrrevocable (faulting true) gang1 = true ∧ gang1.chunk = none ∧
    (tfind (faulting true).entries gang1.entry).isSome := by
  refine ⟨?_, ?_, ?_, ?_, ?_, ?_, ?_, ?_⟩ <;> decide +kernel

/-- The state after a cause. -/
def raised (s : State) (c : Nat) (v : Word) : Option State :=
  match raise s c v with
  | .next t => some t
  | _ => none

/-- R109 to R112, R139: PAGE_ABSENT waits for the page; another cause, or an irrevocable region, ends the gang, with its
cause or 0x0F (ORIG 7) in the record that thread 20, FAULTTHR by part1's layout of vf2, gets. -/
theorem test_fates :
    (raised (faulting false) 0x07 0x34567).map (fun t => t.gangs.map fun g => (g.2.state, g.2.pageWait)) = some [(.aborting, some (4, 3))] ∧
    (raised (faulting true) 0x07 0x34567).map (fun t => (t.gangs.length, (thrOf t 16).queue.map fun e => bfld (e.record.headD 0) 15 0)) = some (0, [0x070F]) ∧
    (raised (faulting false) 0x03 0).map (fun t => ((tfind (partOf t 1).classes 5).map JqClass.frozen, (vfOf t 2).faults)) = some (some true, 1) := by
  decide +kernel

/-- A chunk of a card, of records 0 to 3. -/
theorem witness_ChunkFates : (gangOf { faulting false with gangs := [(1, { gang1 with chunk := some (0, 0, 4) })] } task0.gang).map Gang.chunk =
    some (some (0, 0, 4)) := by decide +kernel

/-- A publish of one store at the VF's last granule: bytes on both sides of its segment are outside its windows. -/
theorem witness_PublishIsolation : (tileOf (publishing .phase) 0).publishes = [publish .phase] ∧ (publish .phase).effects = [] ∧
    (∀ g ∈ (publish .phase).stores, g.dest = .ipa) ∧
    (∀ a ∈ [0x3FFFFF, 0x500000], ¬ ((vfOf (publishing .phase) 2).segBase ≤ a ∧ a < (vfOf (publishing .phase) 2).segBase + (vfOf (publishing .phase) 2).segSize) ∧
      (ownerTag (publishing .phase) a).toNat ≠ 2 + 1) := by
  refine ⟨?_, ?_, ?_, ?_⟩ <;> decide +kernel

/-- A Keeper thread with two words of firmware: ADDI x20, x2, -3 and a word that decodes to nothing. -/
def booted (pc : Word) : State :=
  keeper fun h => { h with pc := pc }

def firm (pc : Word) : State := { booted pc with firmware := mwrite [] 0 (leBytes 4 0x02A05FFD ++ leBytes 4 0xFFFFFFFF), firmwareSize := 8 }

theorem test_step : (match step (firm 0) with | .next t => (rx t 20, pcOf t, t.freeCtr) | _ => (0, 0, 0)) = (0xFFFFFFFFFFFFFFFF, 4, 1) ∧
    (match step (firm 4) with | .next t => ((thrOf t 0).keeper.tcause, (thrOf t 0).keeper.tval) | _ => (0, 0)) = (1, 0xFFFFFFFF) := by decide +kernel

def scheduled : State := { firm 0 with agenda := [.issue (.thread 0)] }

/-- The instruction of a thread's fetched bytes. -/
def fetchedWord : Fetched → Option Instr
  | .bytes bs => (decode .scalar bs).toOption.map Prod.fst
  | _ => none

/-- Each clause: a turn of the agenda, a word that does not decode, and a Keeper's fetch of the firmware's last word. -/
theorem witness_StepRunsWord :
    (canIssue scheduled (.thread 0) = true ∧ fetchedWord (fetchOf { scheduled with freeCtr := 1, agenda := [], cur := .thread 0 } (.thread 0)).2 =
      some (.addi 20 2 0x1FFD)) ∧
    ((firm 4).agenda = [] ∧ (firm 4).power = .booted ∧ canIssue (firm 4) (firm 4).cur = true ∧
      fetchedWord (fetchOf { firm 4 with freeCtr := 1 } (.thread 0)).2 = none ∧ (thrOf (firm 4) 0).pc.toNat + 4 ≤ (firm 4).firmwareSize) := by
  refine ⟨?_, ?_⟩ <;> decide +kernel

/-- Well-formed instructions with a word, of every family. -/
theorem witness_DecodeEncodeAgree : ∀ e ∈ [(Instr.addi 63 63 0x1000, Family.scalar), (.fork 61 7, .scalar), (.vloop 7 4095, .vector),
    (.vadd 0 22 0 7 0 false true true, .vector), (.lit 0x4000, .engine), (.mst true true 3, .engine)],
    wellFormed e.1 = true ∧ (encode e.1).map Prod.fst = some e.2 ∧
      (encode e.1).all (fun w => decide ((decode w.1 (natToBytes w.1.bytes w.2)).toOption = some (e.1, []))) = true := by decide +kernel

/-- The reset state is canonical, and its step and a thread's store answer next states. -/
theorem witness_MemoriesStayCanonical : Canonical State.reset ∧ (match step State.reset with | .next _ => true | _ => false) = true :=
  ⟨Canonical_reset, by decide +kernel⟩

theorem witness_WrittenWordsDecode : writtenWords.length = 34 := by decide +kernel

/-- R8 of the host's interface: a word placed at the next fetch is the word that the next step runs. -/
theorem test_fetchWord : (match step (State.reset.withFetchWord 32 0x02A05FFD) with | .next t => rx t 20 | _ => 0) = 0xFFFFFFFFFFFFFFFF ∧
    decodeTableWord 32 0x02A05FFD = some (.addi 20 2 0x1FFD) := by decide +kernel

/-! ### Encodings, reductions, transcendental words and group steps -/

/-- An infinity, a NaN with an infinity's format and without, a subnormal, a code of an integer and of an exponent format; an
infinite sum in an integer format, and conversions of two kinds (R27 to R30, R36, R49 to R53). -/
theorem witness_Encodings :
    [widen 0 0x7F800000, widen 0 0x7F800001, widen 3 0x7F, widen 1 1, widen 9 0xFFFFFFFF, widen 10 255] =
      [.inf false, .nan false false 1, .nan false true 0x700000, .exact false 1 (-133), .exact true 1 0, .dnan] ∧
    encodeNum 6 0 false 0 (.exact false 256 0) = (127, fInvalid) ∧ cvt 9 300 7 0 false 0 = (255, fClamped) ∧
    cvt 0 0x7F800001 1 0 false 0 = (0x7FC0, fInvalid) ∧ classOf 0 0x7F800001 = 8 ∧ minMax 0 false true 0x7FC00000 5 = (5, 0) := by decide +kernel

/-- A superscale of each kind: a NaN, an infinity, 2.0 (R33, R35). -/
theorem witness_PopConversions : widen 0 0x7FC00001 = .nan false true 0x400001 ∧ widen 0 0xFF800000 = .inf true ∧
    widen 0 0x40000000 = .exact false 0x800000 (-22) ∧ nq4 7 255 0xFF800000 = (.dnan, fInvalid) ∧ nq4 0 255 0xFF800000 = (.inf false, 0) := by
  decide +kernel

/-- In BF16: a NaN behind a number, both infinities, one, and numbers alone; in INT8 codes below 2^8 (R188). -/
theorem witness_Reductions :
    ((([0x3F80, 0x7FC0].map (widen 1))[1]?.map Num.isNan) = some true ∧ (([0x3F80, 0x7FC0].map (widen 1))[0]?.map Num.isNan) = some false) ∧
    (Num.inf false ∈ [0x7F80, 0xFF80].map (widen 1) ∧ Num.inf true ∈ [0x7F80, 0xFF80].map (widen 1) ∧
      Num.inf false ∉ [0xFF80, 0x3F80].map (widen 1)) ∧
    (∀ w ∈ [0x3F80, 0xBF80].map (widen 1), w.isNan = false ∧ w ≠ .inf false ∧ w ≠ .inf true) ∧
    (∀ x ∈ [0, 127, 128, 255], x < 2 ^ typeWidth 7) ∧ reduce 7 0 0 0 [127, 127, 255] = (253, 0) ∧ reduce 7 1 0 0 [127, 128] = (128, 0) ∧
    reduce 1 0 0 0 [0x3F80, 0x3F80] = (0x4000, 0) := by decide +kernel

/-- A NaN; each row of special operands; 2.0, an integer and a power of 2 (R184). -/
theorem witness_Transcendentals : (widen 1 0x7FC0).isNan = true ∧
    (∀ e ∈ [(Fun.exp2, 0x7F80), (.exp2, 0), (.log2, 0xFF80), (.log2, 0), (.log2, 0xBF80), (.rsq, 0x7F80), (.rsq, 0), (.rsq, 0xBF80),
      (.tanh, 0x7F80), (.tanh, 0x8000), (.erf, 0x7F80), (.erf, 0)], (specialRule e.1 (widen 1 e.2)).isSome = true) ∧
    widen 0 0x40000000 = .exact false 0x800000 (-22) ∧ exactOf false 0x800000 (-22) = (2 : Int) ∧ scaled 0x800000 (-22) = (2 : Rat) ^ (1 : Int) := by
  decide +kernel

/-- A BF16 shape of 1 by 1, and a tile whose operands are two given elements. -/
def single (o : Nat) : Shape := { int8 o 1 1 with fmt := 1 }
def operands (x y : Nat) : Tile := { spad := mwrite (mwrite [] 1024 (leBytes 2 x)) 1056 (leBytes 2 y) }

/-- The terms of the one element: the accumulator, and the product. -/
def terms (x y acc : Nat) : List Machine.Num :=
  let p := fun s ss => operandAt (operands x y) s ss (encodedAt (operands x y) s 0 0) 0
  [widen 0 acc, (num2 mulNum (p (single 1024) 0).1 (p (single 1056) 0).1).1]

/-- R54, R55: 0 x infinity, a quiet NaN, an infinity, a sum that is 0, and 1 + 1 x 1. -/
theorem witness_GroupSteps : groupWidth 1 1 = some 16 ∧ (single 0).fmt ≠ 6 ∧ ((List.range 16).map (0 * 16 + ·)).filter (fun k => decide (k < 1)) = [0] ∧
    (num2 mulNum (widen 1 0) (widen 1 0x7F80)).2 ≠ 0 ∧
    ((terms 0x3F80 0x3F80 0x7FC00000).any Num.isNan = true ∧ Num.inf false ∈ terms 0x7F80 0x3F80 0 ∧ Num.inf true ∉ terms 0x7F80 0x3F80 0) ∧
    (((terms 0x3F80 0xBF80 0x3F800000).map valueOf).sum = 0 ∧ ((terms 0x3F80 0x3F80 0x3F800000).map valueOf).sum ≠ 0) ∧
    stepAt (operands 0 0x7F80) (single 1024) (single 1056) 0 0 0 0 = (0x7FC00000, fInvalid) ∧
    stepAt (operands 0x3F80 0x3F80) (single 1024) (single 1056) 0 0 0 0x3F800000 = (0x40000000, 0) := by decide +kernel

/-- A prefetch of 2 pages, first in the A queue, the first page present in memory and the TLB empty; and a command at a group whose
entry ECC cannot correct. -/
theorem witness_Prefetch : (tileOf (running false (.pref 0x80000 0x10001)) 0).cmdsA.map (fun c => (c.id, c.landed, c.pos)) = [(4, false, 0), (5, false, 0)] ∧
    (tileOf (running false (.pref 0x80000 0x10001)) 0).tlb = [] ∧
    (match walk (running false (.pref 0x80000 0x10001)) (some 0) 2 4 0x80000 with | .leaf _ => true | _ => false) = true ∧
    (ran (.commandCompletion 0 false 4) (running false (.pref 0x80000 0x10001))).map (fun t => (tlbFind (tileOf t 0).tlb 4 0x80000).isSome) = some true ∧
    entryBad { grouped (.mst 0 0 (2 ^ 32)) false with bad := [0x220000 / 64] } 1 0 = some 0x220000 := by decide +kernel

/-! ### Starts with arguments, and the ends of chunks -/

/-- The leaf of the first GiB of VF 2's ASID 4. -/
def leaf4 : TlbEntry := { asid := 4, base := 0, size := 2 ^ 30, r := true, w := true, x := true, ipa := 0 }

/-- A placed chunk whose 16 bytes of arguments lie at VA 0x80000, its tiles' TLBs with the leaf or without. -/
def chunk2 (va : Word) : Gang := { placed2 with chunk := some (0, 0, 2), args := [], argAddr := some (va, 16) }
def argued (va : Word) (l : List TlbEntry) : State :=
  let s := withGang (chunk2 va) (withMem base (mwrite tables 0x480000 eight))
  modTile (modTile s 0 fun T => { T with tlb := l }) 5 fun T => { T with tlb := l }

/-- The state in which the members start. -/
def arguedRuns : State :=
  { argued 0x80000 [leaf4] with gangs := tput (argued 0x80000 [leaf4]).gangs 1 { chunk2 0x80000 with state := .running, runs := 1 } }

/-- The argument read of a member whose TLB holds the leaf translates there. -/
theorem argued_hit (ts : Vector Tile 256) (os : List OldValue) (rank : Nat) (t : TileId)
    (hb : (tileOf { arguedRuns with tiles := ts, olds := os } t).tlb = [leaf4]) :
    tileXlat { arguedRuns with tiles := ts, olds := os } t
      (memberTask { arguedRuns with tiles := ts, olds := os } 1 { chunk2 0x80000 with state := .running, runs := 1 } rank t) 0x80000 .read =
      ({ arguedRuns with tiles := ts, olds := os }, .ok (0x80000, 0x480000)) := by
  simp only [tileXlat, tileXlatFor, tileStage1, hb]; rfl

/-- The argument read of either member translates in its TLB, whatever the start has done to the tiles. -/
theorem argued_xlat {u : State} (h : { u with tiles := arguedRuns.tiles, olds := arguedRuns.olds } = arguedRuns)
    (hl : ∀ w, (tileOf u w).tlb = (tileOf (argued 0x80000 [leaf4]) w).tlb) (rank : Nat) (t : TileId) (ht : t = 0 ∨ t = 5) :
    tileXlat u t (memberTask u 1 { chunk2 0x80000 with state := .running, runs := 1 } rank t) 0x80000 .read = (u, .ok (0x80000, 0x480000)) := by
  obtain ⟨ts, os, rfl⟩ : ∃ ts os, u = { arguedRuns with tiles := ts, olds := os } := ⟨u.tiles, u.olds, by rw [← h]⟩
  have hb : (tileOf { arguedRuns with tiles := ts, olds := os } t).tlb = [leaf4] := by
    rw [hl t]; rcases ht with rfl | rfl <;> decide +kernel
  exact argued_hit ts os rank t hb

/-- A start with arguments that are read, one whose read finds no page, one in a tile that a booking placed into, with its argument
bytes none; a restart in a port cycle after its placing (R130, R296, R304). -/
theorem witness_ArgumentStarts :
    (gangOf (argued 0x80000 [leaf4]) 1 = some (chunk2 0x80000) ∧ (chunk2 0x80000).placedAt ≠ some (argued 0x80000 [leaf4]).portCycle ∧
      badIn (argued 0x80000 [leaf4]) 0x480000 16 = none ∧ 16 ≤ 2 ^ (chunk2 0x80000).log2) ∧
    ((tileXlat (argued 0x80000000 []) 0 (memberTask (argued 0x80000000 []) 1 (chunk2 0x80000000) 0 0) 0x80000000 .read).2 =
      .error (.fault causeAbsent) ∧ (tileOf (argued 0x80000000 []) 0).debug = .none) ∧
    (let g : Gang := { placed2 with tiles := [5], size := 1, onTile := some (5, 0x1000) }
     gangOf (withGang g) 1 = some g ∧ (g.onTile.map Prod.snd).getD 0 % 4096 = 0 ∧ g.tiles.Nodup) ∧
    (withGang { placed2 with placedAt := some 3 }).portCycle ≠ 3 := by decide +kernel

/-- R130, R304: the second member's first argument byte is the array's; its x8 is the size. -/
theorem test_argumentStart : (ran (.gangStart 1) (argued 0x80000 [leaf4])).map (fun t =>
    (mget (tileOf t 5).spad 0, mget (tileOf t 5).spad 16, vget (tileOf t 5).x 8)) = some (0x81, 0, 2) := by decide +kernel

/-- A card whose chunk runs on tile 0: with another chunk live, stopped by a fault, with records left to deal, and dealt whole. -/
def chunked (f : Card → Card) : State :=
  let s := onTile0 (fun g => { g with chunk := some (0, 0, 4), entry := 0 }) fun T => { T with task := some { task0 with hasEnded := true }, sWait := .ended }
  let c : Card := { entry := 9, addr := 0x80000, ready := true, words := [0x10000, 0x20000, 4 + 2 ^ 48, 2 ^ 32 + 2 ^ 8], next := 4, redeal := [],
                    live := [1], stopped := false, pageWait := none, pageTicks := 0, aged := 0, unplaced := 0, bucket := 0 }
  setPart { s with entries := [(9, { entry9 with state := .dispatched, card := some 0 })] } 1 { partOf s 1 with cards := [(0, f c)] }

theorem witness_ChunkEnds : ([id, fun c : Card => { c with live := [1, 2] }, fun c => { c with stopped := true }, fun c => { c with next := 2 },
      fun c => { c with redeal := [(0, 2)] }].all fun f => decide (
    (gangOf (chunked f) 1).map (fun g => (g.state, g.chunk, g.tiles)) = some (.running, some (0, 0, 4), [0]) ∧ memberDone (chunked f) 0 = true ∧
      (tfind (partOf (chunked f) 1).cards 0).map Card.entry = some 9 ∧ (tfind (chunked f).entries 9).bind JqEntry.card = some 0)) = true := by decide +kernel

/-- R303, R305: what becomes of the card's entry. -/
theorem test_chunkEnds :
    (ran (.gangComplete 1) (chunked id)).map (fun t => (t.entries.length, (partOf t 1).cards.length)) = some (0, 0) ∧
    (ran (.gangComplete 1) (chunked fun c => { c with stopped := true })).map (fun t => t.entries.map fun e => e.2.state) = some [.faulted] ∧
    (ran (.gangComplete 1) (chunked fun c => { c with next := 2 })).map (fun t => (partOf t 1).cards.map fun c => c.2.live) = some [[]] := by
  decide +kernel

/-! ### Publishes, cards, the queue's waits and DBGDATA -/

/-- The publish's row is free, and nothing of it waits. -/
theorem witness_PublishRows : (∀ w ∈ [PublishFor.phase, .bar, .taskEnd, .ckpt [0]], publishHeld (publishing w) 0 (publish w) = false) ∧
    publishAtRows (publishing .phase) 0 (publish .phase) = (publishing .phase, true) ∧
    publishAtRows (publishing .bar) 0 (publish .bar) = (publishing .bar, true) :=
  ⟨by decide +kernel, rfl, rfl⟩

/-- Card 0 before its record is read, at an aging step, and at the end of a page wait. -/
def agedCard (f : Card → Card) : State :=
  setPart carded 1 { partOf carded 1 with cards := (partOf carded 1).cards.map fun c => (c.1, f c.2) }

theorem witness_CardTurns : frozenClass atPort 1 5 = false ∧ (asidXlat carded (.card 1 0) 2 4 0x80000 .read).2 = .ok 0x480000 ∧
    (asidXlat carded (.card 1 0) 2 4 0x80000 .read).1.holds = carded.holds ∧ badIn carded 0x480000 32 = none ∧
    ((tfind (partOf (agedCard fun c => { c with aged := 1000000 }) 1).cards 0).map fun c => (c.ready, c.aged)) = some (false, 1000000) ∧
    ((tfind (partOf (agedCard fun c => { c with pageWait := some (4, 8), pageTicks := 100000 }) 1).cards 0).map fun c => (c.pageWait, c.pageTicks)) =
      some (some (4, 8), 100000) ∧
    (claimants (aged .ready 0) 1).map Item.id = [.entry 9] := by decide +kernel

/-- R302, R306: a card not yet read rises; its page wait ends. -/
theorem test_cardTurns :
    (ran (.agingStep (.card 1 0)) (agedCard fun c => { c with aged := 1000000 })).map (fun t => (tfind t.entries 9).map JqEntry.prio) = some (some 1) ∧
    (ran (.pageWaitTimeout (.card 1 0)) (agedCard fun c => { c with pageWait := some (4, 8), pageTicks := 100000 })).map
      (fun t => (partOf t 1).cards.map fun c => c.2.pageWait) = some [none] := by decide +kernel

/-- A request of a FROZEN VF's class; a QUERY of a tile between selection and match, and of a thread at either. -/
def frozenHandler : State := setVf (handler 20 0 []) 2 { vf2 with state := 3 }

theorem witness_QueueWaits : frozenClass frozenHandler 1 5 = true ∧ frozenClass (handler 20 0 []) 1 5 = false ∧
    frozenHandler.cur = .thread 20 ∧ (checkHandle frozenHandler 1 (some 2) (rx frozenHandler 10) 2).map HandleSlot.cls = some 5 ∧
    (checkHandle frozenHandler 1 (some 2) (rx frozenHandler 10) 4).map HandleSlot.cls = some 5 ∧
    (inSelect alone).cur = .tile 0 .S ∧ (inSelect alone).selected = true ∧ alone.selected = false := by decide +kernel

theorem witness_FrozenReady : JqReady frozenHandler 20 .afterMatch ∧ JqReady (inSelect frozenHandler) 20 .inSelect ∧
    ¬ JqReady (inSelect frozenHandler) 20 .beforeSelect :=
  ⟨jqReady (by decide +kernel) (fun _ => rfl) (by simp), jqReady (by decide +kernel) (by simp) (fun _ => rfl),
    fun h => absurd (h.2.1 (by simp)) (by decide +kernel)⟩

/-- The waits leave the entry and the answer's register alone. -/
theorem test_queueWaits : gives (.jqctlThaw 20 10 5) frozenHandler 20 = some (0, 0x100) ∧
    gives (.jqctlTake 20 10 11) (inSelect (entryIn .ready frozenHandler)) 20 = some (0, 0x100) ∧
    gives (.jqctlQuery 20 10 11) (inSelect alone) 20 = some (0, 0x10000) := by decide +kernel

/-- Thread 16 in turn with DBGSEL at x1 of tile 0, which is halted, or stands. -/
def debugging (d : Debug) (l : Nat) (sel : Word) : State :=
  { debugged d none with threads := (thread 16 l fun h => { h with dbgsel := sel }).threads }

/-- A read, a write and a set; a halted tile and one that runs; a Guest; spaces 1, 6 and 9, and a tile in turn. -/
theorem witness_DebugDataWords : ScalarTurn (debugging .halted 1 (8 * 2 ^ 32 + 2 ^ 8)) ∧ ScalarTurn alone ∧
    ((debugging .halted 1 (8 * 2 ^ 32 + 2 ^ 8)).cur = .thread 16 ∧ alone.cur = .tile 0 .S ∧
      (csrWriteRule (rx alone) (.csrw 10 0x408)).isSome = true ∧ (csrWriteRule (rx alone) (.csrx 20 10 0x408)).isSome = true) ∧
    (∀ l ∈ [0, 1], (thrOf (debugging .halted l 0) 16).level = l) ∧
    (seenHalted (debugging .halted 1 0) 16 0 = true ∧ seenHalted (debugging .none 1 0) 16 0 = false ∧ seenHalted (debugging .halted 1 0) 0 0 = true) ∧
    (∀ z ∈ [1, 6, 9], dbgSpace (BitVec.ofNat 64 (8 * 2 ^ 32 + z * 2 ^ 8)) = z) ∧
    (∀ st ∈ [Stream.S, .V, .M, .A], (strm (tileOf (debugging .halted 1 0) 0) st).fpsr.toNat < 64) := by
  refine ⟨.inr ⟨16, rfl⟩, alone_scalar, ?_, ?_, ?_, ?_, ?_⟩ <;> decide +kernel

/-- R120: x1 of the tile is read, OFFSET moves on to x2; a write to a tile that runs does nothing and sets ERR. -/
theorem test_debugDataWords :
    (ran (.csrr 20 0x408) (debugging .halted 1 (8 * 2 ^ 32 + 2 ^ 8))).map (fun t => (rx t 20, bfld (thrOf t 16).dbgsel 52 32, (thrOf t 16).dbgErr)) =
      some (0xFFFFFFFFFFFFFFF9, 16, false) ∧
    (ran (.csrw 2 0x408) (debugging .halted 1 (8 * 2 ^ 32 + 2 ^ 8))).map (fun t => (vget (tileOf t 0).x 1, pcOf t)) = some (2, 0x104) ∧
    (ran (.csrw 2 0x408) (debugging .none 1 (8 * 2 ^ 32 + 2 ^ 8))).map (fun t => (vget (tileOf t 0).x 1, (thrOf t 16).dbgErr)) =
      some (0xFFFFFFFFFFFFFFF9, true) := by decide +kernel

/-- A local SEND whose data lie in a segment that is held, and one whose do not. -/
def sendsFromMem (b : Bool) : State :=
  setVf (sender 20 0 1 [0, 0, 2 ^ 61 + 16, 0x80000, 0]) 2 { vf2 with segHeld := b }

theorem witness_SendRows : (∀ b ∈ [true, false], (sdRow (sendsFromMem b) 20 (localRecord (sendsFromMem b) 64 5)).2 = !b) := by decide +kernel

/-! ### Held accesses, copies and saves -/

/-- A TLBI of thread 16 while thread 20's access, translated by a leaf of ASID 4 or 5, is held at the row of VF 2. -/
def heldLeaf (asid : Nat) : State :=
  { setVf (modTile invalidating 0 fun T => { T with task := some task0 }) 2 { vf2 with segHeld := true } with
    holds := [{ who := .fetch 0 .S, vf := 2, va := 0x5000, ipa := some 0x5000, leaf := some { leaf4 with asid := asid } }] }

/-- Every kind of TLBI, of an address at both ends of the page; an EVICTING expert that an access is held at, and a walk. -/
def heldExpert (ipa : Option Nat) : State :=
  { lodge 3 fun e => { e with frames := [loanIpa] } with holds := [{ who := .thread 20, vf := 2, va := 0x401FFFFF, ipa := ipa }] }

theorem witness_HeldTurns :
    (∀ a ∈ [4, 5], partOfThread (heldLeaf a) 16 = some 1 ∧ (thrOf (heldLeaf a) 16).wait = .tlbi 0 0x5000 4) ∧
    (∀ k ∈ [0, 1, 2], (thrOf (steward fun h => { h with wait := .tlbi k 0x13FFF 4 }) 16).wait = .tlbi k 0x13FFF 4) ∧
    (heldLeaf 4).holds.map (holdLives (heldLeaf 4)) = [true] ∧ (vfOfAsid (heldLeaf 4) 4).map (fun v => (vfOf (heldLeaf 4) v).part) = some 1 ∧
    ((tfind (heldExpert (some loanIpa)).lodging 3).map (fun e => (e.state, expertHeld (heldExpert (some loanIpa)) e)) = some (3, true) ∧
      (tfind (heldExpert none).lodging 3).map (fun e => (e.state, expertHeld (heldExpert none) e)) = some (3, false)) := by
  refine ⟨?_, ?_, ?_, ?_, ?_, ?_⟩ <;> decide +kernel

/-- R347, R357: a held access of the entry's ASID or expert holds the TLBI and the eviction back. -/
theorem test_heldTurns :
    (ran (.tlbiComplete 16) (heldLeaf 4)).map (fun t => (thrOf t 16).wait) = some (.tlbi 0 0x5000 4) ∧
    (ran (.tlbiComplete 16) (heldLeaf 5)).map (fun t => (thrOf t 16).wait) = some .none ∧
    lodgeState (.evictionComplete 3) (heldExpert (some loanIpa)) = some (some 3) ∧
    lodgeState (.evictionComplete 3) (heldExpert none) = some (some 0) := by decide +kernel

/-- A Guest's copy of 4 bytes from IPA 0x80000 to 0x80010, with a done counter and an event. -/
def guestCopy : Drover :=
  { drover .copy with vf := some 2, src := 0x80000, dst := 0x80010, done := some 70, notify := some (20, { summary := 0, record := [] }) }
def copies : State := { withMem steward (mwrite [] 0x480000 [1, 2, 3, 4]) with drovers := [(8, guestCopy)] }

/-- A copy into a frame that a snapshot has still to save, and a save asked for out of turn. -/
def unsavedCopy : State := { droving .copy with snapshots := [shot true [] [(0, 0x200000), (17, 0x310000)]] }
def asked17 : State :=
  { saving [] [(0, 0x200000), (17, 0x310000)] with
    drovers := [(8, { drover (.save (.partition 1)) with src := 0, dst := 0x300000 + 65536 * 18, length := 65536 })] }

theorem witness_Copies :
    ((tfind copies.drovers 8).map (fun x => (x.kind, x.vf, x.length - x.pos)) = some (.copy, some 2, 4) ∧ (vfOf copies 2).state ≠ 3 ∧
      (vfOf copies 2).segHeld = false ∧ copies.holds.length = 0 ∧
      ∀ j ∈ [0, 1, 2, 3], stage2 copies 2 (0x80010 + j) = .ok (0x480010 + j) ∧ stage2 copies 2 (0x80000 + j) = .ok (0x480000 + j) ∧
        unsaved copies (0x480010 + j) 1 = false) ∧
    ((tfind unsavedCopy.drovers 8).map Drover.vf = some none ∧ unsaved unsavedCopy 0x310000 4 = true ∧
      0x310000 < 0x310000 + 65536 ∧ 0x310000 < 0x310000 + 4) ∧
    ((saveRequest asked17 (.partition 1)).map (fun r => (r.1, r.2.unit)) = some (8, some 0) ∧
      (asked17.snapshots.flatMap fun x => (x.frames.find? fun f => decide (x.loc.toNat + 65536 * (f.1 + 1) = 0x300000 + 65536 * 18)).toList) =
        [(17, 0x310000)] ∧ asked17.snapshots.all (fun x => !x.nvme && !frameAwaits asked17 x 0x310000) = true ∧
      (saveDown asked17 (shot true [] []) { drover .copy with dst := 0x300000 + 65536 * 18, length := 65536 }) = false) := by
  refine ⟨⟨?_, ?_, ?_, ?_, ?_⟩, ?_, ?_⟩ <;> decide +kernel

/-- R404, R372: bytes, counter and event; a copy waits and its frame is wanted; the frame asked for is saved. -/
theorem test_copies :
    (ran (.droverComplete 8 false) copies).map (fun t => (mget t.mem 0x480013, tget 0 t.counters 70, (thrOf t 20).queue.length)) = some (4, 1, 1) ∧
    (ran (.droverComplete 8 false) unsavedCopy).map (fun t => (t.snapshots.map Snapshot.wanted, t.drovers.length, mget t.mem 0x310000)) =
      some ([[0x310000]], 1, 0) ∧
    (ran (.snapshotFrameSave (.partition 1)) asked17).map (fun t => (t.snapshots.map fun x => x.frames, t.drovers.map fun x => x.2.dst)) =
      some ([[(0, 0x200000)]], [0x310000]) := by decide +kernel

/-! ### Ports, acknowledgements and reads -/

/-- Port 8, and port 7 of a link that is down; a repeat to a FROZEN VF and to one asked to freeze; a landing that waits while a
snapshot runs; a message whose first packet has come, of another kind. -/
theorem witness_PacketPorts :
    (8 ≤ ({ packet false with port := 8 } : Packet).port ∧ 7 < 8 ∧
      (PortKind.purlin, 7) ∈ ({ base with linksDown := [(.purlin, 7)] } : State).linksDown) ∧
    (let s : State := { setVf (bookedAt 0) 2 { vf2 with state := 3 } with accepted := [(packetKey (packet false), 11, 12)] }
     packetSeen s (packet false) = true ∧ packetVf s (packet false) = some 2 ∧ (vfOf s 2).state = 3) ∧
    (let s : State := { setVf (bookedAt 0) 2 { vf2 with freezeCtr := some none } with accepted := [(packetKey (packet false), 11, 12)] }
     packetSeen s (packet false) = true ∧ (vfOf s 2).freezeCtr ≠ none) ∧
    (let s : State := { bookedAt 2 [bound 2 4 2] with snapshots := [shot true [] [(0, 0x480000)]] }
     landWaits s (some 9) (bound 2 4 2) 2 2 = true ∧ s.snapshots.length = 1) := by decide +kernel

theorem test_packetPorts :
    (ran (.packetArrival { packet false with port := 8 }) (bookedAt 0)).map (fun t => (t.inbound.length, t.wire.length)) = some (0, 0) ∧
    (ran (.packetArrival { packet false with port := 7 }) { bookedAt 0 with linksDown := [(.purlin, 7)] }).map (fun t => t.wire.length) = some 0 ∧
    (ran (.packetArrival (packet false)) { setVf (bookedAt 0) 2 { vf2 with state := 3 } with accepted := [(packetKey (packet false), 11, 12)] }).map
      (fun t => t.wire) = some [.packet 6 11 true .retryLater] ∧
    (ran (.packetArrival (packet false)) { bookedAt 2 [bound 2 4 2] with snapshots := [shot true [] [(0, 0x480000)]] }).map
      (fun t => (t.wire, t.snapshots.map Snapshot.wanted, mget t.mem 0x480002)) = some ([.packet 6 11 true .retryLater], [[0x480000]], 0) := by
  decide +kernel

/-- An RMA read of 4 bytes to IPA 0x80000, of which some have landed. -/
def reading (got : Nat) : State :=
  { base with outbound := [(5, { send := { send9 with op := 2, length := 4, srcAddr := 0x80000 }, got := got,
                                 packets := [{ sent := true, port := some 0, tries := 1 }] })] }

/-- The only packet of a send acknowledged already, its VF FROZEN since or not. -/
def ackedAll (frozen : Bool) : State :=
  { (if frozen then setVf base 2 { vf2 with state := 3 } else base) with
    outbound := [(5, { send := send9, packets := [{ sent := true, port := some 0, tries := 1, acked := true }] })] }

/-- Slot 8 of partition 1 over Purlin to device 7, whose route takes ports 1 and 3; and the same with no port up. -/
def routed (down : List (PortKind × Nat)) : State :=
  let s := modPart (sending 1 0 none 0 none) 1 fun q => { q with endpoints := tset 0 (tset 0 q.endpoints 32 0x20000) 33 7 }
  { s with routes := [(7, 0x0A)], linksDown := down }

theorem witness_Acknowledgements :
    ((tfind (reading 0).outbound 5).map (fun o => (o.send.op, o.send.vf)) = some (2, some 2) ∧
      (tfind (reading 0).outbound 5).map (fun o => o.packets.map fun p => (p.acked, p.sent, p.port.isSome)) = some [(false, true, true)] ∧ (reading 0).holds.length = 0 ∧ writeWaits (reading 2) (some 2) 0x80002 2 = false) ∧
    (∀ b ∈ [true, false], (tfind (ackedAll b).outbound 5).map (fun o => (o.packets.all OutPacket.acked, isFrozen (ackedAll b) o.send.vf)) = some (true, b)) ∧
    (bfld (epWord (partOf (routed []) 1) 8 0) 19 16 = 2 ∧ bfld (epWord (partOf (routed []) 1) 8 1) 11 0 = 7 ∧ (routed []).purlinId ≠ 7 ∧
      (tget 0 (routed []).routes 7).getLsbD 3 = true ∧ (routed [(.purlin, 1), (.purlin, 3)]).linksDown.length = 2) ∧
    (isFrozen base (some 2) = false ∧ packetWaits (sending 0 0 none 0 none) send9 0 = false ∧ (sending 0 0 none 0 none).holds.length = 0) := by
  refine ⟨?_, ?_, ?_, ?_⟩ <;> decide +kernel

/-- R389, R388: a response in part and whole; a settled send; a try with every port down. -/
theorem test_acknowledgements :
    (ran (.ackArrival ⟨5, 0⟩ [7, 8]) (reading 0)).map (fun t => (t.outbound.map fun o => o.2.got, mget t.mem 0x480001)) = some ([2], 8) ∧
    (ran (.ackArrival ⟨5, 0⟩ [7, 8, 9]) (reading 2)).map (fun t => (t.outbound.length, mget t.mem 0x480003, mget t.mem 0x480004)) = some (0, 8, 0) ∧
    (ran (.ackArrival ⟨5, 0⟩ []) (ackedAll true)).map (fun t => t.outbound.length) = some 1 ∧
    (ran (.ackArrival ⟨5, 0⟩ []) (ackedAll false)).map (fun t => t.outbound.length) = some 0 ∧
    (ran (.retransmitTimeout ⟨5, 0⟩) (routed [(.purlin, 1), (.purlin, 3)])).map (fun t => t.outbound.map fun o => o.2.packets.map fun p => (p.port, p.tries)) =
      some [[(some 0, 2)]] := by decide +kernel

/-! ### Records of VFs and partitions, and the ends of commands -/

/-- A record of a partition of bay 1: 2 MiB of carve-out, the last thread as its Steward, the last VF, one counter. -/
def partRecord (bays : Word) : List Word :=
  [bays, 0x20000000, 0x200000, 0, 0, BitVec.ofNat 64 (2 ^ 32 + 2 ^ 16 + 1023), BitVec.ofNat 64 (127 * 2 ^ 57 + 2 ^ 49 + 2 ^ 32), BitVec.ofNat 64 (2 ^ 48), 0, 0]

theorem witness_Records : VfRecordOk steward 1 vfRecord ∧ ¬ VfRecordOk steward 1 (vfRecord.set 6 1) ∧
    ¬ VfRecordOk (setPart steward 1 { partOf steward 1 with deleting := some (some 5) }) 1 vfRecord := by
  unfold VfRecordOk; refine ⟨?_, ?_, ?_⟩ <;> decide +kernel

theorem witness_PartRecords : PartRecordOk keeper (partRecord 2) ∧ ¬ PartRecordOk keeper (partRecord 1) ∧ ¬ PartRecordOk keeper (partRecord 0) := by
  refine ⟨?_, fun h => absurd (h.2.2.2.2.2.2.2.2.2.2.2.2.2.2.2.2.2.2.2.2.2.2.2.2.2.2.2 (partOf keeper 1) (by decide +kernel)).1 (by decide +kernel),
    fun h => h.2.1 rfl⟩
  have hc : ∃ c, CountersFree keeper 1 c := ⟨96, by unfold CountersFree; decide +kernel⟩
  unfold PartRecordOk
  repeat' apply And.intro
  all_goals first
    | exact hc
    | decide +kernel

theorem test_createPart : (createPart keeper 2 (partRecord 2)).map (fun t => ((partOf t 2).ctrFirst, (partOf t 2).thrFirst, (thrOf t 1023).level, (thrOf t 1023).held)) =
      some (0, 1023, 1, true) ∧ (createPart keeper 2 (partRecord 1)).isNone = true ∧ (createPart keeper 1 (partRecord 2)).isSome = true := by decide +kernel

/-- A VF of no partition of the writer, and a Keeper's VFCTL; commands 0 and 7; a counter that names nothing; PART 40. -/
theorem witness_CommandRegisterCases :
    (partOfThread steward 16 = some 1 ∧ partOfVf steward 4 = none ∧ partOfThread keeper 0 = none ∧ partOfVf steward 3 = some 1) ∧
    (bfld (vfctl5 0 2) 10 8 = 0 ∧ bfld (vfctl5 7 2) 10 8 = 7) ∧ stewardCtr steward 1 32 = false ∧
    (tileInPart (partOf steward 1) 0 = true ∧ tileInPart (partOf steward 1) 255 = false) ∧
    (∀ k ∈ [1, 2], bfld (BitVec.ofNat 64 (5 * 2 ^ 16 + k * 256 + 40)) 5 0 = 40 ∧ keeperCtr keeper 5 = true ∧ keeperCtr keeper 64 = false) := by
  decide +kernel

theorem test_commandRegisterCases :
    vfctl steward 16 (vfctl5 2 4) = none ∧ (vfctl steward 16 (vfctl5 7 2)).isSome = true ∧
    dbgctl steward 16 0x1FF = none ∧ (dbgctl steward 16 0x0FF).isSome = true ∧ dbgctl steward 16 0x404 = none ∧
    (ran (.vfctlTear 16 (BitVec.ofNat 64 (32 * 2 ^ 16 + 4 * 256 + 2))) steward).map (fun t => (bfld (thrOf t 16).vfstat 9 8, (vfOf t 2).state)) = some (1, 2) ∧
    (ran (.partctlDelete 0 (BitVec.ofNat 64 (5 * 2 ^ 16 + 512 + 40))) keeper).map (fun t => (bfld (thrOf t 0).partstat 9 8, tget 0 t.counters 5)) = some (1, 1) := by
  decide +kernel

/-- A FREEZE of thread 16 that can complete; one whose VF has a message under way. -/
def freezing16 (ms : List InMessage) : State :=
  { setVf (steward fun h => { h with vfstat := 514 }) 2 { vf2 with freezeCtr := some (some 69), cmdThread := some 16 } with
    gangs := [], inbound := ms.map fun m => (9, m) }

/-- A TEAR of thread 16 with a counter and a host's ring of 16 entries, at which `used` stand. -/
def tearing16 (used : Nat) : State :=
  { setVf (steward fun h => { h with vfstat := 514 }) 2
      { vf2 with state := 4, tearCtr := some (some 69), cmdThread := some 16, cplLog2 := 4, cplBase := 0x1000, cplNext := BitVec.ofNat 64 used,
                 cplHead := 0, discarded := 3, msix := 1 } with gangs := [] }

theorem witness_CommandEnds :
    ((vfOf (freezing16 []) 2).freezeCtr = some (some 69) ∧ (vfOf (freezing16 []) 2).state = 2 ∧ (freezing16 []).gangs.length = 0 ∧
      (∀ n ∈ [20, 21, 22, 23], (thrOf (freezing16 []) n).handler = none) ∧ (freezing16 []).inbound.length = 0 ∧
      (freezing16 [bound 2 4 0]).inbound.map (fun m => m.2.vf) = [2]) ∧
    (∀ u ∈ [0, 15, 16], (vfOf (tearing16 u) 2).tearCtr = some (some 69) ∧ (vfOf (tearing16 u) 2).state = 4 ∧ (vfOf (tearing16 u) 2).cplWaiting = [] ∧
      decide (((vfOf (tearing16 u) 2).cplNext - (vfOf (tearing16 u) 2).cplHead).toNat = 2 ^ 4) = decide (u = 16)) ∧
    (partOf (tearing16 0) 1).deleting = none ∧ (thrOf (tearing16 0) 16).vfstat = BitVec.ofNat 64 (512 + 2) ∧ ∀ t, (tileOf (tearing16 0) t).publishes.length = 0 := by
  refine ⟨?_, ?_, ?_, ?_, ?_⟩ <;> decide +kernel

/-- R99, R104, R122: RESULT reads 0 and the counter is 1 at either end; CONTEXT_GONE with the count of discards is the ring's entry 15,
and a full ring is waited for. -/
theorem test_freezeEnds :
    (ran (.freezeComplete 2) (freezing16 [])).map (fun t => ((vfOf t 2).state, tget 0 t.counters 69, (thrOf t 16).vfstat)) = some (3, 1, 2) ∧
    (ran (.freezeComplete 2) (freezing16 [bound 2 4 0])).map (fun t => ((vfOf t 2).state, tget 0 t.counters 69)) = some (2, 0) := by decide +kernel

theorem test_tearEnds :
    (ran (.teardownComplete 2) (setVf (tearing16 0) 2 { vfOf (tearing16 0) 2 with cplLog2 := 0 })).map
      (fun t => ((vfOf t 2).state, tget 0 t.counters 69, (thrOf t 16).vfstat)) = some (0, 1, 2) := by decide +kernel

theorem test_lastEntry : ([0, 4, 5, 8, 9, 16, 17].map fun i => mget (lastEntry (tearing16 15) 2).mem (hostBase + 0x1000 + 32 * 15 + i)) =
    [0, 15, 0, 5, 0, 3, 0] := by decide +kernel

theorem test_tearWaits :
    (ran (.teardownComplete 2) (tearing16 16)).map (fun t => ((vfOf t 2).state, tget 0 t.counters 69)) = some (4, 0) := by decide +kernel

/-- DBGDATA's outside read and write at a halted tile and at one that runs. -/
theorem witness_DebugTurns : (∀ d ∈ [Debug.halted, .none], seenHalted (debugging d 1 (2 ^ 8)) 16 0 = decide (d = .halted)) ∧
    levelOf (debugging .halted 1 (2 ^ 8)) 16 = 1 ∧ dbgSpace (2 ^ 8) = 1 := by decide +kernel

/-- A FROZEN VF's slot and one that is not; words read by a waiting WAITV; a thread parked in EVGET; commands that read and that do
not (R415, R428). -/
def frozenSlot (n : Nat) : State := setVf (endpointed steward) 2 { vf2 with state := n }
def watchful (k : CmdKind) (b : Bool) : State :=
  { running false k fun T => { T with cmdsA := T.cmdsA.map fun c => { c with started := b } } with power := .booted }

theorem witness_ErrorTurns :
    (∀ n ∈ [2, 3], epValid (partOf (frozenSlot n) 1) 9 = true ∧ (vfOf (frozenSlot n) (Fin.ofNat 128 (epVf (partOf (frozenSlot n) 1) 9))).state = n) ∧
    (scalarReads (waitsFor 6 0) 0 = true ∧ (waitsFor 6 0).power = .booted) ∧
    ((thrOf (guest fun h => { h with wait := .evget 20 }) 20).wait = .evget 20 ∧ (thrOf guest 20).held = false) ∧
    (∀ b ∈ [true, false], (findCmd (tileOf (watchful (.copyin copied false) b) 0) false 4).map (fun c => (c.started, c.landed, readsStores c)) =
      some (b, false, true)) ∧ readsStores (pending (.pegp 3)) = false := by decide +kernel

theorem test_errorTurns :
    (ran (.endpointSlot 16 1 9 0 5) (frozenSlot 3)).map (fun t => epWord (partOf t 1) 9 0) = some (epWord (partOf (frozenSlot 3) 1) 9 0) ∧
    (ran (.endpointSlot 16 1 9 0 5) (frozenSlot 2)).map (fun t => epWord (partOf t 1) 9 0) = some 0x200000005 ∧
    (runWorld (watchful (.copyin copied false) true) (.eccCommand 0 false 4 0x40)).gangs.length = 0 ∧
    (runWorld (watchful (.pegp 3) true) (.eccCommand 0 false 4 0x40)).gangs.length = 1 ∧
    (runWorld (waitsFor 6 0) (.eccWord 0 .S 0x40)).gangs.length = 0 := by decide +kernel

/-! ### Fates of pages and chunks, and where stores go -/

/-- A page fault outside every expert's range, in one, and with 4096 pager records standing; the page in an address's 64 KiB. -/
def pagerFull : State := setPart (faulting false) 1 { partOf (faulting false) 1 with pagerRecords := 4096 }
def inExpert : State := { faulting false with lodging := [(3, { lodged 0 with vbase := 0x200000 })] }

/-- The gang of a card's chunk, whose card has another chunk running or none. -/
def cardChunk (ls : List Nat) : State :=
  let s := chunked fun c => { c with live := ls }
  { faulting false with gangs := [(1, { gang1 with chunk := some (0, 0, 4), entry := 0 })], parts := s.parts, entries := s.entries }

theorem witness_PageFates :
    ((faulting false).lodging.length = 0 ∧ (partOf (faulting false) 1).pagerRecords = 0) ∧ (partOf pagerFull 1).pagerRecords = 4096 ∧
    (inExpert.lodging.map fun e => decide (e.2.vf = 2 ∧ e.2.vbase ≤ 0x234567 ∧ 0x234567 < e.2.vbase + e.2.length)) = [true] ∧
    (∀ ls ∈ [[1], [1, 2]], (gangOf (cardChunk ls) 1).map Gang.chunk = some (some (0, 0, 4)) ∧
      (tfind (partOf (cardChunk ls) 1).cards 0).map (fun c => (c.entry, c.live)) = some (9, ls) ∧ (tfind (cardChunk ls).entries 9).isSome = true) := by
  decide +kernel

/-- R351, R305: a record for the pager of page 0x23 from offset 0x34567, none at 4096 records or in an expert; the chunk's first record
and count are kept, and the entry is FAULTED with no other chunk. -/
theorem test_pageFates :
    (raised (faulting false) 0x07 0x234567).map (fun t => ((thrOf t 16).queue.map fun e => (bfld (e.record.headD 0) 15 0, e.record.getD 2 0),
      (partOf t 1).pagerRecords)) = some ([(7, 0x234567)], 1) ∧
    (raised pagerFull 0x07 0x234567).map (fun t => (thrOf t 16).queue.length) = some 0 ∧
    (raised inExpert 0x07 0x234567).map (fun t => (thrOf t 16).queue.length) = some 0 ∧
    (raised (cardChunk [1]) 0x03 0).map (fun t => ((partOf t 1).cards.map (fun c => (c.2.stopped, c.2.redeal)), t.entries.map fun e => e.2.state)) =
      some ([(true, [(0, 4)])], [.faulted]) ∧
    (raised (cardChunk [1, 2]) 0x03 0).map (fun t => t.entries.map fun e => e.2.state) = some [.dispatched] := by decide +kernel

/-- A publish with a store to a member of this device and an increment: the member's segment and the 8 bytes are where they go. -/
def memberPublish : Publish :=
  { publish .phase with stores := [{ dest := .member 0 0 0 2 0, addr := 0x80000, bytes := [{ off := 3, lo := true, hi := true, val := 9 }] }],
                        effects := [.incr 2 0x80040 5] }
def memberPublishing : State := onTile0 id fun T => { T with sWait := .publish, publishes := [memberPublish], pubs := 1 }

theorem witness_MemberStores : (tileOf memberPublishing 0).publishes = [memberPublish] ∧ memberPublishing.purlinId = 0 ∧
    memberPublishing.snapshots.length = 0 ∧ stage2 memberPublishing 2 0x80040 = .ok 0x480040 ∧ (vfOf memberPublishing (Fin.ofNat 128 2)).segBase = 0x400000 := by
  refine ⟨?_, ?_, ?_, ?_, ?_⟩ <;> decide +kernel

/-- The Keeper's threads belong to no VF, so their words come from the firmware. -/
theorem witness_FirmwareThreads : vfOfThread (firm 4) 0 = none := by decide +kernel

end Sys2Proof.Tests
end

section
/-! SUPPORT. Every step keeps every memory canonical (O59). One lemma for each function of the model that answers a state:
it is canonical where the state before is. A lemma `Canonical_f` is about a function that answers a state, a result or an
optional state, `wf_f` about one that answers a tile or a thread. Few of them change bytes, and those do so by `mset`,
`mwrite`, `mzero` and filters, which the laws of the canonical form cover. -/

namespace Sys2Proof.Machine

open Sys2Proof.Safety

/-- The next state, if an answer holds one, is canonical. -/
inductive CanonicalNext : Result → Prop
  | next {s : State} (hs : Canonical s) : CanonicalNext (.next s)
  | fault {f : Fault} : CanonicalNext (.fault f)
  | refused {r : Refusal} : CanonicalNext (.refused r)

/-- The state, if there is one, is canonical. -/
inductive CanonicalSome : Option State → Prop
  | some {s : State} (hs : Canonical s) : CanonicalSome (some s)
  | none : CanonicalSome none

/-- The canonical form reads eight fields only: an update of any others keeps it. -/
theorem Canonical_update {s : State} {agenda : List Turn} {cur : Agent}
    {freeCtr seq ik portCycle powerLimit drawn firmwareSize bookPos dropped purlinId pfState : Nat}
    {selected bootSlot : Bool} {dies : Vector DieClock 4} {power : Power} {flashWrites : List FlashWrite}
    {bootSeq scrubFixed scrubLost : Word} {mr0 mr1 : BitVec 256} {olds : List OldValue} {marks : Table (List Mark)}
    {holds : List HeldAccess} {kept : List KeptEntry} {owners routes : Table (BitVec 8)} {zeroing bad : List Nat}
    {namespaces : Table (Nat × Nat)} {parts : Vector Partition 40} {vfs : Vector Vf 128} {gangs : Table Gang}
    {entries : Table JqEntry} {reserved : List VfId} {arrivals : List Arrival} {counters : Table Word}
    {heldCounts : List (Nat × Word)} {bookings : Table Booking} {lodging : Table Lodging} {drovers : Table Drover}
    {lastServed downAt : Table Nat} {decoders : List Decoder} {timers : Table Timer} {inbound : Table InMessage}
    {accepted : List (Nat × Nat × Nat)} {contexts : Table PartId} {outbound : Table OutSend}
    {nvmeAdmin : List NvmeCmd} {linksDown : List (PortKind × Nat)} {wire : List WireOut} (hs : Canonical s) :
    Canonical { s with
      agenda := agenda, cur := cur, freeCtr := freeCtr, seq := seq, ik := ik, portCycle := portCycle,
      selected := selected, dies := dies, powerLimit := powerLimit, drawn := drawn, power := power,
      flashWrites := flashWrites, bootSlot := bootSlot, bootSeq := bootSeq, firmwareSize := firmwareSize, mr0 := mr0,
      mr1 := mr1, olds := olds, marks := marks, holds := holds, kept := kept, owners := owners, zeroing := zeroing,
      namespaces := namespaces, scrubFixed := scrubFixed, scrubLost := scrubLost, bad := bad, parts := parts,
      vfs := vfs, gangs := gangs, entries := entries, reserved := reserved, arrivals := arrivals,
      counters := counters, heldCounts := heldCounts, bookPos := bookPos, bookings := bookings, lodging := lodging,
      drovers := drovers, lastServed := lastServed, decoders := decoders, timers := timers, inbound := inbound,
      accepted := accepted, contexts := contexts, outbound := outbound, nvmeAdmin := nvmeAdmin,
      linksDown := linksDown, downAt := downAt, dropped := dropped, purlinId := purlinId, routes := routes,
      pfState := pfState, wire := wire } := hs

theorem Canonical_flash {s : State} (h : Canonical s) : Memory.wf s.flash = true := h.2.1
theorem Canonical_nvme {s : State} (h : Canonical s) : Memory.wf s.nvme = true := h.2.2.2.1
theorem Canonical_peers {s : State} (h : Canonical s) : Memory.wf s.peers = true := h.2.2.2.2.1
theorem Canonical_image {s : State} (h : Canonical s) {x : Snapshot} (hx : x ∈ s.snapshots) :
    Memory.wf x.image = true := h.2.2.2.2.2.2.2 x hx

/-! Another memory, canonical itself, takes the place of one. -/

theorem Canonical_setMem {s : State} {m : Memory} {os : List OldValue} (hs : Canonical s) (hm : Memory.wf m = true) :
    Canonical { s with mem := m, olds := os } := by
  obtain ⟨-, rest⟩ := hs
  exact ⟨hm, rest⟩

theorem Canonical_setFlash {s : State} {m : Memory} (hs : Canonical s) (hm : Memory.wf m = true) :
    Canonical { s with flash := m } := by
  obtain ⟨h1, -, rest⟩ := hs
  exact ⟨h1, hm, rest⟩

theorem Canonical_setFirmware {s : State} {m : Memory} (hs : Canonical s) (hm : Memory.wf m = true) :
    Canonical { s with firmware := m } := by
  obtain ⟨h1, h2, -, rest⟩ := hs
  exact ⟨h1, h2, hm, rest⟩

theorem Canonical_setNvme {s : State} {m : Memory} (hs : Canonical s) (hm : Memory.wf m = true) :
    Canonical { s with nvme := m } := by
  obtain ⟨h1, h2, h3, -, rest⟩ := hs
  exact ⟨h1, h2, h3, hm, rest⟩

theorem Canonical_setPeers {s : State} {m : Memory} (hs : Canonical s) (hm : Memory.wf m = true) :
    Canonical { s with peers := m } := by
  obtain ⟨h1, h2, h3, h4, -, rest⟩ := hs
  exact ⟨h1, h2, h3, h4, hm, rest⟩

theorem Canonical_setSnapshots {s : State} {xs : List Snapshot} (hs : Canonical s)
    (hx : ∀ x ∈ xs, Memory.wf x.image = true) : Canonical { s with snapshots := xs } := by
  obtain ⟨h1, h2, h3, h4, h5, ht, hh, -⟩ := hs
  exact ⟨h1, h2, h3, h4, h5, ht, hh, hx⟩

theorem Canonical_mapSnapshots {s : State} {f : Snapshot → Snapshot} (hs : Canonical s)
    (hf : ∀ x, Memory.wf x.image = true → Memory.wf (f x).image = true) :
    Canonical { s with snapshots := s.snapshots.map f } := by
  refine Canonical_setSnapshots hs fun y hy => ?_
  obtain ⟨x, hx, rfl⟩ := List.mem_map.1 hy
  exact hf x (Canonical_image hs hx)

theorem Canonical_filterSnapshots {s : State} {f : Snapshot → Bool} (hs : Canonical s) :
    Canonical { s with snapshots := s.snapshots.filter f } :=
  Canonical_setSnapshots hs fun _ hx => Canonical_image hs (List.mem_filter.1 hx).1

theorem Canonical_of_eq {α : Type} {p : State × α} {t : State} {a : α} (e : p = (t, a)) (h : Canonical p.1) :
    Canonical t := by subst e; exact h
theorem Canonical_of_some {o : Option State} {t : State} (e : o = some t) (h : CanonicalSome o) : Canonical t := by
  subst e
  obtain hs | _ := h
  exact hs
theorem Canonical_of_next {r : Result} {t : State} (e : r = .next t) (h : CanonicalNext r) : Canonical t := by
  subst e
  obtain hs | _ | _ := h
  exact hs

theorem Canonical_ite {P : Prop} [Decidable P] {s t : State} (hs : Canonical s) (ht : Canonical t) :
    Canonical (if P then s else t) := by split <;> assumption
theorem Canonical_iteNext {P : Prop} [Decidable P] {a b : Result} (ha : CanonicalNext a) (hb : CanonicalNext b) :
    CanonicalNext (if P then a else b) := by split <;> assumption
theorem Canonical_iteSome {P : Prop} [Decidable P] {a b : Option State} (ha : CanonicalSome a) (hb : CanonicalSome b) :
    CanonicalSome (if P then a else b) := by split <;> assumption
theorem Canonical_iteFst {α : Type} {P : Prop} [Decidable P] {a b : State × α} (ha : Canonical a.1)
    (hb : Canonical b.1) : Canonical (if P then a else b).1 := by split <;> assumption
theorem wf_iteTile {P : Prop} [Decidable P] {a b : Tile} (ha : Memory.wf a.spad = true) (hb : Memory.wf b.spad = true) :
    Memory.wf (if P then a else b).spad = true := by split <;> assumption
theorem wf_iteThread {P : Prop} [Decidable P] {a b : Thread} (ha : Memory.wf a.store = true)
    (hb : Memory.wf b.store = true) : Memory.wf (if P then a else b).store = true := by split <;> assumption

theorem Canonical_getD {o : Option State} {s : State} (ho : CanonicalSome o) (hs : Canonical s) :
    Canonical (o.getD s) := by
  cases ho with
  | some ht => exact ht
  | none => exact hs

theorem Canonical_elim {α : Type} {o : Option α} {s : State} {f : α → State} (hs : Canonical s)
    (hf : ∀ a, Canonical (f a)) : Canonical (o.elim s f) := by
  cases o with
  | none => exact hs
  | some a => exact hf a

theorem Canonical_map {α : Type} {o : Option α} {f : α → State} (hf : ∀ a, Canonical (f a)) :
    CanonicalSome (o.map f) := by
  cases o with
  | none => exact .none
  | some a => exact .some (hf a)

theorem Canonical_bind {α : Type} {o : Option α} {f : α → Option State} (hf : ∀ a, CanonicalSome (f a)) :
    CanonicalSome (o.bind f) := by
  cases o with
  | none => exact .none
  | some a => exact hf a

/-- A fold keeps the canonical form where each of its steps does. -/
theorem Canonical_foldl {α : Type} {f : State → α → State} (hf : ∀ s a, Canonical s → Canonical (f s a)) {l : List α}
    {s : State} (h : Canonical s) : Canonical (l.foldl f s) :=
  List.foldlRecOn (motive := Canonical) l f h fun _ hs a _ => hf _ a hs

theorem wf_foldl {α : Type} {f : Tile → α → Tile} (hf : ∀ T a, Memory.wf T.spad = true → Memory.wf (f T a).spad = true)
    {l : List α} {T : Tile} (h : Memory.wf T.spad = true) : Memory.wf (l.foldl f T).spad = true :=
  List.foldlRecOn (motive := fun T => Memory.wf T.spad = true) l f h fun _ hT a _ => hf _ a hT

section

variable {s : State} {t : TileId} {n : ThreadId} {v : VfId} {p : PartId} {k : Task} {T : Tile} {id : Nat}
  {c : Cmd} {i : Instr} {st : Stream} {e : JqEntry} {r : JqClass} {onM : Bool} {g : Gang} {q sc : Fin 4} {w : List Word}
  {d : XReg} {pa va ipa : Nat}

/-! ### Fault records, stopping a gang, and taking a trap -/

theorem Canonical_modPart {f : Partition → Partition} (hs : Canonical s) :
    Canonical (modPart s p f) := Canonical_setPart hs _ _

theorem Canonical_modVf {f : Vf → Vf} (hs : Canonical s) : Canonical (modVf s v f) := Canonical_setVf hs _ _

theorem wf_setStrm {c : StreamCtx} (hT : Memory.wf T.spad = true) : Memory.wf (setStrm T st c).spad = true := by
  unfold setStrm
  split <;> exact hT

theorem wf_modStrm {f : StreamCtx → StreamCtx} (hT : Memory.wf T.spad = true) :
    Memory.wf (modStrm T st f).spad = true := wf_setStrm hT

theorem Canonical_done4 (hs : Canonical s) : CanonicalNext (done4 s) := .next (Canonical_advance hs _)

theorem Canonical_done2 (hs : Canonical s) : CanonicalNext (done2 s) := .next (Canonical_advance hs _)

theorem Canonical_fresh (hs : Canonical s) : Canonical (fresh s).2 := Canonical_update hs

theorem Canonical_sendVfFault {r : List Word} (hs : Canonical s) : Canonical (sendVfFault s v r) := by
  unfold sendVfFault
  dsimp only
  exact Canonical_sendEvent (Canonical_modVf hs) _ _

theorem Canonical_freezeClass {c : Nat} (hs : Canonical s) : Canonical (freezeClass s p c) := Canonical_modPart hs

theorem Canonical_unpin {pin : Option Nat} (hs : Canonical s) : Canonical (unpin s pin) := by
  unfold unpin
  split
  · exact hs
  · exact Canonical_update hs

theorem Canonical_freeEntry (hs : Canonical s) : Canonical (freeEntry s id) := by
  unfold freeEntry
  dsimp only
  split
  · exact hs
  · exact Canonical_update (Canonical_unpin (by split; exacts [Canonical_modPart hs, hs]))

theorem Canonical_faultEntry (hs : Canonical s) : Canonical (faultEntry s id) := by
  unfold faultEntry
  dsimp only
  split
  · exact hs
  · exact Canonical_update (Canonical_unpin hs)

theorem Canonical_releaseUnit (hs : Canonical s) : Canonical (releaseUnit s v) := Canonical_update hs

theorem Canonical_releaseEffects {es : List Effect} (hs : Canonical s) : Canonical (releaseEffects s es) := by
  induction es generalizing s with
  | nil => exact hs
  | cons x es ih => cases x <;> exact ih hs

theorem Canonical_modGang {g : Nat} {f : Gang → Gang} (hs : Canonical s) :
    Canonical (modGang s g f) := Canonical_update hs

theorem Canonical_dropHolds {p : HeldAccess → Bool} (hs : Canonical s) :
    Canonical (dropHolds s p) := Canonical_update hs

theorem Canonical_clearTile (hs : Canonical s) : Canonical (clearTile s t) := by
  unfold clearTile
  dsimp only
  exact Canonical_setTile (Canonical_dropHolds (Canonical_releaseEffects hs)) _ (Canonical_spad hs _)

theorem Canonical_clearTiles {l : List TileId} (hs : Canonical s) : Canonical (clearTiles s l) := by
  induction l generalizing s with
  | nil => exact hs
  | cons a l ih => exact ih (Canonical_clearTile hs)

theorem Canonical_abortGang (hs : Canonical s) : Canonical (abortGang s id) := by
  unfold abortGang
  split
  · exact hs
  · exact Canonical_modGang (Canonical_clearTiles hs)

theorem Canonical_dropGang (hs : Canonical s) : Canonical (dropGang s id) := Canonical_update hs

theorem Canonical_faultChunk {slot f n : Nat} (hs : Canonical s) :
    Canonical (faultChunk s p slot f n id) := Canonical_modPart hs

theorem Canonical_settleCardFault {slot : Nat} (hs : Canonical s) : Canonical (settleCardFault s p slot) := by
  unfold settleCardFault
  split
  · exact Canonical_ite (Canonical_faultEntry hs) hs
  · exact hs

theorem Canonical_faultGang (hs : Canonical s) : Canonical (faultGang s id) := by
  unfold faultGang
  dsimp only
  split
  · exact hs
  · split
    · exact Canonical_faultEntry (Canonical_freezeClass (Canonical_dropGang (Canonical_clearTiles hs)))
    · exact Canonical_settleCardFault (Canonical_faultChunk
        (Canonical_freezeClass (Canonical_dropGang (Canonical_clearTiles hs))))

theorem Canonical_sendPager {src : Nat} {pc va : Word} (hs : Canonical s) :
    Canonical (sendPager s t k src pc va) := by
  unfold sendPager
  dsimp only
  exact Canonical_ite (Canonical_sendEvent (Canonical_modPart hs) _ _) (Canonical_modPart hs)

theorem Canonical_pageWaitGang {src : Nat} {pc va : Word} (hs : Canonical s) :
    Canonical (pageWaitGang s t k src pc va) := by
  unfold pageWaitGang
  dsimp only
  exact Canonical_modGang (Canonical_abortGang (Canonical_ite hs (Canonical_sendPager hs)))

theorem Canonical_faultTile {src orig cause : Nat} {pc val : Word} (hs : Canonical s) :
    Canonical (faultTile s t k src orig cause pc val) := Canonical_faultGang (Canonical_sendVfFault hs)

theorem Canonical_tileTrapAt {src cause : Nat} {pc val : Word} {issued : Nat} (hs : Canonical s) :
    Canonical (tileTrapAt s t src cause pc val issued) := by
  unfold tileTrapAt
  dsimp only
  split
  · exact hs
  · split
    · split
      · exact Canonical_setTile hs _ (Canonical_spad hs _)
      · exact Canonical_ite (Canonical_setTile hs _ (Canonical_spad hs _)) hs
    · split
      · split
        · exact hs
        · exact Canonical_ite (Canonical_faultTile hs) (Canonical_pageWaitGang hs)
      · exact Canonical_faultTile hs

theorem Canonical_tileTrap {src cause : Nat} {pc val : Word} (hs : Canonical s) :
    Canonical (tileTrap s t src cause pc val) := Canonical_tileTrapAt hs

theorem wf_setTrapRegs {h : Thread} {l : Nat} {r : TrapRegs} (hH : Memory.wf h.store = true) :
    Memory.wf (setTrapRegs h l r).store = true := wf_iteThread hH hH

theorem Canonical_endHandler (hs : Canonical s) : Canonical (endHandler s n) := by
  unfold endHandler
  dsimp only
  split
  · exact Canonical_modThr hs _ fun _ h' => h'
  · split
    · exact Canonical_freeEntry (Canonical_modThr hs _ (fun _ h' => h'))
    · exact Canonical_modThr hs _ fun _ h' => h'

theorem wf_startThread {h : Thread} {ik : Nat} (hH : Memory.wf h.store = true) :
    Memory.wf (startThread h n ik).store = true := hH

theorem Canonical_parkThread (hs : Canonical s) : Canonical (parkThread s n) := by
  unfold parkThread
  dsimp only
  refine Canonical_modThr (Canonical_dropHolds (Canonical_endHandler hs)) _ ?_
  refine fun _ h' => ?_
  split
  · exact wf_startThread (wf_iteThread h' (wf_iteThread h' h'))
  · exact wf_iteThread h' (wf_iteThread h' h')

theorem Canonical_killThread {double cause : Nat} {pc val : Word} (hs : Canonical s) :
    Canonical (killThread s n double cause pc val) := Canonical_sendEvent (Canonical_parkThread hs) _ _

theorem Canonical_threadTrap {cause : Nat} {sw : Bool} {pc epc val : Word} (hs : Canonical s) :
    Canonical (threadTrap s n cause sw pc epc val) := by
  unfold threadTrap
  dsimp only
  split
  · exact Canonical_killThread hs
  · exact Canonical_setThr hs _ (by exact wf_setTrapRegs (Canonical_store hs _))

theorem wf_trapReturn {h : Thread} (hH : Memory.wf h.store = true) : Memory.wf (trapReturn h).store = true := by
  unfold trapReturn
  dsimp only
  exact wf_setTrapRegs hH

theorem Canonical_raise {cause : Nat} {val : Word} (hs : Canonical s) : CanonicalNext (raise s cause val) := by
  unfold raise
  split
  · exact .next (Canonical_tileTrap hs)
  · exact Canonical_iteNext (.next (Canonical_killThread hs)) (.next (Canonical_threadTrap hs))

theorem Canonical_illegal (hs : Canonical s) : CanonicalNext (illegal s i) := Canonical_raise hs

theorem Canonical_privilege (hs : Canonical s) : CanonicalNext (privilege s i) := Canonical_raise hs

theorem Canonical_onThread {f : ThreadId → Result} (hs : Canonical s) (hf : ∀ n, CanonicalNext (f n)) :
    CanonicalNext (onThread s i f) := by
  unfold onThread
  split
  · exact hf _
  · exact Canonical_illegal hs

theorem Canonical_onTileS {f : TileId → Task → Result} (hs : Canonical s) (hf : ∀ t k, CanonicalNext (f t k)) :
    CanonicalNext (onTileS s i f) := by
  unfold onTileS
  split
  · split
    · exact hf _ _
    · exact .next hs
  · exact Canonical_illegal hs

theorem Canonical_onTileV {f : TileId → Task → Result} (hs : Canonical s) (hf : ∀ t k, CanonicalNext (f t k)) :
    CanonicalNext (onTileV s i f) := by
  unfold onTileV
  split
  · split
    · exact hf _ _
    · exact .next hs
  · exact Canonical_illegal hs

theorem Canonical_onEngine {f : TileId → Stream → Task → Result}
    (hs : Canonical s) (hf : ∀ t st k, CanonicalNext (f t st k)) :
    CanonicalNext (onEngine s i f) := by
  unfold onEngine
  split
  · split
    · exact hf _ _ _
    · exact .next hs
  · split
    · exact hf _ _ _
    · exact .next hs
  · exact Canonical_illegal hs

theorem Canonical_onStream {f : TileId → Task → Result} (hs : Canonical s) (hf : ∀ t k, CanonicalNext (f t k)) :
    CanonicalNext (onStream s i st f) := by
  unfold onStream
  split
  · exact Canonical_iteNext (by split; exacts [hf _ _, .next hs]) (Canonical_illegal hs)
  · exact Canonical_illegal hs

/-! ### Memory as agents reach it -/

theorem Canonical_ctrSet {c : Nat} {w : Word} (hs : Canonical s) : Canonical (ctrSet s c w) := Canonical_update hs

theorem Canonical_zeroMem {a n : Nat} (hs : Canonical s) : Canonical (zeroMem s a n) :=
  Canonical_setMem hs (wf_mzero a n (Canonical_mem hs))

theorem Canonical_wantSaved {a n : Nat} (hs : Canonical s) : Canonical (wantSaved s a n) :=
  Canonical_mapSnapshots hs fun _ hx => hx

theorem Canonical_walkKeep {lvl : Nat} (hs : Canonical s) : Canonical (walkKeep s t va lvl) := by
  unfold walkKeep
  dsimp only
  split
  · exact hs
  · exact Canonical_ite hs (by split; exacts [Canonical_update hs, hs])

theorem Canonical_walkDrop {k : Nat} (hs : Canonical s) : Canonical (walkDrop s k) := Canonical_update hs

theorem Canonical_wantExpert {l : Nat} (hs : Canonical s) : Canonical (wantExpert s l) := Canonical_update hs

theorem Canonical_tileStage1 {r : Right} (hs : Canonical s) : Canonical (tileStage1 s t k va r).1 := by
  unfold tileStage1
  dsimp only
  split
  · exact hs
  · split
    · exact Canonical_ite (Canonical_wantExpert hs) hs
    · split
      · exact hs
      · split
        · exact hs
        · exact hs
        · exact hs
        · exact Canonical_modTile hs _ fun _ h' => h'

theorem Canonical_joinRow {h : HeldAccess} (hs : Canonical s) :
    Canonical (joinRow s h) := Canonical_ite (Canonical_update hs) hs

theorem Canonical_atRow {h : HeldAccess} (hs : Canonical s) : Canonical (atRow s h).1 :=
  Canonical_iteFst (Canonical_joinRow hs) (Canonical_iteFst (Canonical_dropHolds hs) hs)

theorem Canonical_stage2For {h : HeldAccess} (hs : Canonical s) : Canonical (stage2For s h ipa).1 := by
  unfold stage2For
  exact Canonical_iteFst (by split <;> exact Canonical_of_eq ‹_› (Canonical_atRow hs)) hs

theorem Canonical_tileXlatFor {who : Holder} {r : Right} (hs : Canonical s) :
    Canonical (tileXlatFor s who t k va r).1 := by
  unfold tileXlatFor
  dsimp only
  split
  · split <;> refine Canonical_of_eq ‹_› (Canonical_stage2For (Canonical_of_eq ‹_› ?_)) <;> split
    exacts [hs, Canonical_iteFst (Canonical_tileStage1 hs) hs, hs, Canonical_iteFst (Canonical_tileStage1 hs) hs]
  · refine Canonical_joinRow (Canonical_of_eq ‹_› ?_)
    split
    · exact hs
    · exact Canonical_iteFst (Canonical_tileStage1 hs) hs
  · exact Canonical_of_eq ‹_› (by split; exacts [hs, Canonical_iteFst (Canonical_tileStage1 hs) hs])

/-! ### Operand forms -/

theorem Canonical_scalar {f : Result} (hs : Canonical s) (hf : CanonicalNext f) : CanonicalNext (scalar s i f) := by
  unfold scalar
  split
  · exact hf
  · exact hf
  · exact Canonical_illegal hs

/-! ### Memory as agents reach it -/

theorem Canonical_tileXlat {r : Right} (hs : Canonical s) :
    Canonical (tileXlat s t k va r).1 := Canonical_tileXlatFor hs

theorem Canonical_seeAll {sees : OldValue → Bool} (hs : Canonical s) :
    Canonical (seeAll s t sees) := Canonical_update hs

theorem Canonical_carryBy {who : Nat} {o : Over} (hs : Canonical s) :
    Canonical (carryBy s who o) := Canonical_update hs

theorem Canonical_carryThread (hs : Canonical s) : Canonical (carryThread s n) := Canonical_carryBy hs

theorem Canonical_observe {ms : List Mark} (hs : Canonical s) :
    Canonical (observe s t ms) := Canonical_ite hs (Canonical_modTile hs _ (fun _ h' => h'))

theorem Canonical_observeThread {ms : List Mark} (hs : Canonical s) : Canonical (observeThread s n ms) := by
  unfold observeThread
  dsimp only
  exact Canonical_update hs

theorem Canonical_observeDevice {ms : List Mark} (hs : Canonical s) :
    Canonical (observeDevice s ms) := Canonical_update hs

theorem Canonical_markAt {m : Mark} (hs : Canonical s) : Canonical (markAt s pa m) := by
  unfold markAt
  dsimp only
  exact Canonical_update hs

theorem Canonical_dispatchAcquire {ms : List Mark} (hs : Canonical s) : Canonical (dispatchAcquire s t ms) := by
  unfold dispatchAcquire
  exact Canonical_acquire (by exact Canonical_modTile (by exact Canonical_update hs) _ (fun _ h' => h')) _ _

theorem Canonical_keepOld {g : Nat} (hs : Canonical s) : Canonical (keepOld s t g) := Canonical_update hs

theorem Canonical_seeNew {g : Nat} (hs : Canonical s) : Canonical (seeNew s t g) := Canonical_update hs

theorem Canonical_guestStage1 {a : Nat} {r : Right} (hs : Canonical s) : Canonical (guestStage1 s v a r).1 := by
  unfold guestStage1
  dsimp only
  split
  · exact hs
  · split
    · exact Canonical_ite (Canonical_wantExpert hs) hs
    · split <;> exact hs

theorem Canonical_threadMap {a : Nat} {r : Right} (hs : Canonical s) : Canonical (threadMap s n a r).1 := by
  unfold threadMap
  dsimp only
  split
  · split
    · exact hs
    · split
      · refine Canonical_stage2For (Canonical_of_eq ‹_› ?_)
        split
        · exact hs
        · exact Canonical_iteFst (Canonical_guestStage1 hs) hs
      · refine Canonical_joinRow (Canonical_of_eq ‹_› ?_)
        split
        · exact hs
        · exact Canonical_iteFst (Canonical_guestStage1 hs) hs
      · split
        · exact hs
        · exact Canonical_iteFst (Canonical_guestStage1 hs) hs
  · split <;> exact hs
  · exact hs

theorem Canonical_threadXlat {a : Nat} {r : Right} (hs : Canonical s) : Canonical (threadXlat s n a r).1 := by
  unfold threadXlat
  split
  · exact Canonical_iteFst (Canonical_wantSaved hs) (Canonical_of_eq ‹_› (Canonical_threadMap hs))
  · exact Canonical_threadMap hs

theorem Canonical_fetchTile {pc : Word} {n : Nat} (hs : Canonical s) : Canonical (fetchTile s t st k pc n).1 := by
  unfold fetchTile
  split
  · split <;> exact Canonical_of_eq ‹_› (Canonical_tileXlatFor hs)
  · exact Canonical_of_eq ‹_› (Canonical_tileXlatFor hs)
  · exact Canonical_of_eq ‹_› (Canonical_tileXlatFor hs)
  · exact Canonical_of_eq ‹_› (Canonical_tileXlatFor hs)

/-! ### Operand forms -/

theorem Canonical_wr {w : Word} (hs : Canonical s) : CanonicalNext (wr s d w) := Canonical_done4 (Canonical_wx hs _ _)

/-! ### Floating-point state of a stream -/

theorem wf_addFlagsT {f : Flags} (hT : Memory.wf T.spad = true) :
    Memory.wf (addFlagsT T st f).spad = true := wf_modStrm hT

theorem Canonical_addFlags {f : Flags} (hs : Canonical s) : Canonical (addFlags s f) := by
  unfold addFlags
  split
  · exact Canonical_modTile hs _ fun _ h' => wf_addFlagsT h'
  · exact Canonical_modThr hs _ fun _ h' => h'

theorem Canonical_setGen {g : Gen} (hs : Canonical s) : Canonical (setGen s g) := by
  unfold setGen
  split
  · exact Canonical_modTile hs _ fun _ h' => wf_modStrm h'
  · exact Canonical_modThr hs _ fun _ h' => h'

theorem Canonical_drawFor {mode : Nat} (hs : Canonical s) : Canonical (drawFor s mode).2 := by
  unfold drawFor
  dsimp only
  split
  · exact Canonical_setGen hs
  · exact hs

theorem Canonical_writeFpcr {v : Word} (hs : Canonical s) : Canonical (writeFpcr s v) := by
  unfold writeFpcr
  dsimp only
  split
  · exact Canonical_modTile hs _ fun _ h' => h'
  · exact Canonical_modThr hs _ fun _ h' => h'

/-! ### Scalar integer, control and local-store words -/

theorem Canonical_checked {f : Result} (hs : Canonical s) (hf : CanonicalNext f) :
    CanonicalNext (checked s i f) := Canonical_iteNext hf (Canonical_illegal hs)

theorem Canonical_branch {c : Bool} {o : BitVec 13} (hs : Canonical s) :
    CanonicalNext (branch s c o) := Canonical_iteNext (.next (Canonical_setPc hs _)) (Canonical_done4 hs)

theorem Canonical_loadLocal {a : XReg} {i : BitVec 13} {n : Nat} {signed : Bool} (hs : Canonical s) :
    CanonicalNext (loadLocal s d a i n signed) := by
  unfold loadLocal
  dsimp only
  exact Canonical_wr hs

theorem Canonical_storeLocal {r a : XReg} {i : BitVec 13} {n : Nat} (hs : Canonical s) :
    CanonicalNext (storeLocal s r a i n) := Canonical_done4 (Canonical_localWrite hs _ _)

theorem Canonical_execJalr {a : XReg} {i : BitVec 13} (hs : Canonical s) : CanonicalNext (execJalr d a i s) := by
  unfold execJalr
  dsimp only
  exact Canonical_scalar hs (Canonical_iteNext (Canonical_raise hs) (.next (Canonical_setPc (Canonical_wx hs _ _) _)))

theorem Canonical_execAmos {a b : XReg} {z : Fin 4} {o : Fin 32} (hs : Canonical s) :
    CanonicalNext (execAmos d a b z o s) := by
  unfold execAmos
  dsimp only
  exact Canonical_scalar hs (Canonical_checked hs (Canonical_wr (Canonical_localWrite hs _ _)))

theorem Canonical_execCass {a b : XReg} {z : Fin 4} (hs : Canonical s) : CanonicalNext (execCass d a b z s) := by
  unfold execCass
  dsimp only
  exact Canonical_scalar hs (Canonical_checked hs (Canonical_wr (Canonical_ite (Canonical_localWrite hs _ _) hs)))

/-! ### Engine streams and the command queues -/

theorem Canonical_stackFault (hs : Canonical s) : CanonicalNext (stackFault s i) := Canonical_raise hs

theorem Canonical_setStack {ws : List Word} (hs : Canonical s) :
    Canonical (setStack s t st ws) := Canonical_modTile hs _ fun _ h' => wf_modStrm h'

theorem Canonical_withStack {n : Nat} {f : List Word → List Word → Result}
    (hs : Canonical s) (hf : ∀ top rest, CanonicalNext (f top rest)) :
    CanonicalNext (withStack s i t st n f) := by
  unfold withStack
  dsimp only
  exact Canonical_iteNext (Canonical_stackFault hs) (hf _ _)

theorem Canonical_stackWord {n : Nat} {f : List Word → List Word} (hs : Canonical s) :
    CanonicalNext (stackWord s i n f) := by
  unfold stackWord
  dsimp only
  exact Canonical_onEngine hs (fun _ _ _ => Canonical_withStack hs (fun _ _ => Canonical_iteNext
    (Canonical_stackFault hs) (Canonical_done2 (Canonical_setStack hs))))

theorem Canonical_modLoop {l : Bool} {w : Word} (hs : Canonical s) :
    Canonical (modLoop s t st l w) := Canonical_modTile hs _ fun _ h' => wf_modStrm h'

theorem Canonical_execEngineDo {l : Bool} (hs : Canonical s) : CanonicalNext (execEngineDo l s) := by
  unfold execEngineDo
  exact Canonical_onEngine hs (fun _ _ _ => Canonical_withStack hs (fun _ _ => Canonical_done2
    (Canonical_modLoop (Canonical_setStack hs))))

theorem Canonical_execEngineLoop {l : Bool} {d : Fin 128} (hs : Canonical s) :
    CanonicalNext (execEngineLoop l d s) := by
  unfold execEngineLoop
  dsimp only
  exact Canonical_onEngine hs (fun _ _ _ => Canonical_checked hs
    (Canonical_iteNext (.next (Canonical_setPc (Canonical_modLoop hs) _)) (Canonical_done2 (Canonical_modLoop hs))))

theorem Canonical_execEngineBz {o : BitVec 8} (hs : Canonical s) : CanonicalNext (execEngineBz o s) := by
  unfold execEngineBz
  dsimp only
  exact Canonical_onEngine hs (fun _ _ _ => Canonical_withStack hs (fun _ _ => Canonical_iteNext
    (.next (Canonical_setPc (Canonical_setStack hs) _)) (Canonical_done2 (Canonical_setStack hs))))

theorem wf_setCmds {cs : List Cmd} (hT : Memory.wf T.spad = true) :
    Memory.wf (setCmds T onM cs).spad = true := wf_iteTile hT hT

theorem wf_modCmd {f : Cmd → Cmd} (hT : Memory.wf T.spad = true) :
    Memory.wf (modCmd T onM id f).spad = true := wf_setCmds hT

theorem wf_dropCmd (hT : Memory.wf T.spad = true) : Memory.wf (dropCmd T onM id).spad = true := wf_setCmds hT

theorem Canonical_enqueue {q r : Bool} {l : Launch} (hs : Canonical s) : Canonical (enqueue s t st q r sc l) := by
  unfold enqueue
  dsimp only
  exact Canonical_update (Canonical_setTile hs _ (wf_iteTile (wf_addFlagsT (wf_setCmds (Canonical_spad hs _)))
    (wf_setCmds (Canonical_spad hs _))))

theorem Canonical_setStall {o : Option Nat} (hs : Canonical s) :
    Canonical (setStall s t st o) := Canonical_modTile hs _ fun _ h' => wf_modStrm h'

theorem Canonical_unstall (hs : Canonical s) : Canonical (unstall s t st) := Canonical_ite hs (Canonical_setStall hs)

theorem Canonical_command {n : Nat} {q r : Bool} {f : List Word → Except (Nat × Word) Launch} (hs : Canonical s) :
    CanonicalNext (command s i t st n q r sc f) := by
  unfold command
  dsimp only
  refine Canonical_checked hs ?_
  split
  · exact .next (Canonical_setStall hs)
  · refine Canonical_withStack (Canonical_unstall hs) fun _ _ => ?_
    split
    · exact Canonical_raise (Canonical_unstall hs)
    · exact Canonical_done2 (Canonical_enqueue (Canonical_setStack (Canonical_unstall hs)))

/-! ### The matrix stream -/

theorem wf_groupStep {R : Tile} {a b : Shape} {ahead : Table Nat} {c : Fin 16} {g : Nat}
    (hT : Memory.wf T.spad = true) :
    Memory.wf (groupStep T R a b ahead c g).spad = true := by
  unfold groupStep
  dsimp only
  exact wf_addFlagsT hT

theorem wf_elementStep {R : Tile} {a b : Shape} {c : Fin 16} {g n : Nat} (hT : Memory.wf T.spad = true) :
    Memory.wf (elementStep T R a b c g n).spad = true := by
  unfold elementStep
  dsimp only
  exact wf_addFlagsT hT

theorem wf_zeroBlocks {mask : Word} {done : Table Nat} (hT : Memory.wf T.spad = true) :
    Memory.wf (zeroBlocks T mask done).spad = true := by
  unfold zeroBlocks
  dsimp only
  exact hT

theorem wf_zeroElement {n : Nat} (hT : Memory.wf T.spad = true) : Memory.wf (zeroElement T n).spad = true := by
  unfold zeroElement
  dsimp only
  exact hT

theorem Canonical_execMma {q r x : Bool} (hs : Canonical s) : CanonicalNext (execMma q r sc x s) := by
  unfold execMma
  dsimp only
  exact Canonical_onStream hs fun _ _ => Canonical_command hs

/-! ### Transfers, and the frames of a snapshot that a write meets unsaved -/

theorem Canonical_grant {pool m : Nat} (hs : Canonical s) : Canonical (grant s pool m) := by
  induction m generalizing s with
  | zero => exact hs
  | succ m ih =>
    rw [grant]
    split
    · exact ih (Canonical_update hs)
    · exact hs

theorem Canonical_grantAll {pool : Nat} (hs : Canonical s) : Canonical (grantAll s pool) := Canonical_grant hs

theorem Canonical_addDrover {x : Drover} (hs : Canonical s) :
    Canonical (addDrover s x) := Canonical_grantAll (Canonical_update hs)

theorem Canonical_dropDrover (hs : Canonical s) : Canonical (dropDrover s id) := by
  unfold dropDrover
  split
  · exact hs
  · exact Canonical_grantAll (Canonical_update hs)

theorem Canonical_dropDrovers {p : Drover → Bool} (hs : Canonical s) : Canonical (dropDrovers s p) := by
  unfold dropDrovers
  dsimp only
  exact Canonical_foldl (fun _ _ h' => Canonical_grantAll h') (Canonical_update hs)

/-- A frame of the image goes to the drive or to memory (R373): one write over canonical bytes. -/
theorem Canonical_saveFrame {x : Snapshot} {i : Nat} {bs : List Byte} (hs : Canonical s) :
    Canonical (saveFrame s x i bs) := by
  unfold saveFrame
  split
  · exact Canonical_setNvme hs (wf_mwrite _ _ (Canonical_nvme hs))
  · exact Canonical_setMem (Canonical_zeroMem hs) (wf_mwrite _ _ (Canonical_mem hs))

/-- A byte changes in the snapshot's image, and in the frame of it that is saved (R371). -/
theorem Canonical_imageByte {x : Snapshot} {a : Nat} {b : Byte} (hs : Canonical s) (hx : Memory.wf x.image = true) :
    Canonical (imageByte s x a b) := by
  have hs1 : Canonical { s with snapshots := s.snapshots.map fun y =>
      if y.scope = x.scope then { x with image := mset x.image a b } else y } :=
    Canonical_mapSnapshots hs fun y hy => by
      split
      · exact wf_mset a b hx
      · exact hy
  unfold imageByte
  split
  · exact hs1
  · exact Canonical_ite hs1 (Canonical_saveFrame hs1)

theorem Canonical_imageSet {mine : Snapshot → Bool} {a : Nat} {f : Byte → Byte} (hs : Canonical s) :
    Canonical (imageSet s mine a f) := by
  unfold imageSet
  split
  · exact hs
  · exact List.foldlRecOn (motive := Canonical) _ _ hs fun _ ht x hx =>
      Canonical_imageByte ht (Canonical_image hs (List.mem_filter.1 hx).1)

theorem Canonical_saveThese {x : Snapshot} {f : Nat × Nat → Bool} (hs : Canonical s) :
    Canonical (saveThese s x f) := by
  refine Canonical_mapSnapshots (Canonical_foldl (fun _ _ ht => Canonical_saveFrame ht) hs) fun y hy => ?_
  split <;> exact hy

theorem Canonical_saveFirst {a n : Nat} (hs : Canonical s) :
    Canonical (saveFirst s a n) := Canonical_ite (Canonical_foldl (fun _ _ h' => Canonical_saveThese h') hs) hs

theorem Canonical_zeroRange {a n : Nat} (hs : Canonical s) :
    Canonical (zeroRange s a n) := Canonical_zeroMem (Canonical_saveFirst hs)

theorem Canonical_rowRange {who : Holder} {n : Nat} (hs : Canonical s) :
    Canonical (rowRange s who v va ipa n).1 := Canonical_iteFst (Canonical_atRow hs) hs

theorem Canonical_wantWrites {v : Option VfId} {a n : Nat} (hs : Canonical s) : Canonical (wantWrites s v a n) := by
  unfold wantWrites
  split
  · exact Canonical_wantSaved hs
  · split
    · exact hs
    · exact Canonical_foldl (fun _ _ h' => (by split; exacts [Canonical_wantSaved h', h'])) hs

theorem Canonical_ipaWrite {l : List Byte} (hs : Canonical s) : Canonical (ipaWrite s v ipa l) := by
  induction l generalizing s v ipa with
  | nil => exact hs
  | cons a l ih => exact ih (by split; exacts [Canonical_physSet hs _ _, hs])

theorem Canonical_transferRow {x : Drover} {n : Nat} (hs : Canonical s) : Canonical (transferRow s id x n).1 := by
  unfold transferRow
  split
  · exact hs
  · split
    · split
      · exact Canonical_rowRange (Canonical_of_eq ‹_› (Canonical_rowRange hs))
      · exact Canonical_of_eq ‹_› (Canonical_rowRange hs)
    · exact Canonical_rowRange hs

theorem Canonical_addStat {w : Fin 8} {n : Nat} (hs : Canonical s) :
    Canonical (addStat s p w n) := Canonical_modPart hs

theorem Canonical_countLanded {x : Drover} {n : Nat} (hs : Canonical s) : Canonical (countLanded s x n) := by
  unfold countLanded
  split
  · exact Canonical_addStat hs
  · exact hs

theorem Canonical_landTransfer {x : Drover} {n : Nat} (hs : Canonical s) : Canonical (landTransfer s id x n) := by
  unfold landTransfer
  dsimp only
  refine Canonical_countLanded (Canonical_update ?_)
  split
  · exact Canonical_ipaWrite hs
  · exact Canonical_physWrite hs _ _

theorem Canonical_transferStep {k : Nat} (hs : Canonical s) : Canonical (transferStep s id k) := by
  unfold transferStep
  dsimp only
  split
  · exact hs
  · split
    · exact hs
    · split
      · split
        · exact Canonical_wantWrites (Canonical_of_eq ‹_› (Canonical_transferRow hs))
        · exact Canonical_landTransfer (Canonical_of_eq ‹_› (Canonical_transferRow hs))
      · exact Canonical_of_eq ‹_› (Canonical_transferRow hs)

/-! ### The Joinery queue -/

theorem Canonical_reserve (hs : Canonical s) : CanonicalSome (reserve s v) := by
  unfold reserve
  dsimp only
  exact Canonical_iteSome (.some (Canonical_update hs)) .none

theorem Canonical_setEntry (hs : Canonical s) : Canonical (setEntry s id e) := Canonical_update hs

theorem Canonical_portFault {c cause : Nat} {key val : Word} (hs : Canonical s) :
    Canonical (portFault s p c cause key val) := by
  unfold portFault
  split
  · exact hs
  · exact Canonical_sendVfFault (Canonical_freezeClass hs)

theorem Canonical_portRefusal {p : Put} (hs : Canonical s) : Canonical (portRefusal s p) := by
  unfold portRefusal
  split
  · exact Canonical_sendVfFault hs
  · exact Canonical_sendEvent hs _ _

theorem Canonical_addEntry (hs : Canonical s) : Canonical (addEntry s e) := by
  unfold addEntry
  dsimp only
  split
  · exact Canonical_releaseUnit hs
  · exact Canonical_update (Canonical_releaseUnit hs)

theorem Canonical_createByPut {p : Put} (hs : Canonical s) : Canonical (createByPut s p r) := by
  unfold createByPut
  dsimp only
  split
  · exact Canonical_ite (Canonical_portFault (Canonical_addEntry hs)) (Canonical_addEntry hs)
  · exact Canonical_addEntry hs

theorem Canonical_foldPut {p : Put} (hs : Canonical s) : Canonical (foldPut s p r id e) := by
  unfold foldPut
  dsimp only
  split
  · split
    · exact Canonical_portFault (Canonical_setEntry (Canonical_releaseUnit hs))
    · exact Canonical_setEntry (Canonical_releaseUnit hs)
  · exact Canonical_setEntry (Canonical_releaseUnit hs)

theorem Canonical_applyPut {p : Put} (hs : Canonical s) : Canonical (applyPut s p) := by
  unfold applyPut
  split
  · exact Canonical_releaseUnit hs
  · split
    · exact Canonical_portRefusal (Canonical_releaseUnit hs)
    · split
      · exact Canonical_portRefusal (Canonical_releaseUnit hs)
      · split
        · exact Canonical_foldPut hs
        · exact Canonical_createByPut hs

theorem Canonical_applyLaunch {c : Nat} {key : Word} {pay : Payload} {place : Option (TileId × Nat × Nat)}
    {ms : List Mark}
    (hs : Canonical s) :
    Canonical (applyLaunch s p v c key pay place ms) := by
  unfold applyLaunch
  dsimp only
  split
  · exact Canonical_addEntry hs
  · exact Canonical_releaseUnit hs

theorem Canonical_foldReentry {mid : Nat} {m : JqEntry} (hs : Canonical s) :
    Canonical (foldReentry s r id e mid m) := by
  unfold foldReentry
  dsimp only
  split
  · split
    · exact Canonical_portFault (Canonical_setEntry (Canonical_freeEntry hs))
    · exact Canonical_setEntry (Canonical_freeEntry hs)
  · exact Canonical_setEntry (Canonical_freeEntry hs)

theorem Canonical_applyReentry (hs : Canonical s) : Canonical (applyReentry s id) := by
  unfold applyReentry
  split
  · exact hs
  · split
    · exact hs
    · split
      · exact hs
      · split
        · exact Canonical_setEntry hs
        · split
          · exact Canonical_foldReentry hs
          · exact Canonical_setEntry hs

theorem Canonical_arrive {rank source : Nat} {w : PortWork} {ms : List Mark} (hs : Canonical s) :
    Canonical (arrive s rank source w ms) := Canonical_update hs

theorem Canonical_applyWork {ms : List Mark} {work : PortWork}
    (hs : Canonical s) : Canonical (applyWork s ms work) := by
  unfold applyWork
  split
  · exact Canonical_applyPut hs
  · exact Canonical_applyLaunch hs
  · exact Canonical_applyReentry hs

theorem Canonical_setDealt {c : Nat} (hs : Canonical s) :
    Canonical (setDealt s n c) := Canonical_modThr hs _ fun _ h' => h'

theorem Canonical_applyAll {l : List Arrival} (hs : Canonical s) : Canonical (applyAll s l) := by
  induction l generalizing s with
  | nil => exact hs
  | cons a l ih => exact ih (Canonical_ite (Canonical_setDealt (Canonical_applyWork hs)) (Canonical_applyWork hs))

theorem Canonical_matchPhase (hs : Canonical s) : Canonical (matchPhase s) := Canonical_applyAll (Canonical_update hs)

theorem Canonical_handPut {p : Put} (hs : Canonical s) : Canonical (handPut s p) := by
  unfold handPut
  split
  · exact Canonical_modTile hs _ fun _ h' => h'
  · exact Canonical_arrive (Canonical_carryThread hs)

theorem Canonical_publishFull (hs : Canonical s) : CanonicalNext (publishFull s) := by
  unfold publishFull
  split
  · exact Canonical_raise hs
  · exact .next hs

theorem Canonical_execJqput {a b : XReg} (hs : Canonical s) : CanonicalNext (execJqput d a b s) := by
  unfold execJqput
  dsimp only
  refine Canonical_scalar hs ?_
  split
  · exact Canonical_raise hs
  · split
    · exact Canonical_raise hs
    · refine Canonical_iteNext (Canonical_raise hs) (Canonical_iteNext (Canonical_publishFull hs) ?_)
      split
      · exact Canonical_wr hs
      · exact Canonical_wr (Canonical_handPut (Canonical_of_some ‹_› (Canonical_reserve hs)))

theorem Canonical_jqctl {ph : PortPhase} {f : State → ThreadId → Result}
    (hs : Canonical s) (hf : ∀ s n, Canonical s → CanonicalNext (f s n)) :
    CanonicalNext (jqctl s i ph f) := by
  unfold jqctl
  refine Canonical_scalar hs ?_
  split
  · exact Canonical_privilege hs
  · exact Canonical_iteNext (hf _ _ (Canonical_setDealt hs)) (.next hs)

theorem Canonical_jqctlWith {ph : PortPhase} {a : XReg} {need : Nat}
    {f : State → ThreadId → PartId → HandleSlot → Result}
    (hs : Canonical s) (hf : ∀ s n p slot, Canonical s → CanonicalNext (f s n p slot)) :
    CanonicalNext (jqctlWith s i ph a need f) := by
  unfold jqctlWith
  refine Canonical_jqctl hs fun _ _ h' => ?_
  split
  · exact Canonical_raise hs
  · split
    · exact Canonical_raise hs
    · exact hf _ _ _ _ h'

theorem Canonical_execJqctlClassset {a b : XReg} (hs : Canonical s) : CanonicalNext (execJqctlClassset d a b s) := by
  unfold execJqctlClassset
  dsimp only
  refine Canonical_jqctl hs fun _ _ h' => ?_
  split
  · exact Canonical_privilege hs
  · exact Canonical_iteNext (Canonical_privilege hs) (Canonical_iteNext (Canonical_raise hs)
      (Canonical_iteNext (Canonical_wr h') (Canonical_wr (Canonical_setPart h' _ _))))

theorem Canonical_execJqctlClassget {a b : XReg} (hs : Canonical s) : CanonicalNext (execJqctlClassget d a b s) := by
  unfold execJqctlClassget
  dsimp only
  refine Canonical_jqctlWith hs (fun _ _ _ _ h' => Canonical_iteNext (Canonical_wr (Canonical_setPart h' _ _))
    (Canonical_iteNext (Canonical_wr h') ?_))
  split
  · exact Canonical_wr h'
  · exact Canonical_wr (Canonical_setPart h' _ _)

theorem Canonical_thawEntries {requeue : Bool} {l : List (Nat × JqEntry)} (hs : Canonical s) :
    Canonical (thawEntries s requeue l) := by
  induction l generalizing s with
  | nil => exact hs
  | cons a l ih => exact ih (Canonical_ite (Canonical_arrive hs) (Canonical_freeEntry hs))

theorem Canonical_jqctlEntries {ph : PortPhase} {a : XReg} {need : Nat}
    {f : State → ThreadId → PartId → HandleSlot → Result}
    (hs : Canonical s) (hf : ∀ s n p slot, Canonical s → CanonicalNext (f s n p slot)) :
    CanonicalNext (jqctlEntries s i ph a need f) :=
  Canonical_jqctlWith hs (fun _ _ _ _ h' => Canonical_iteNext (.next hs) (hf _ _ _ _ h'))

theorem Canonical_execJqctlThaw {a b : XReg} (hs : Canonical s) : CanonicalNext (execJqctlThaw d a b s) := by
  unfold execJqctlThaw
  dsimp only
  exact Canonical_jqctlEntries hs fun _ _ _ _ h' => Canonical_wr (Canonical_thawEntries (Canonical_modPart h'))

theorem Canonical_takeEntry {b : XReg} {found : Option (Nat × JqEntry)} (hs : Canonical s) :
    CanonicalNext (takeEntry s n d b found) := by
  unfold takeEntry
  split
  · exact Canonical_wr hs
  · exact Canonical_wr (Canonical_modThr (Canonical_freeEntry hs) _ (fun _ h' => wf_storePutWords h' _ _))

theorem Canonical_queryDealt (hs : Canonical s) : Canonical (queryDealt s) := by
  unfold queryDealt
  split
  · exact hs
  · exact Canonical_setDealt hs

theorem Canonical_execJqctlQuery {a b : XReg} (hs : Canonical s) : CanonicalNext (execJqctlQuery d a b s) := by
  unfold execJqctlQuery
  refine Canonical_scalar hs (Canonical_iteNext ?_ (.next hs))
  split
  · exact Canonical_raise hs
  · split
    · exact Canonical_raise hs
    · exact Canonical_wr (Canonical_queryDealt hs)

/-! ### Page waits, invalidation and the Lodging table -/

theorem Canonical_releaseCards {f : PartId → Nat × Nat → Bool} {l : List PartId} (hs : Canonical s) :
    Canonical (releaseCards s f l) := by
  induction l generalizing s with
  | nil => exact hs
  | cons a l ih => exact ih (Canonical_modPart hs)

theorem Canonical_releaseWaits {f : PartId → Nat × Nat → Bool} (hs : Canonical s) : Canonical (releaseWaits s f) := by
  unfold releaseWaits
  dsimp only
  exact Canonical_releaseCards (Canonical_update hs)

theorem Canonical_dropTlb {f : TlbEntry → Bool} {l : List TileId} (hs : Canonical s) :
    Canonical (dropTlb s p f l) := by
  induction l generalizing s with
  | nil => exact hs
  | cons a l ih => exact ih (Canonical_ite (Canonical_modTile hs _ (fun _ h' => h')) hs)

theorem Canonical_beginTlbi {kind : Nat} {va : Word} {asid : Nat} (hs : Canonical s) :
    CanonicalNext (beginTlbi s n kind va asid) :=
  .next (Canonical_modThr (Canonical_advance hs _) _ (fun _ h' => h'))

theorem Canonical_execTlbiVa {a b : XReg} (hs : Canonical s) : CanonicalNext (execTlbiVa a b s) := by
  unfold execTlbiVa
  dsimp only
  exact Canonical_onThread hs fun _ => Canonical_iteNext (Canonical_beginTlbi hs) (Canonical_privilege hs)

theorem Canonical_execTlbiAsid {b : XReg} (hs : Canonical s) : CanonicalNext (execTlbiAsid b s) := by
  unfold execTlbiAsid
  dsimp only
  exact Canonical_onThread hs fun _ => Canonical_iteNext (Canonical_beginTlbi hs) (Canonical_privilege hs)

theorem Canonical_execTlbiComplete {th : ThreadId} (hs : Canonical s) : CanonicalNext (execTlbiComplete th s) := by
  unfold execTlbiComplete
  dsimp only
  split
  · split
    · exact .next hs
    · exact .next (Canonical_modThr (by exact Canonical_releaseWaits (Canonical_dropTlb (Canonical_update hs))) _
        (fun _ h' => h'))
  · exact .next hs

theorem Canonical_execSeghold {a : XReg} (hs : Canonical s) : CanonicalNext (execSeghold a s) := by
  unfold execSeghold
  refine Canonical_onThread hs fun _ => ?_
  split
  · exact Canonical_privilege hs
  · exact Canonical_iteNext (Canonical_done4 hs) (.next (Canonical_modThr (Canonical_modVf (Canonical_advance hs _)) _
      (fun _ h' => h')))

theorem Canonical_execSegholdComplete {th : ThreadId} (hs : Canonical s) :
    CanonicalNext (execSegholdComplete th s) := by
  unfold execSegholdComplete
  split
  · exact .next (Canonical_modThr hs _ (fun _ h' => h'))
  · exact .next hs

theorem Canonical_execSegrel {a : XReg} (hs : Canonical s) : CanonicalNext (execSegrel a s) := by
  unfold execSegrel
  dsimp only
  refine Canonical_onThread hs fun _ => ?_
  split
  · exact Canonical_privilege hs
  · exact Canonical_iteNext (Canonical_done4 hs) (Canonical_iteNext (Canonical_raise hs)
      (Canonical_done4 (Canonical_setVf hs _ _)))

theorem Canonical_modLodging {l : Nat} {f : Lodging → Lodging} (hs : Canonical s) :
    Canonical (modLodging s l f) := Canonical_update hs

theorem Canonical_lodgingDone {e : Lodging} {state : Nat} {failed : Bool} (hs : Canonical s) :
    Canonical (lodgingDone s e state failed) := by
  unfold lodgingDone
  split
  · exact hs
  · exact Canonical_sendEvent hs _ _

theorem Canonical_ringPush {l : Nat} (hs : Canonical s) : Canonical (ringPush s p l id) := by
  unfold ringPush
  dsimp only
  exact Canonical_modPart (Canonical_physWrite (Canonical_saveFirst hs) _ _)

theorem Canonical_parkFetch {l : Nat} (hs : Canonical s) : Canonical (parkFetch s l) := Canonical_modLodging hs

theorem Canonical_parkEntry {l : Nat} (hs : Canonical s) : Canonical (parkEntry s l id e) := by
  unfold parkEntry
  dsimp only
  split
  · exact Canonical_parkFetch (Canonical_modLodging (Canonical_addStat (Canonical_setEntry hs)))
  · split
    · exact Canonical_parkFetch (Canonical_addStat (Canonical_ringPush (Canonical_setEntry hs)))
    · exact Canonical_addStat (Canonical_setEntry hs)

theorem Canonical_reenterAll {l : Nat} {xs : List Nat} (hs : Canonical s) : Canonical (reenterAll s l xs) := by
  induction xs generalizing s with
  | nil => exact hs
  | cons a xs ih => exact ih (Canonical_arrive hs)

theorem Canonical_reenterParlour {l : Nat} (hs : Canonical s) : Canonical (reenterParlour s l) := by
  unfold reenterParlour
  split
  · exact hs
  · exact Canonical_ite (Canonical_modLodging (Canonical_reenterAll hs)) hs

theorem Canonical_ringPop (hs : Canonical s) : Canonical (ringPop s p) := by
  unfold ringPop
  dsimp only
  split
  · exact Canonical_modPart hs
  · split
    · exact Canonical_reenterParlour (Canonical_modLodging (Canonical_modPart hs))
    · exact Canonical_modPart hs

theorem Canonical_refillParlour {m : Nat} (hs : Canonical s) : Canonical (refillParlour s p m) := by
  induction m generalizing s with
  | zero => exact hs
  | succ m ih => exact Canonical_ite (ih (Canonical_ringPop hs)) hs

theorem Canonical_freedLinks (hs : Canonical s) : Canonical (freedLinks s p) := Canonical_refillParlour hs

theorem Canonical_evictExpert {l : Nat} (hs : Canonical s) : Canonical (evictExpert s l) := Canonical_modLodging hs

theorem Canonical_takeLoan {q : Partition} {l : List Nat} (hs : Canonical s) : Canonical (takeLoan s q v l) := by
  induction l generalizing s with
  | nil => exact hs
  | cons a l ih => exact ih (Canonical_update (Canonical_zeroRange hs))

theorem Canonical_askPieces {l m : Nat} (hs : Canonical s) : Canonical (askPieces s l m) := by
  induction m generalizing s with
  | zero => exact hs
  | succ m ih =>
    rw [askPieces]
    split
    · exact hs
    · exact Canonical_ite (ih (Canonical_modLodging (Canonical_addDrover hs))) hs

theorem Canonical_takeFrames {l : Nat} (hs : Canonical s) : Canonical (takeFrames s l) := by
  unfold takeFrames
  dsimp only
  split
  · exact hs
  · split
    · exact hs
    · split
      · exact Canonical_askPieces (Canonical_addStat (Canonical_modLodging (Canonical_takeLoan hs)))
      · split
        · exact hs
        · split
          · exact Canonical_evictExpert hs
          · split
            · exact Canonical_evictExpert hs
            · exact hs

theorem Canonical_takeAllFrames {l : List (Nat × Lodging)} (hs : Canonical s) : Canonical (takeAllFrames s l) := by
  induction l generalizing s with
  | nil => exact hs
  | cons a l ih => exact ih (Canonical_takeFrames hs)

theorem Canonical_victimStep (hs : Canonical s) : Canonical (victimStep s) := Canonical_takeAllFrames hs

theorem Canonical_freeFrames {q : Partition} {l : List Nat} (hs : Canonical s) : Canonical (freeFrames s q l) := by
  induction l generalizing s with
  | nil => exact hs
  | cons a l ih => exact ih (Canonical_ite (Canonical_update hs) hs)

theorem Canonical_zeroTail {e : Lodging} (hs : Canonical s) : Canonical (zeroTail s e) := Canonical_ipaWrite hs

theorem Canonical_execFetchComplete {entry : Nat} (hs : Canonical s) : CanonicalNext (execFetchComplete entry s) := by
  unfold execFetchComplete
  dsimp only
  split
  · exact .next hs
  · split
    · exact .next (Canonical_ite (Canonical_wantWrites hs) hs)
    · exact .next (Canonical_freedLinks (Canonical_reenterParlour
        (Canonical_lodgingDone (Canonical_releaseWaits (Canonical_modLodging (Canonical_zeroTail hs))))))

theorem Canonical_faultParked {l : List Nat} (hs : Canonical s) : Canonical (faultParked s l) := by
  induction l generalizing s with
  | nil => exact hs
  | cons a l ih =>
    rw [faultParked]
    split
    · exact ih hs
    · exact ih (Canonical_freezeClass (Canonical_faultEntry hs))

theorem Canonical_failFetch {entry : Nat} {e : Lodging} {tierAddr : Word} (hs : Canonical s) :
    Canonical (failFetch s entry e tierAddr) := by
  unfold failFetch
  dsimp only
  exact Canonical_freedLinks (Canonical_lodgingDone
    (Canonical_sendVfFault (Canonical_addStat (Canonical_faultParked
    (Canonical_modLodging (Canonical_freeFrames (Canonical_dropDrovers hs)))))))

theorem Canonical_execFetchFailure {entry : Nat} {tierAddr : BitVec 64} (hs : Canonical s) :
    CanonicalNext (execFetchFailure entry tierAddr s) := by
  unfold execFetchFailure
  split
  · exact .next hs
  · exact Canonical_iteNext (.next hs) (.next (Canonical_failFetch hs))

theorem Canonical_endPiece {x : Drover} {entry i : Nat} {tierError : Bool} (hs : Canonical s) :
    Canonical (endPiece s id x entry i tierError) := by
  unfold endPiece
  dsimp only
  split
  · exact Canonical_dropDrover hs
  · split
    · exact Canonical_failFetch hs
    · exact Canonical_askPieces (Canonical_dropDrover (Canonical_landTransfer hs))

theorem Canonical_execEvictionComplete {entry : Nat} (hs : Canonical s) :
    CanonicalNext (execEvictionComplete entry s) := by
  unfold execEvictionComplete
  dsimp only
  split
  · exact .next hs
  · split
    · exact .next hs
    · split
      · exact .next (Canonical_freedLinks (Canonical_update
          (Canonical_reenterAll (Canonical_lodgingDone (Canonical_addStat (Canonical_freeFrames hs))))))
      · exact .next (Canonical_modLodging (Canonical_lodgingDone (Canonical_addStat (Canonical_freeFrames hs))))

theorem Canonical_lodgeInstall {m : Msg} (hs : Canonical s) : CanonicalSome (lodgeInstall s p m) := by
  unfold lodgeInstall
  dsimp only
  exact Canonical_iteSome .none (by split; exacts [.none, .some (Canonical_update hs)])

theorem Canonical_lodgeRemove {l : Nat} {e : Lodging} (hs : Canonical s) : CanonicalSome (lodgeRemove s l e) := by
  unfold lodgeRemove
  split
  · exact .none
  · split
    · exact .some (Canonical_modLodging hs)
    · exact .some (Canonical_lodgingDone (Canonical_update hs))

theorem Canonical_lodgePool {m : Msg} (hs : Canonical s) : CanonicalSome (lodgePool s m) := by
  unfold lodgePool
  dsimp only
  exact Canonical_iteSome .none (.some (Canonical_setVf hs _ _))

theorem Canonical_lodgeSpill {m : Msg} (hs : Canonical s) : CanonicalSome (lodgeSpill s p m) := by
  unfold lodgeSpill
  dsimp only
  exact Canonical_iteSome .none (.some (Canonical_setPart hs _ _))

theorem Canonical_lodgingMsg {m : Msg} (hs : Canonical s) : CanonicalSome (lodgingMsg s n p m) := by
  unfold lodgingMsg
  split
  · exact .none
  · split
    · exact Canonical_iteSome (Canonical_lodgeInstall hs) .none
    · exact Canonical_iteSome (Canonical_lodgePool hs) .none
    · exact Canonical_lodgeSpill hs
    · split
      · exact .none
      · split
        · exact .none
        · split
          · exact Canonical_lodgeRemove hs
          · exact .some (Canonical_modLodging hs)
          · exact .some (Canonical_ite (Canonical_evictExpert hs) hs)
          · exact .none

theorem Canonical_lodgingStep {th : ThreadId} {m : Msg} {cmd : Nat} (hs : Canonical s) :
    CanonicalNext (lodgingStep th m cmd s) := by
  unfold lodgingStep
  split
  · exact .next hs
  · exact Canonical_iteNext (.next (Canonical_getD (Canonical_lodgingMsg hs) hs)) (.next hs)

theorem Canonical_execBackoffExpiry {entry : Nat} (hs : Canonical s) : CanonicalNext (execBackoffExpiry entry s) := by
  unfold execBackoffExpiry
  split
  · exact .next hs
  · split
    · exact .next hs
    · exact Canonical_iteNext (.next (Canonical_arrive hs)) (.next hs)

theorem Canonical_execPageWaitTimeout {item : ItemId} (hs : Canonical s) :
    CanonicalNext (execPageWaitTimeout item s) := by
  unfold execPageWaitTimeout
  split
  · split
    · exact Canonical_iteNext (.next (Canonical_modGang hs)) (.next hs)
    · exact .next hs
  · split
    · exact Canonical_iteNext (.next (Canonical_modPart hs)) (.next hs)
    · exact .next hs
  · exact .next hs

/-! ### Gangs, cards and dispatch -/

theorem Canonical_choose {a b : List Item} {o : Item} {u : State} (hs : Canonical s)
    (e : choose s p a b = some (o, u)) : Canonical u := by
  unfold choose at e
  dsimp only at e
  split at e
  · cases e
  · split at e <;> cases e
    exact Canonical_setPart hs _ _

theorem Canonical_addGang (hs : Canonical s) : Canonical (addGang s g) := Canonical_update hs

theorem Canonical_activateCard (hs : Canonical s) : Canonical (activateCard s id e r) := by
  unfold activateCard
  dsimp only
  split <;> exact Canonical_modPart (Canonical_setEntry hs)

theorem Canonical_launchEntry {tiles : List TileId} (hs : Canonical s) : Canonical (launchEntry s id e r tiles) := by
  unfold launchEntry
  split
  · exact Canonical_addGang (Canonical_setEntry hs)
  · exact Canonical_activateCard hs
  · exact Canonical_sendEvent (Canonical_setEntry hs) _ _

theorem Canonical_selectEntry {tiles : List TileId} (hs : Canonical s) : Canonical (selectEntry s id tiles) := by
  unfold selectEntry
  dsimp only
  split
  · exact hs
  · split
    · exact hs
    · split
      · exact Canonical_launchEntry hs
      · split
        · exact Canonical_portFault (Canonical_setEntry hs)
        · exact Canonical_ite (Canonical_launchEntry (Canonical_modLodging hs)) (Canonical_parkEntry hs)

theorem Canonical_dealChunk {slot : Nat} {tiles : List TileId} (hs : Canonical s) :
    Canonical (dealChunk s p slot tiles) := by
  unfold dealChunk
  dsimp only
  split
  · exact hs
  · split
    · exact hs
    · split
      · exact hs
      · exact Canonical_addGang (Canonical_modPart hs)

theorem Canonical_replaceGang {tiles : List TileId} (hs : Canonical s) :
    Canonical (replaceGang s id tiles) := Canonical_modGang hs

theorem Canonical_placeItem {d : Nat} {i : Item} (hs : Canonical s) : Canonical (placeItem s p d i) := by
  unfold placeItem
  dsimp only
  split
  · exact Canonical_selectEntry (Canonical_modPart hs)
  · exact Canonical_replaceGang (Canonical_modPart hs)
  · exact Canonical_dealChunk (Canonical_modPart hs)

theorem Canonical_innkeeperStep {m : Nat} (hs : Canonical s) : Canonical (innkeeperStep s p m) := by
  induction m generalizing s with
  | zero => exact hs
  | succ m ih =>
    rw [innkeeperStep]
    split
    · exact hs
    · split
      · exact ih (Canonical_selectEntry (Canonical_choose hs ‹_›))
      · exact Canonical_choose hs ‹_›

theorem Canonical_dieStep {d : Nat} (hs : Canonical s) : Canonical (dieStep s p d) := by
  unfold dieStep
  dsimp only
  split
  · exact hs
  · exact Canonical_placeItem (Canonical_choose hs ‹_›)

theorem Canonical_diesFrom {c m : Nat} (hs : Canonical s) : Canonical (diesFrom s p c m) := by
  induction m generalizing s p c with
  | zero => exact hs
  | succ m ih => exact ih (Canonical_dieStep hs)

theorem Canonical_checkHold (hs : Canonical s) : Canonical (checkHold s p) := by
  unfold checkHold
  split
  · exact hs
  · exact Canonical_ite hs (Canonical_modPart hs)

theorem Canonical_selectParts {l : List PartId} (hs : Canonical s) : Canonical (selectParts s l) := by
  induction l generalizing s with
  | nil => exact hs
  | cons a l ih => exact ih (Canonical_ite (Canonical_diesFrom (Canonical_innkeeperStep (Canonical_checkHold hs))) hs)

theorem Canonical_selectPhase (hs : Canonical s) :
    Canonical (selectPhase s) := Canonical_victimStep (Canonical_selectParts hs)

theorem Canonical_selectNow (hs : Canonical s) : Canonical (selectNow s) := by
  unfold selectNow
  dsimp only
  exact Canonical_ite hs (Canonical_update (Canonical_selectPhase hs))

theorem Canonical_execPortCycle (hs : Canonical s) : CanonicalNext (execPortCycle s) := by
  unfold execPortCycle
  dsimp only
  split
  · exact .next hs
  · exact .next (Canonical_update (Canonical_matchPhase (Canonical_selectNow hs)))

theorem wf_retagBlocks {b m : Nat} (hT : Memory.wf T.spad = true) : Memory.wf (retagBlocks T v b m).spad = true := by
  induction m generalizing T v b with
  | zero => exact hT
  | succ m ih => exact ih (wf_iteTile hT (wf_mzero _ _ hT))

theorem wf_putBytes {l : List (Nat × Byte)} (hT : Memory.wf T.spad = true) :
    Memory.wf (putBytes T l).spad = true := by
  induction l generalizing T with
  | nil => exact hT
  | cons a l ih => exact ih (wf_mset _ _ hT)

theorem wf_saveMember (hT : Memory.wf T.spad = true) : Memory.wf (saveMember T).spad = true := by
  unfold saveMember
  split <;> exact hT

theorem wf_loadCheckpoint {c : Checkpoint} (hT : Memory.wf T.spad = true) :
    Memory.wf (loadCheckpoint T c k).spad = true := by
  unfold loadCheckpoint
  dsimp only
  exact wf_putBytes hT

theorem Canonical_readArgs {m : Nat} (hs : Canonical s) : Canonical (readArgs s t k va m).1 := by
  induction m generalizing s t k va with
  | zero => exact hs
  | succ m ih =>
    rw [readArgs]
    split
    · exact Canonical_of_eq ‹_› (Canonical_tileXlat hs)
    · split
      · exact Canonical_of_eq ‹_› (Canonical_tileXlat hs)
      · split <;> exact Canonical_of_eq ‹_› (ih (Canonical_of_eq ‹_› (Canonical_tileXlat hs)))

theorem Canonical_argBytes (hs : Canonical s) : Canonical (argBytes s t k g).1 := by
  unfold argBytes
  split
  · exact hs
  · exact Canonical_readArgs hs

theorem wf_aboveAll (hT : Memory.wf T.spad = true) : Memory.wf (aboveAll s T).spad = true := by
  unfold aboveAll
  exact hT

theorem Canonical_placeMember {rank : Nat} {c : Checkpoint} (hs : Canonical s) (hT : Memory.wf T.spad = true) :
    Canonical (placeMember s t id g rank T c k) := by
  unfold placeMember
  dsimp only
  exact Canonical_dispatchAcquire (Canonical_setTile hs _ (wf_aboveAll (wf_loadCheckpoint hT)))

theorem wf_restartWindow (hT : Memory.wf T.spad = true) :
    Memory.wf (restartWindow T g k).spad = true := wf_iteTile hT (wf_mzero _ _ hT)

theorem Canonical_startMember {args : List Byte} (hs : Canonical s) : Canonical (startMember s t id k g args).1 := by
  unfold startMember
  dsimp only
  exact Canonical_placeMember hs (wf_retagBlocks (wf_restartWindow (Canonical_spad hs _)))

theorem Canonical_startMembers {m : Nat} {l : List TileId} (hs : Canonical s) :
    Canonical (startMembers s id g m l).1 := by
  induction l generalizing s id g m with
  | nil => exact hs
  | cons a l ih =>
    rw [startMembers]
    dsimp only
    split
    · exact Canonical_tileTrap (Canonical_modTile (Canonical_of_eq ‹_› (Canonical_argBytes hs)) _
        (fun _ h' => h'))
    · exact Canonical_tileTrap (Canonical_modTile (Canonical_of_eq ‹_› (Canonical_argBytes hs)) _
        (fun _ h' => h'))
    · exact Canonical_of_eq ‹_› (Canonical_argBytes hs)
    · split
      · exact Canonical_of_eq ‹_› (ih (Canonical_startMember (Canonical_of_eq ‹_› (Canonical_argBytes hs))))
      · exact ih (Canonical_startMember (Canonical_of_eq ‹_› (Canonical_argBytes hs)))

theorem Canonical_resumeMembers {m : Nat} {ts : List TileId} {cs : List Checkpoint} (hs : Canonical s) :
    Canonical (resumeMembers s id g m ts cs) := by
  induction ts generalizing s m cs with
  | nil => exact hs
  | cons t ts ih =>
    cases cs with
    | nil => exact hs
    | cons c cs =>
      exact ih (Canonical_placeMember hs (wf_retagBlocks (wf_mzero _ _ (Canonical_spad hs _))))

theorem Canonical_execGangStart {gang : Nat} (hs : Canonical s) : CanonicalNext (execGangStart gang s) := by
  unfold execGangStart
  dsimp only
  split
  · exact .next hs
  · split
    · exact .next hs
    · split
      · split
        · exact .next (Canonical_modGang (Canonical_of_eq ‹_› (Canonical_startMembers (Canonical_modGang hs))))
        · split
          · split
            · exact .next (Canonical_update hs)
            · exact .next (Canonical_of_eq ‹_› (Canonical_startMembers (Canonical_modGang hs)))
          · exact .next (Canonical_of_eq ‹_› (Canonical_startMembers (Canonical_modGang hs)))
      · exact .next (Canonical_resumeMembers (Canonical_modGang hs))

theorem Canonical_chunkDone {slot : Nat} (hs : Canonical s) : Canonical (chunkDone s p slot id) := by
  unfold chunkDone
  dsimp only
  split
  · exact Canonical_modPart hs
  · split
    · exact Canonical_modPart hs
    · split
      · exact Canonical_faultEntry (Canonical_modPart hs)
      · exact Canonical_ite (Canonical_modPart hs) (Canonical_freeEntry (Canonical_modPart hs))

theorem Canonical_execGangComplete {gang : Nat} (hs : Canonical s) : CanonicalNext (execGangComplete gang s) := by
  unfold execGangComplete
  dsimp only
  split
  · exact .next hs
  · split
    · split
      · exact .next (Canonical_freeEntry (Canonical_dropGang (Canonical_clearTiles hs)))
      · exact .next (Canonical_chunkDone (Canonical_dropGang (Canonical_clearTiles hs)))
    · exact .next hs

theorem Canonical_execDiscardComplete {gang : Nat} (hs : Canonical s) :
    CanonicalNext (execDiscardComplete gang s) := by
  unfold execDiscardComplete
  split
  · exact .next hs
  · exact Canonical_iteNext (.next (Canonical_modGang hs)) (.next hs)

theorem Canonical_asidStage1 {asid : Nat} {r : Right} (hs : Canonical s) :
    Canonical (asidStage1 s v asid va r).1 := by
  unfold asidStage1
  split
  · split
    · exact hs
    · exact Canonical_ite (Canonical_wantExpert hs) hs
    · exact hs
  · split <;> exact hs

theorem Canonical_asidXlat {who : Holder} {asid : Nat} {r : Right} (hs : Canonical s) :
    Canonical (asidXlat s who v asid va r).1 := by
  unfold asidXlat
  dsimp only
  split
  · exact hs
  · split
    · refine Canonical_stage2For (Canonical_of_eq ‹_› ?_)
      split
      · exact hs
      · exact Canonical_iteFst (Canonical_asidStage1 hs) hs
    · refine Canonical_joinRow (Canonical_of_eq ‹_› ?_)
      split
      · exact hs
      · exact Canonical_iteFst (Canonical_asidStage1 hs) hs
    · split
      · exact hs
      · exact Canonical_iteFst (Canonical_asidStage1 hs) hs

theorem Canonical_faultCard {slot cause : Nat} {c : Card} (hs : Canonical s) :
    Canonical (faultCard s p slot cause c e) := by
  unfold faultCard
  dsimp only
  exact Canonical_portFault (Canonical_faultEntry (Canonical_setEntry (Canonical_modPart hs)))

theorem Canonical_cardAbsent {slot : Nat} {c : Card} (hs : Canonical s) : Canonical (cardAbsent s p slot c e r) := by
  unfold cardAbsent
  dsimp only
  exact Canonical_modPart (Canonical_ite hs (Canonical_ite (Canonical_sendEvent (Canonical_modPart hs) _ _)
    (Canonical_addStat hs)))

theorem Canonical_cardLoaded {slot : Nat} {c : Card} (hs : Canonical s) : Canonical (cardLoaded s p slot c e w) := by
  unfold cardLoaded
  split
  · exact Canonical_faultCard hs
  · split
    · exact Canonical_faultCard hs
    · exact Canonical_ite (Canonical_freeEntry hs) (Canonical_modPart hs)

theorem Canonical_execCardRead {slot : Nat} (hs : Canonical s) : CanonicalNext (execCardRead p slot s) := by
  unfold execCardRead
  split
  · exact .next hs
  · split
    · exact .next hs
    · split
      · exact .next hs
      · split
        · exact .next hs
        · split
          · exact .next hs
          · split
            · exact .next (Canonical_of_eq ‹_› (Canonical_asidXlat hs))
            · exact .next (Canonical_faultCard (Canonical_of_eq ‹_› (Canonical_asidXlat hs)))
            · exact .next (Canonical_ite (Canonical_cardAbsent (Canonical_of_eq ‹_› (Canonical_asidXlat hs)))
                (Canonical_faultCard (Canonical_of_eq ‹_› (Canonical_asidXlat hs))))
            · split
              · exact .next (Canonical_faultCard (Canonical_of_eq ‹_› (Canonical_asidXlat hs)))
              · exact .next (Canonical_cardLoaded (Canonical_of_eq ‹_› (Canonical_asidXlat hs)))

theorem Canonical_execAgingStep {item : ItemId} (hs : Canonical s) : CanonicalNext (execAgingStep item s) := by
  unfold execAgingStep
  split
  · split
    · exact Canonical_iteNext (.next (Canonical_setEntry hs)) (.next hs)
    · exact .next hs
  · split
    · exact Canonical_iteNext (.next (Canonical_modGang hs)) (.next hs)
    · exact .next hs
  · split
    · split
      · exact Canonical_iteNext (.next (Canonical_modPart (Canonical_setEntry hs))) (.next hs)
      · exact .next hs
    · exact .next hs

theorem Canonical_execHoldClaim {item : ItemId} (hs : Canonical s) : CanonicalNext (execHoldClaim p item s) := by
  unfold execHoldClaim
  dsimp only
  split
  · exact Canonical_iteNext (.next (Canonical_modPart (Canonical_checkHold hs))) (.next hs)
  · exact .next hs

theorem Canonical_setPreq {b : Bool} {l : List TileId} (hs : Canonical s) : Canonical (setPreq s b l) := by
  induction l generalizing s with
  | nil => exact hs
  | cons a l ih => exact ih (Canonical_modTile hs _ (fun _ h' => h'))

theorem Canonical_preemptAll {b : Bool} {l : List (Nat × Gang)} (hs : Canonical s) :
    Canonical (preemptAll s b l) := by
  induction l generalizing s with
  | nil => exact hs
  | cons a l ih => exact ih (Canonical_ite (Canonical_setPreq (Canonical_modGang hs)) hs)

theorem Canonical_preemptMsg {w0 w1 : Word} (hs : Canonical s) : CanonicalSome (preemptMsg s n p w0 w1) := by
  unfold preemptMsg
  dsimp only
  exact Canonical_iteSome .none (.some (Canonical_preemptAll hs))

theorem Canonical_preemptStep {th : ThreadId} {m : Msg} {cmd : Nat} (hs : Canonical s) :
    CanonicalNext (preemptStep th m cmd s) := by
  unfold preemptStep
  split
  · exact .next hs
  · exact Canonical_iteNext (.next (Canonical_getD (Canonical_preemptMsg hs) hs)) (.next hs)

theorem Canonical_execPreemptFallback {gang : Nat} (hs : Canonical s) :
    CanonicalNext (execPreemptFallback gang s) := by
  unfold execPreemptFallback
  split
  · exact .next hs
  · exact Canonical_iteNext (.next (Canonical_abortGang hs)) (.next hs)

/-! ### Counters, bookings and sends -/

theorem Canonical_tryPacket {k : Nat} {o : OutSend} {p : OutPacket} (hs : Canonical s) :
    Canonical (tryPacket s id k o p) := by
  unfold tryPacket
  dsimp only
  exact Canonical_update (Canonical_fresh hs)

theorem Canonical_packetRow {m : Send} {k : Nat} (hs : Canonical s) : Canonical (packetRow s id m k).1 := by
  unfold packetRow
  split
  · exact Canonical_rowRange hs
  · exact hs

theorem Canonical_transmit {k : Nat} {o : OutSend} (hs : Canonical s) : Canonical (transmit s id k o) := by
  unfold transmit
  split
  · exact hs
  · split
    · exact Canonical_tryPacket hs
    · split
      · split
        · exact Canonical_of_eq ‹_› (Canonical_packetRow hs)
        · exact Canonical_tryPacket (Canonical_of_eq ‹_› (Canonical_packetRow hs))
      · exact Canonical_of_eq ‹_› (Canonical_packetRow hs)

theorem Canonical_transmitAll {l : List Nat} (hs : Canonical s) : Canonical (transmitAll s id l) := by
  induction l generalizing s with
  | nil => exact hs
  | cons a l ih => exact ih (by split; exacts [Canonical_transmit hs, hs])

theorem Canonical_acceptSend {m : Send} (hs : Canonical s) : Canonical (acceptSend s m) := by
  unfold acceptSend
  dsimp only
  exact Canonical_transmitAll (Canonical_update hs)

theorem Canonical_fireLaunch {num : Nat} {ms : List Mark} (hs : Canonical s) :
    Canonical (fireLaunch s num p v w ms).1 := by
  unfold fireLaunch
  split
  · exact hs
  · exact Canonical_arrive (Canonical_of_some ‹_› (Canonical_reserve hs))

theorem Canonical_fireJqput {num : Nat} {ms : List Mark} (hs : Canonical s) :
    Canonical (fireJqput s num p v w ms).1 := by
  unfold fireJqput
  dsimp only
  split
  · exact Canonical_portRefusal hs
  · split
    · exact hs
    · exact Canonical_arrive (Canonical_of_some ‹_› (Canonical_reserve hs))

theorem Canonical_fireSend (hs : Canonical s) : Canonical (fireSend s p v w).1 := by
  unfold fireSend
  dsimp only
  exact Canonical_iteFst (Canonical_acceptSend hs) hs

theorem Canonical_fireCopy {n : Option (ThreadId × Event)} (hs : Canonical s) : Canonical (fireCopy s p v w n) := by
  unfold fireCopy
  dsimp only
  exact Canonical_addDrover hs

theorem Canonical_notifyFire {e : Event} (hs : Canonical s) :
    Canonical (notifyFire s w e) := Canonical_ite (Canonical_sendEvent hs _ _) hs

theorem Canonical_fireOnce {num : Nat} {b : Booking} {value : Word} (hs : Canonical s) :
    Canonical (fireOnce s num b value) := by
  unfold fireOnce
  dsimp only
  split
  · split
    · exact Canonical_notifyFire hs
    · split
      · exact Canonical_notifyFire hs
      · exact Canonical_notifyFire (Canonical_fireLaunch hs)
      · exact Canonical_fireCopy (Canonical_observeDevice hs)
      · exact Canonical_notifyFire (Canonical_fireSend (Canonical_observeDevice hs))
      · exact Canonical_notifyFire (Canonical_fireJqput hs)
  · exact Canonical_notifyFire hs

theorem Canonical_fireTimes {num : Nat} {value : Word} {m : Nat} (hs : Canonical s) :
    Canonical (fireTimes s num value m) := by
  induction m generalizing s with
  | zero => exact hs
  | succ m ih =>
    rw [fireTimes]
    dsimp only
    split
    · exact hs
    · exact ih (Canonical_fireOnce (Canonical_update hs))

theorem Canonical_fireBookings {c : Nat} {value : Word} {l : List (Nat × Booking)} (hs : Canonical s) :
    Canonical (fireBookings s c value l) := by
  induction l generalizing s with
  | nil => exact hs
  | cons a l ih => exact ih (Canonical_ite (Canonical_fireTimes hs) hs)

theorem Canonical_atPlace {k : Nat} (hs : Canonical s) : Canonical (atPlace s k) := Canonical_update hs

theorem Canonical_changeCounter {c : Nat} {v : Word} (hs : Canonical s) : Canonical (changeCounter s c v) := by
  unfold changeCounter
  dsimp only
  exact Canonical_fireBookings (Canonical_ctrSet hs)

theorem Canonical_addCounter {c : Nat} {v : Word} (hs : Canonical s) : Canonical (addCounter s c v) :=
  Canonical_ite (Canonical_update hs) (Canonical_changeCounter (Canonical_atPlace hs))

theorem Canonical_addDone {done : Option Nat} (hs : Canonical s) : Canonical (addDone s done) := by
  unfold addDone
  split
  · exact hs
  · exact Canonical_addCounter hs

theorem Canonical_armBooking {p : Option PartId} {num : Nat} (hs : Canonical s) :
    Canonical (armBooking s p num w) := by
  unfold armBooking
  dsimp only
  exact Canonical_fireTimes (Canonical_ite (Canonical_ctrSet (Canonical_update hs)) (Canonical_update hs))

theorem Canonical_disarmBooking {p : Option PartId} {num : Nat} (hs : Canonical s) :
    Canonical (disarmBooking s p num) := by
  unfold disarmBooking
  dsimp only
  exact Canonical_update hs

theorem Canonical_execBkarm {a b : XReg} (hs : Canonical s) : CanonicalNext (execBkarm d a b s) := by
  unfold execBkarm
  dsimp only
  exact Canonical_onThread hs (fun _ => Canonical_iteNext (Canonical_privilege hs)
    (Canonical_iteNext (Canonical_wr hs) (Canonical_iteNext (.next hs)
    (Canonical_iteNext (Canonical_wr (Canonical_disarmBooking (Canonical_atPlace hs)))
    (Canonical_iteNext (Canonical_wr (Canonical_armBooking (Canonical_atPlace hs))) (Canonical_wr hs))))))

/-! ### The local services behind SEND -/

theorem Canonical_importCounters {c : Nat} {l : List Word} (hs : Canonical s) : Canonical (importCounters s c l) := by
  induction l generalizing s c with
  | nil => exact hs
  | cons a l ih => exact ih (Canonical_ctrSet hs)

theorem Canonical_importBookings {l : List (List Word)} (hs : Canonical s) : Canonical (importBookings s p v l) := by
  induction l generalizing s with
  | nil => exact hs
  | cons a l ih => exact ih (Canonical_update hs)

theorem Canonical_importEntries {m : Nat} {l : List (List Word)} (hs : Canonical s) :
    Canonical (importEntries s p v m l).1 := by
  induction l generalizing s p v m with
  | nil => exact hs
  | cons a l ih =>
    rw [importEntries]
    dsimp only
    split
    · exact hs
    · exact ih (Canonical_update hs)

theorem Canonical_importLodging {m : Nat} {w : List Word} (hs : Canonical s) :
    Canonical (importLodging s p v m w).1 := by
  induction m generalizing s w with
  | zero => exact hs
  | succ m ih =>
    unfold importLodging
    dsimp only
    split
    · exact hs
    · split
      · exact hs
      · exact ih (Canonical_update hs)

theorem Canonical_importLinks {ids ls : List Nat} {l : List (List Word)} (hs : Canonical s) :
    Canonical (importLinks s ids ls l) := by
  induction l generalizing s with
  | nil => exact hs
  | cons a l ih => exact ih (by split; exacts [(by split; exacts [Canonical_parkEntry hs, hs]), hs])

theorem Canonical_importEvents {l : List (List Word)} (hs : Canonical s) : Canonical (importEvents s v l) := by
  induction l generalizing s with
  | nil => exact hs
  | cons a l ih => exact ih (Canonical_ite (Canonical_sendEvent hs _ _) hs)

theorem Canonical_importEndpoints {l : List (List Word)} (hs : Canonical s) : Canonical (importEndpoints s p l) := by
  induction l generalizing s with
  | nil => exact hs
  | cons a l ih => exact ih (Canonical_ite (Canonical_modPart hs) hs)

theorem Canonical_importImage {img : List Byte} (hs : Canonical s) : Canonical (importImage s v img) := by
  unfold importImage
  dsimp only
  exact Canonical_importEndpoints (Canonical_importEvents
    (Canonical_importLinks (Canonical_importLodging (Canonical_importEntries (Canonical_importBookings
    (Canonical_importCounters hs))))))

theorem Canonical_stateMsg (hs : Canonical s) : CanonicalSome (stateMsg s n w) := by
  unfold stateMsg
  dsimp only
  split
  · exact .none
  · split
    · exact .none
    · split <;> exact Canonical_iteSome (Canonical_map (fun _ => Canonical_addDrover hs)) .none

theorem Canonical_copyMsg (hs : Canonical s) : CanonicalSome (copyMsg s n w) := by
  unfold copyMsg
  dsimp only
  split
  · exact Canonical_stateMsg hs
  · exact Canonical_iteSome .none (Canonical_map (fun _ => Canonical_addDrover hs))

theorem Canonical_droverWants {x : Drover} (hs : Canonical s) : Canonical (droverWants s x) := Canonical_wantWrites hs

theorem Canonical_droverEffect {x : Drover} (hs : Canonical s) : Canonical (droverEffect s id x) := by
  unfold droverEffect
  dsimp only
  split
  · exact Canonical_update (Canonical_zeroMem hs)
  · exact Canonical_physWrite hs _ _
  · exact Canonical_importImage hs
  · exact Canonical_landTransfer hs

theorem Canonical_droverNotify {x : Drover} {status : Nat} (hs : Canonical s) :
    Canonical (droverNotify s x status) := by
  unfold droverNotify
  split
  · exact Canonical_sendEvent hs _ _
  · exact hs

theorem Canonical_endDrover {x : Drover} {tierError : Bool} (hs : Canonical s) :
    Canonical (endDrover s id x tierError) := by
  unfold endDrover
  dsimp only
  exact Canonical_droverNotify (Canonical_addDone (Canonical_dropDrover
    (Canonical_ite hs (Canonical_droverEffect hs))))

theorem Canonical_execDroverComplete {tierError : Bool} (hs : Canonical s) :
    CanonicalNext (execDroverComplete id tierError s) := by
  unfold execDroverComplete
  split
  · exact .next hs
  · split
    · exact .next hs
    · split
      · exact .next hs
      · split
        · exact .next (Canonical_endPiece hs)
        · split
          · exact .next (Canonical_of_eq ‹_› (Canonical_transferRow hs))
          · exact .next (Canonical_ite (Canonical_droverWants (Canonical_of_eq ‹_› (Canonical_transferRow hs)))
              (Canonical_endPiece (Canonical_of_eq ‹_› (Canonical_transferRow hs))))
      · split
        · exact .next (Canonical_of_eq ‹_› (Canonical_transferRow hs))
        · split
          · exact .next (Canonical_droverWants (Canonical_of_eq ‹_› (Canonical_transferRow hs)))
          · split
            · exact .next (Canonical_of_eq ‹_› (Canonical_transferRow hs))
            · exact .next (Canonical_endDrover (Canonical_of_eq ‹_› (Canonical_transferRow hs)))
      · split
        · exact .next (Canonical_droverWants hs)
        · exact Canonical_iteNext (.next hs) (.next (Canonical_endDrover hs))

theorem Canonical_writeCompletion {e : List Word} (hs : Canonical s) : Canonical (writeCompletion s v e) := by
  unfold writeCompletion
  dsimp only
  split
  · exact Canonical_update (Canonical_setVf (Canonical_physWrite hs _ _) _ _)
  · exact Canonical_setVf (Canonical_physWrite hs _ _) _ _

theorem Canonical_drainCompletions {l : List (List Word)} (hs : Canonical s) :
    Canonical (drainCompletions s v l) := by
  induction l generalizing s with
  | nil => exact Canonical_modVf hs
  | cons a l ih => exact Canonical_ite (Canonical_modVf hs) (ih (Canonical_writeCompletion hs))

theorem Canonical_addCompletion {hostSeq status : Nat} {lo hi : Word} (hs : Canonical s) :
    Canonical (addCompletion s v hostSeq status lo hi) := by
  unfold addCompletion
  dsimp only
  exact Canonical_ite (Canonical_drainCompletions hs) (Canonical_setVf hs _ _)

theorem Canonical_completionMsg {cookie lo hi : Word} (hs : Canonical s) :
    CanonicalSome (completionMsg s n cookie lo hi) := by
  unfold completionMsg
  split
  · exact .none
  · exact .some (Canonical_addCompletion hs)

theorem Canonical_execCplhead {vf : VfId} {value : BitVec 64} (hs : Canonical s) :
    CanonicalNext (execCplhead vf value s) := by
  unfold execCplhead
  dsimp only
  exact Canonical_iteNext (.next hs) (.next (Canonical_drainCompletions (Canonical_setVf hs _ _)))

theorem Canonical_timerMsg (hs : Canonical s) : CanonicalSome (timerMsg s n w) := by
  unfold timerMsg
  dsimp only
  exact Canonical_iteSome .none (.some (Canonical_update hs))

theorem Canonical_execTimerExpiry (hs : Canonical s) : CanonicalNext (execTimerExpiry id s) := by
  unfold execTimerExpiry
  split
  · exact .next hs
  · split
    · exact .next hs
    · exact .next (Canonical_sendEvent (by exact Canonical_update hs) _ _)

theorem Canonical_nvmeMsg {m : Msg} {notify : Option ThreadId} {cookie : Word} {done : Option Nat}
    (hs : Canonical s) :
    CanonicalSome (nvmeMsg s n m notify cookie done) := Canonical_iteSome (.some (Canonical_update hs)) .none

theorem Canonical_execNvmeAdminCompletion {port : Fin 8} {lo hi : BitVec 64} (hs : Canonical s) :
    CanonicalNext (execNvmeAdminCompletion port lo hi s) := by
  unfold execNvmeAdminCompletion
  dsimp only
  split
  · exact .next hs
  · refine .next ?_
    split
    · exact Canonical_sendEvent (by exact Canonical_addDone (Canonical_update hs)) _ _
    · exact Canonical_addDone (Canonical_update hs)

theorem Canonical_snapshotMsg {m : Msg} {notify : Option ThreadId} {cookie : Word} {done : Option Nat}
    (hs : Canonical s) : CanonicalSome (snapshotMsg s n m notify cookie done) := by
  unfold snapshotMsg
  dsimp only
  split
  · exact .none
  · split
    · exact .none
    · split
      · exact .none
      · refine .some (Canonical_setSnapshots hs fun x hx => ?_)
        rcases List.mem_append.1 hx with hx | hx
        · exact Canonical_image hs hx
        · rw [List.mem_singleton.1 hx]; rfl

theorem Canonical_modSnap {a : SnapScope} {f : Snapshot → Snapshot} (hs : Canonical s)
    (hf : ∀ x, Memory.wf x.image = true → Memory.wf (f x).image = true) : Canonical (modSnap s a f) :=
  Canonical_mapSnapshots hs fun x hx => by
    split
    · exact hf x hx
    · exact hx

theorem wf_imageCounters {m : Memory} (hm : Memory.wf m = true) : Memory.wf (imageCounters s m v) = true := by
  unfold imageCounters
  dsimp only
  split
  · exact wf_mwrite _ _ hm
  · exact hm

/-- An image is cut from memory, which is canonical, with the VFs' counters written over it (R371). -/
theorem wf_cutImage (hs : Canonical s) : Memory.wf (cutImage s) = true :=
  List.foldlRecOn (motive := fun m => Memory.wf m = true) _ _ (Canonical_mem hs) fun _ hm _ _ => wf_imageCounters hm

theorem Canonical_askSave {x : Snapshot} (hs : Canonical s) : Canonical (askSave s x) := by
  unfold askSave
  dsimp only
  split
  · exact hs
  · exact Canonical_addDrover hs

theorem Canonical_execSnapshotCut {scope : SnapScope} (hs : Canonical s) :
    CanonicalNext (execSnapshotCut scope s) := by
  unfold execSnapshotCut
  dsimp only
  split
  · exact .next hs
  · split
    · exact .next hs
    · exact .next (Canonical_askSave (Canonical_modSnap hs (fun _ _ => wf_cutImage hs)))

theorem Canonical_endSnapshot {x : Snapshot} {tierError : Bool} (hs : Canonical s) :
    Canonical (endSnapshot s x tierError) := by
  have h := Canonical_sendEvent (Canonical_addDone (done := x.done) (Canonical_addCounter (c := x.ctr) (v := 1)
    (Canonical_filterSnapshots (f := fun y => decide (y.scope ≠ x.scope))
      (Canonical_dropDrovers (p := fun y => decide (y.kind = .save x.scope)) hs)))) x.thread
    (msgComplete (if tierError then 4 else 0) 0 2 x.cookie [])
  unfold endSnapshot
  dsimp only
  split
  · exact Canonical_sendEvent h _ _
  · exact h

theorem Canonical_execSnapshotFrameSave {scope : SnapScope} (hs : Canonical s) :
    CanonicalNext (execSnapshotFrameSave scope s) := by
  unfold execSnapshotFrameSave
  split
  · have hx := Canonical_image hs (List.mem_of_find?_eq_some ‹s.snapshots.find? _ = some _›)
    split
    · exact .next hs
    · split
      · exact .next (Canonical_endSnapshot hs)
      · split
        · exact .next (Canonical_askSave (Canonical_modSnap (Canonical_saveFrame (Canonical_dropDrover hs))
            fun _ _ => hx))
        · split
          · exact .next (Canonical_askSave (Canonical_dropDrover hs))
          · split
            · exact .next hs
            · exact .next (Canonical_askSave (Canonical_modSnap (Canonical_saveFrame (Canonical_dropDrover hs))
                fun _ _ => hx))
  · exact .next hs

theorem Canonical_execSnapshotComplete {scope : SnapScope} {tierError : Bool} (hs : Canonical s) :
    CanonicalNext (execSnapshotComplete scope tierError s) := by
  unfold execSnapshotComplete
  split
  · exact .next hs
  · exact Canonical_iteNext (.next (Canonical_endSnapshot hs)) (.next hs)

theorem Canonical_imageLanding {bs : List Byte} (hs : Canonical s) : Canonical (imageLanding s id v ipa bs) := by
  unfold imageLanding
  exact Canonical_foldl (fun _ _ h' => (by split; exacts [Canonical_imageSet h', h'])) hs

/-! ### Packets, messages and link states -/

theorem Canonical_serviceMsg {slot : Nat} {m : Msg} (hs : Canonical s) : CanonicalSome (serviceMsg s n slot w m) := by
  unfold serviceMsg
  split
  · exact Canonical_bind fun _ => Canonical_preemptMsg hs
  · exact Canonical_bind fun _ => Canonical_lodgingMsg hs
  · exact Canonical_snapshotMsg hs
  · exact Canonical_nvmeMsg hs
  · exact Canonical_copyMsg hs
  · exact Canonical_completionMsg hs
  · exact Canonical_timerMsg hs
  · exact .none

theorem Canonical_serviceDone {slot : Nat} (hs : Canonical s) : Canonical (serviceDone s n slot w) := by
  unfold serviceDone
  dsimp only
  split
  · exact Canonical_addDone hs
  · exact Canonical_sendEvent (Canonical_addDone hs) _ _

theorem Canonical_sendLocal {m : Nat} (hs : Canonical s) : CanonicalSome (sendLocal s n m w) := by
  unfold sendLocal
  split
  · exact .none
  · dsimp only
    cases h : serviceMsg s n m w _ with
    | none => exact .none
    | some t =>
      have ht := Canonical_of_some h (Canonical_serviceMsg hs)
      exact .some (Canonical_ite ht (Canonical_serviceDone ht))

theorem Canonical_handSend {m : Send} (hs : Canonical s) : Canonical (handSend s m) := by
  unfold handSend
  split
  · exact Canonical_modTile hs _ fun _ h' => h'
  · exact Canonical_acceptSend hs

theorem Canonical_sendPeer {h : Word} (hs : Canonical s) : CanonicalNext (sendPeer s d h w) := by
  unfold sendPeer
  split
  · exact Canonical_wr hs
  · split
    · exact Canonical_wr hs
    · split
      · exact Canonical_wr hs
      · exact Canonical_iteNext (Canonical_publishFull hs) (Canonical_wr (Canonical_handSend hs))

theorem Canonical_holdAccess (hs : Canonical s) : CanonicalNext (holdAccess s n) := by
  unfold holdAccess
  dsimp only
  exact .next (Canonical_modThr hs _ (fun _ h' => h'))

theorem Canonical_sdRow (hs : Canonical s) : Canonical (sdRow s n w).1 := by
  unfold sdRow
  split
  · exact Canonical_iteFst (Canonical_rowRange hs) hs
  · exact hs

theorem Canonical_execSend {a b : XReg} (hs : Canonical s) : CanonicalNext (execSend d a b s) := by
  unfold execSend
  dsimp only
  refine Canonical_scalar hs (Canonical_iteNext (Canonical_wr hs) (Canonical_iteNext (Canonical_sendPeer hs) ?_))
  split
  · exact Canonical_wr hs
  · split
    · exact Canonical_holdAccess (Canonical_of_eq ‹_› (Canonical_sdRow hs))
    · refine Canonical_iteNext (Canonical_holdAccess (Canonical_of_eq ‹_› (Canonical_sdRow hs))) ?_
      split
      · exact Canonical_wr (Canonical_ite (Canonical_modThr (Canonical_of_eq ‹_› (Canonical_sdRow hs)) _
          (fun _ h' => h')) (Canonical_of_eq ‹_› (Canonical_sdRow hs)))
      · exact Canonical_wr (Canonical_of_some ‹_› (Canonical_sendLocal
          (Canonical_ite (Canonical_modThr (Canonical_of_eq ‹_› (Canonical_sdRow hs)) _ (by exact fun _ h' => h'))
          (Canonical_of_eq ‹_› (Canonical_sdRow hs)))))

theorem Canonical_completeSend {m : Send} {status : Nat} (hs : Canonical s) :
    Canonical (completeSend s id m status) := by
  unfold completeSend
  dsimp only
  split
  · exact Canonical_addDone (Canonical_update hs)
  · exact Canonical_sendEvent (by exact Canonical_addDone (Canonical_update hs)) _ _

theorem Canonical_responseRow {o : OutSend} {bs : List Byte} (hs : Canonical s) :
    Canonical (responseRow s id o bs).1 := by
  unfold responseRow
  split
  · exact Canonical_rowRange hs
  · exact hs

theorem Canonical_landResponse {o : OutSend} {bs : List Byte} (hs : Canonical s) :
    Canonical (landResponse s o bs) := by
  unfold landResponse
  split
  · exact Canonical_ipaWrite hs
  · exact hs

theorem Canonical_settleSend {o : OutSend} (hs : Canonical s) :
    Canonical (settleSend s id o) := Canonical_ite (Canonical_completeSend hs) hs

theorem Canonical_execAckArrival {id : SendPacket} {resp : List (BitVec 8)} (hs : Canonical s) :
    CanonicalNext (execAckArrival id resp s) := by
  unfold execAckArrival
  split
  · exact .next hs
  · split
    · exact .next hs
    · split
      · exact .next (Canonical_settleSend hs)
      · split
        · exact .next hs
        · dsimp only
          split
          · next hu => exact .next (Canonical_of_eq hu (Canonical_responseRow hs))
          · next u hu =>
            have hu := Canonical_of_eq hu (Canonical_responseRow hs)
            split
            · exact .next (Canonical_elim hu fun _ => Canonical_wantWrites hu)
            · exact .next (Canonical_settleSend (Canonical_update (Canonical_landResponse hu)))

theorem Canonical_execRetransmitTimeout {id : SendPacket} (hs : Canonical s) :
    CanonicalNext (execRetransmitTimeout id s) := by
  unfold execRetransmitTimeout
  split
  · exact .next hs
  · split
    · exact .next hs
    · split
      · exact .next hs
      · split
        · exact Canonical_iteNext (.next hs) (.next (Canonical_completeSend hs))
        · exact .next (Canonical_transmit hs)

theorem Canonical_execRetryBackoffExpiry {id : SendPacket} (hs : Canonical s) :
    CanonicalNext (execRetryBackoffExpiry id s) := by
  unfold execRetryBackoffExpiry
  split
  · exact .next hs
  · split
    · exact .next hs
    · exact Canonical_iteNext (.next (Canonical_transmit hs)) (.next hs)

theorem Canonical_bindMessage {ctx : Option (Nat × Nat × Bool)} {k : MsgKind} {slot : Nat} {tag : Word}
    {offset total num : Nat} {b : Booking} (hs : Canonical s) :
    Canonical (bindMessage s ctx v k slot tag offset total num b).2 := Canonical_update hs

theorem wf_landTile {o : Nat} {bs : List Byte} (hT : Memory.wf T.spad = true) :
    Memory.wf (landTile T v o bs).spad = true := by
  unfold landTile
  dsimp only
  exact wf_iteTile hT (wf_mwrite _ _ (wf_retagBlocks hT))

theorem Canonical_landWants {id : Option Nat} {m : InMessage} {off n : Nat} (hs : Canonical s) :
    Canonical (landWants s id m off n) := by
  unfold landWants
  dsimp only
  exact Canonical_ite (Canonical_wantWrites hs) hs

theorem Canonical_landBytes {m : InMessage} {off : Nat} {bs : List Byte} (hs : Canonical s) :
    Canonical (landBytes s m off bs) := by
  unfold landBytes
  dsimp only
  split
  · exact Canonical_modTile hs _ fun _ h' => wf_landTile h'
  · exact Canonical_ipaWrite hs
  · exact hs

theorem Canonical_takePacket {m : InMessage} {p : Packet} (hs : Canonical s) : Canonical (takePacket s id m p) := by
  unfold takePacket
  dsimp only
  split
  · exact Canonical_update hs
  · exact Canonical_update (Canonical_ite (Canonical_imageLanding (Canonical_landBytes hs)) (Canonical_landBytes hs))

theorem Canonical_takeContext {p : Packet} {part : PartId} (hs : Canonical s) :
    CanonicalSome (takeContext s p part) :=
  Canonical_iteSome (.some hs) (Canonical_iteSome (.some (Canonical_update hs)) .none)

theorem Canonical_closeContext {context : Nat} (hs : Canonical s) :
    Canonical (closeContext s context) := Canonical_ite hs (Canonical_update hs)

theorem Canonical_answerPacket {p : Packet} {a : Reply} (hs : Canonical s) :
    Canonical (answerPacket s p a) := Canonical_update hs

theorem Canonical_boundMessage {a : Packet} {o : Option Nat} {m : InMessage} {u : State} (hs : Canonical s)
    (e : boundMessage s v a = some (o, m, u)) : Canonical u := by
  unfold boundMessage at e
  dsimp only at e
  split at e
  · cases e; exact hs
  · obtain ⟨b, -, e⟩ := Option.map_eq_some_iff.1 e
    cases e
    exact Canonical_atPlace (Canonical_bindMessage hs)

theorem Canonical_acceptPacket {a : Packet} (hs : Canonical s) : Canonical (acceptPacket s v a) := by
  unfold acceptPacket
  split
  · exact Canonical_answerPacket hs
  · exact Canonical_answerPacket hs
  · have hu := Canonical_of_some ‹_› (Canonical_takeContext hs)
    split
    · exact Canonical_answerPacket (Canonical_landWants hs)
    · split
      · exact hs
      · split
        · exact hs
        · exact Canonical_answerPacket (Canonical_takePacket (Canonical_update (Canonical_boundMessage hu ‹_›)))

theorem Canonical_execPacketArrival {p : Packet} (hs : Canonical s) : CanonicalNext (execPacketArrival p s) := by
  have hanswer : ∀ {a}, CanonicalNext (.next (answerPacket s p a)) := .next (Canonical_answerPacket hs)
  refine Canonical_iteNext (.next hs) (Canonical_iteNext (.next (Canonical_update hs)) (Canonical_iteNext hanswer
    (Canonical_iteNext (.next hs) (Canonical_iteNext hanswer ?_))))
  split
  · exact hanswer
  · exact Canonical_iteNext (.next (Canonical_acceptPacket hs)) hanswer

theorem Canonical_launchOver {m : InMessage} (hs : Canonical s) :
    Canonical (launchOver s m) := Canonical_ite (Canonical_modVf hs) hs

theorem Canonical_spadCount {m : InMessage} {placed : Nat} (hs : Canonical s) : Canonical (spadCount s m placed) := by
  unfold spadCount
  dsimp only
  split
  · exact Canonical_modTile hs _ fun _ h' => wf_landTile (wf_retagBlocks h')
  · exact hs

theorem Canonical_countMessage {m : InMessage} {placed : Nat} (hs : Canonical s) :
    Canonical (countMessage s m placed) := Canonical_changeCounter (Canonical_atPlace (Canonical_spadCount hs))

theorem Canonical_completeLaunch {m : InMessage} (hs : Canonical s) : Canonical (completeLaunch s id m) := by
  unfold completeLaunch
  dsimp only
  split
  · exact Canonical_launchOver (Canonical_update hs)
  · exact Canonical_countMessage (Canonical_landBytes (Canonical_launchOver (Canonical_update hs)))

theorem Canonical_launchRow {m : InMessage} (hs : Canonical s) :
    Canonical (launchRow s id m).1 := Canonical_iteFst (Canonical_rowRange hs) hs

theorem Canonical_execMessageCompletion (hs : Canonical s) : CanonicalNext (execMessageCompletion id s) := by
  unfold execMessageCompletion
  split
  · exact .next hs
  · split
    · exact .next hs
    · split
      · split
        · exact .next (Canonical_of_eq ‹_› (Canonical_launchRow hs))
        · split
          · exact .next (Canonical_landWants (Canonical_of_eq ‹_› (Canonical_launchRow hs)))
          · exact .next (Canonical_completeLaunch (Canonical_of_eq ‹_› (Canonical_launchRow hs)))
      · exact .next (Canonical_countMessage (Canonical_update hs))

theorem Canonical_launchMessage {m : Msg} (hs : Canonical s) : Canonical (launchMessage s v m) := by
  unfold launchMessage
  dsimp only
  split
  · exact Canonical_sendEvent hs _ _
  · exact Canonical_update (Canonical_bindMessage hs)

theorem Canonical_execLaunch {vf : VfId} {packet : Msg} (hs : Canonical s) :
    CanonicalNext (execLaunch vf packet s) := by
  unfold execLaunch
  dsimp only
  split
  · exact .next (Canonical_ite (Canonical_setVf hs _ _) hs)
  · split
    · split
      · exact .next hs
      · exact .next (Canonical_launchMessage (Canonical_atPlace (Canonical_setVf hs _ _)))
    · exact .next hs

theorem Canonical_systemIpaWrite {l : List Byte} (hs : Canonical s) : Canonical (systemIpaWrite s v ipa l) := by
  induction l generalizing s v ipa with
  | nil => exact hs
  | cons a l ih => exact ih (by split; exacts [Canonical_physSetBy hs _ _ _, hs])

theorem Canonical_answerPurlin {a : Reply} {bs : List Byte} (hs : Canonical s) :
    Canonical (answerPurlin s a bs) := Canonical_update hs

theorem Canonical_execPurlinRequest {r : PurlinReq} (hs : Canonical s) : CanonicalNext (execPurlinRequest r s) := by
  unfold execPurlinRequest
  dsimp only
  split
  · exact .next (Canonical_answerPurlin hs)
  · split
    · split
      · exact .next (Canonical_ite (Canonical_wantWrites hs) hs)
      · split
        · exact .next (Canonical_answerPurlin (Canonical_systemIpaWrite hs))
        · exact .next (Canonical_answerPurlin hs)
    · exact .next (Canonical_answerPurlin hs)

theorem Canonical_toStewards {e : Event} {l : List PartId} (hs : Canonical s) : Canonical (toStewards s e l) := by
  induction l generalizing s with
  | nil => exact hs
  | cons a l ih => exact ih (Canonical_ite (Canonical_sendEvent hs _ _) hs)

theorem Canonical_failTransfer {x : Drover} (hs : Canonical s) : Canonical (failTransfer s id x) := by
  unfold failTransfer
  split
  · split
    · exact Canonical_failFetch hs
    · exact Canonical_dropDrover hs
  · split
    · exact Canonical_endSnapshot hs
    · exact Canonical_dropDrover hs
  · exact Canonical_ite hs (Canonical_endDrover hs)

theorem Canonical_failTransfers {port : Nat} {l : List Nat} (hs : Canonical s) :
    Canonical (failTransfers s port l) := by
  induction l generalizing s with
  | nil => exact hs
  | cons a l ih => exact ih (by split; exacts [hs, Canonical_ite (Canonical_failTransfer hs) hs])

theorem Canonical_execLinkStateChange {kind : PortKind} {port : Nat} {up : Bool} (hs : Canonical s) :
    CanonicalNext (execLinkStateChange kind port up s) := by
  unfold execLinkStateChange
  dsimp only
  split
  · exact .next hs
  · exact .next (Canonical_toStewards (Canonical_sendEvent
      (by exact Canonical_ite (Canonical_failTransfers (Canonical_update hs)) (Canonical_update hs)) _ _))

theorem Canonical_takenEvent {e : Event} (hs : Canonical s) : Canonical (takenEvent s e) := by
  unfold takenEvent
  dsimp only
  split
  · refine Canonical_modVf ?_
    split
    · exact Canonical_modPart (by split; exacts [Canonical_modVf hs, hs])
    · split
      · exact Canonical_modVf hs
      · exact hs
  · split
    · exact Canonical_modPart (by split; exacts [Canonical_modVf hs, hs])
    · split
      · exact Canonical_modVf hs
      · exact hs

theorem wf_popEvent {h : Thread} (hH : Memory.wf h.store = true) : Memory.wf (popEvent h).store = true := hH

theorem Canonical_deliver {e : Event} (hs : Canonical s) : CanonicalNext (deliver s n d e) := by
  unfold deliver
  dsimp only
  have hpopped := Canonical_modThr hs n (f := popEvent) fun _ hh => wf_popEvent hh
  exact Canonical_wr (Canonical_modThr (Canonical_observeThread (Canonical_takenEvent hpopped)) _
    fun _ hh => wf_storePutWords hh _ _)

theorem Canonical_parkAtEvget (hs : Canonical s) :
    Canonical (parkAtEvget s n d) := Canonical_modThr hs _ fun _ h' => h'

theorem Canonical_execEvget (hs : Canonical s) : CanonicalNext (execEvget d s) := by
  unfold execEvget
  dsimp only
  refine Canonical_onThread hs fun _ => ?_
  split
  · exact Canonical_iteNext (.next (Canonical_parkAtEvget (Canonical_ite (Canonical_endHandler hs) hs)))
      (Canonical_deliver (Canonical_ite (Canonical_endHandler hs) hs))
  · exact .next (Canonical_parkAtEvget (Canonical_ite (Canonical_endHandler hs) hs))

theorem Canonical_execWatchdog {th : ThreadId} (hs : Canonical s) : CanonicalNext (execWatchdog th s) := by
  unfold execWatchdog
  dsimp only
  exact Canonical_iteNext (.next (Canonical_killThread hs)) (.next hs)

/-! ### The configuration space, and global memory as threads reach it -/

theorem Canonical_releaseThreads {l : List ThreadId} (hs : Canonical s) : Canonical (releaseThreads s l) := by
  induction l generalizing s with
  | nil => exact hs
  | cons a l ih => exact ih (Canonical_modThr hs _ (fun _ h' => wf_startThread h'))

theorem Canonical_writeTier {w : Nat} {x : Word} (hs : Canonical s) : CanonicalSome (writeTier s p w x) := by
  unfold writeTier
  dsimp only
  split
  · exact Canonical_iteSome (.some (Canonical_modPart hs)) .none
  · exact Canonical_iteSome (.some (Canonical_modPart hs)) .none
  · exact .some (Canonical_modPart hs)
  · exact .some hs

theorem Canonical_writeCodeSize {x : Word} (hs : Canonical s) : CanonicalSome (writeCodeSize s p x) := by
  unfold writeCodeSize
  dsimp only
  split
  · exact .some (Canonical_ite (Canonical_setPart hs _ _) (Canonical_releaseThreads (Canonical_setPart hs _ _)))
  · exact .none

theorem Canonical_writeCodeBase {x : Word} (hs : Canonical s) : CanonicalSome (writeCodeBase s p x) := by
  unfold writeCodeBase
  dsimp only
  exact Canonical_iteSome (.some (Canonical_setPart hs _ _)) .none

theorem Canonical_writeGrpBase {x : Word} (hs : Canonical s) : CanonicalSome (writeGrpBase s p x) := by
  unfold writeGrpBase
  dsimp only
  exact Canonical_iteSome (.some (Canonical_setPart hs _ _)) .none

theorem Canonical_writeVfWord {w : Nat} {x : Word} (hs : Canonical s) : CanonicalSome (writeVfWord s p v w x) := by
  unfold writeVfWord
  dsimp only
  split <;> exact Canonical_iteSome (.some (Canonical_setVf hs _ _)) .none

theorem Canonical_writeSlot {n w : Nat} {x : Word} (hs : Canonical s) :
    CanonicalSome (writeSlot s p n w x) := Canonical_iteSome (.some (Canonical_modPart hs)) .none

theorem Canonical_cfgWrite {r : CfgReg} {x : Word} (hs : Canonical s) : CanonicalSome (cfgWrite s n r x) := by
  unfold cfgWrite
  dsimp only
  split
  · exact Canonical_iteSome (Canonical_writeTier hs) .none
  · exact Canonical_iteSome (.some (Canonical_modPart hs)) .none
  · exact Canonical_iteSome (Canonical_writeCodeBase hs) .none
  · exact Canonical_iteSome (Canonical_writeCodeSize hs) .none
  · exact Canonical_iteSome (Canonical_writeGrpBase hs) .none
  · exact Canonical_iteSome (.some hs) .none
  · split
    · exact Canonical_iteSome (Canonical_writeVfWord hs) .none
    · exact .none
  · exact Canonical_iteSome (Canonical_writeSlot hs) .none
  · exact .none
  · exact .none

theorem Canonical_writeTag {f : Nat} {tag : BitVec 8} (hs : Canonical s) : CanonicalSome (writeTag s n f tag) := by
  unfold writeTag
  dsimp only
  split
  · exact .none
  · split
    · exact .some (Canonical_addDrover (Canonical_update hs))
    · exact .some (Canonical_update hs)

theorem Canonical_spaceWrite {th : ThreadId} {a n v : Nat} (hs : Canonical s) :
    CanonicalSome (spaceWrite s th a n v) := by
  unfold spaceWrite
  split
  · split
    · exact Canonical_iteSome (Canonical_writeTag hs) .none
    · exact Canonical_cfgWrite hs
  · exact .some (Canonical_physWrite hs _ _)

theorem Canonical_globalAccess {a : Word} {n : Nat} {r : Right} {reads : Bool} {f : ThreadId → State → Nat → Result}
    (hs : Canonical s) (hf : ∀ n s pa, Canonical s → CanonicalNext (f n s pa)) :
    CanonicalNext (globalAccess s i a n r reads f) := by
  unfold globalAccess
  refine Canonical_onThread hs (fun _ => Canonical_iteNext (Canonical_raise hs) ?_)
  split
  · split
    · exact Canonical_raise (Canonical_of_eq ‹_› (Canonical_threadXlat hs))
    · exact Canonical_iteNext (.next (Canonical_of_eq ‹_› (Canonical_threadXlat hs)))
        (hf _ _ _ (by exact Canonical_modThr (Canonical_of_eq ‹_› (Canonical_threadXlat hs)) _ (fun _ h' => h')))
  · exact Canonical_holdAccess (Canonical_of_eq ‹_› (Canonical_threadXlat hs))
  · exact Canonical_raise (Canonical_of_eq ‹_› (Canonical_threadXlat hs))
  · exact Canonical_raise (Canonical_of_eq ‹_› (Canonical_threadXlat hs))

theorem Canonical_loadGlobal {a : XReg} {o : BitVec 13} {n : Nat} {signed : Bool} (hs : Canonical s) :
    CanonicalNext (loadGlobal s i d a o n signed) := by
  unfold loadGlobal
  dsimp only
  refine Canonical_globalAccess hs fun _ _ _ h' => ?_
  split
  · exact Canonical_raise h'
  · exact Canonical_wr (Canonical_observeThread h')

theorem Canonical_storeGlobal {r a : XReg} {o : BitVec 13} {n : Nat} (hs : Canonical s) :
    CanonicalNext (storeGlobal s i r a o n) := by
  unfold storeGlobal
  dsimp only
  refine Canonical_globalAccess hs fun _ _ _ h' => ?_
  split
  · exact Canonical_raise h'
  · exact Canonical_done4 (Canonical_of_some ‹_› (Canonical_spaceWrite (Canonical_carryThread h')))

theorem Canonical_atomicSeen {th : ThreadId} (hs : Canonical s) :
    Canonical (atomicSeen s th pa) := Canonical_carryThread (Canonical_observeThread hs)

theorem Canonical_atomicAt {th : ThreadId} {va : Word} {n old new : Nat} {add write : Bool} (hs : Canonical s) :
    CanonicalNext (atomicAt s th d va pa n old new add write) := by
  unfold atomicAt
  split
  · split
    · split
      · exact .next hs
      · exact Canonical_wr (Canonical_addCounter (Canonical_atomicSeen hs))
    · exact Canonical_wr (Canonical_atomicSeen hs)
  · split
    · split
      · exact Canonical_raise hs
      · exact Canonical_wr (Canonical_of_some ‹_› (Canonical_spaceWrite (Canonical_atomicSeen hs)))
    · exact Canonical_wr (Canonical_atomicSeen hs)

theorem Canonical_execAmo {a b : XReg} {z : Fin 4} {o : Fin 32} (hs : Canonical s) :
    CanonicalNext (execAmo d a b z o s) := by
  unfold execAmo
  dsimp only
  refine Canonical_checked hs (Canonical_globalAccess hs (fun _ _ _ h' => ?_))
  split
  · exact Canonical_raise h'
  · exact Canonical_atomicAt h'

theorem Canonical_execCas {a b : XReg} {z : Fin 4} (hs : Canonical s) : CanonicalNext (execCas d a b z s) := by
  unfold execCas
  dsimp only
  refine Canonical_checked hs (Canonical_globalAccess hs (fun _ _ _ h' => ?_))
  split
  · exact Canonical_raise h'
  · exact Canonical_atomicAt h'

theorem Canonical_execEndpointSlot {th : ThreadId} {slot : Nat} {word : Fin 4} {value : BitVec 64}
    (hs : Canonical s) :
    CanonicalNext (execEndpointSlot th p slot word value s) := by
  unfold execEndpointSlot
  dsimp only
  exact .next (Canonical_ite hs (Canonical_getD (Canonical_cfgWrite hs) hs))

/-! ### Publishes -/

theorem Canonical_physMerge {o : Over} {b : StoreByte} (hs : Canonical s) :
    Canonical (physMerge o s pa b) := Canonical_physSetBy hs _ _ _

theorem Canonical_beginPublish {why : PublishFor} (hs : Canonical s) : Canonical (beginPublish s t k why sc) := by
  unfold beginPublish
  dsimp only
  exact Canonical_setTile (Canonical_carry hs _ _) _ (Canonical_spad hs _)

theorem Canonical_mergeAt {o : Over} {b : StoreByte} (hs : Canonical s) :
    Canonical (mergeAt o s pa b) := Canonical_imageSet (Canonical_physMerge hs)

theorem Canonical_memberStore {o : Over} {dev rvf a : Nat} {b : StoreByte} (hs : Canonical s) :
    Canonical (memberStore s o dev rvf a b) :=
  Canonical_ite (Canonical_mergeAt hs) (Canonical_setPeers hs (wf_mset _ _ (Canonical_peers hs)))

theorem Canonical_storeByte {o : Over} {g : Granule} {b : StoreByte} (hs : Canonical s) :
    Canonical (storeByte s o v g b) := by
  unfold storeByte
  split
  · split
    · exact Canonical_mergeAt hs
    · exact hs
  · exact Canonical_memberStore hs

theorem Canonical_storeGranule {o : Over} {g : Granule} (hs : Canonical s) :
    Canonical (storeGranule s o v g) := Canonical_foldl (fun _ _ h' => Canonical_storeByte h') hs

theorem Canonical_storeAll {o : Over} {answer : Granule → Answer} {l : List Granule} (hs : Canonical s) :
    Canonical (storeAll s o v answer l) := by
  induction l generalizing s with
  | nil => exact hs
  | cons a l ih => exact ih (Canonical_ite (Canonical_storeGranule hs) hs)

theorem Canonical_noteReads {p : Publish} {gs : List Granule} (hs : Canonical s) :
    Canonical (noteReads s t p gs) := by
  unfold noteReads
  dsimp only
  exact Canonical_ite (Canonical_modTile hs _ (fun _ h' => h')) hs

theorem Canonical_lostEvents {ls : List (Nat × Nat × Nat)} (hs : Canonical s) : Canonical (lostEvents s v ls) := by
  unfold lostEvents
  dsimp only
  exact Canonical_foldl (fun _ _ h' => Canonical_sendEvent h' _ _) hs

theorem Canonical_addAt {w : Word} (hs : Canonical s) : Canonical (addAt s pa w) := by
  unfold addAt
  split
  · exact Canonical_addCounter hs
  · exact Canonical_physWrite hs _ _

theorem Canonical_imageIncr {num pa : Nat} {a : Word} (hs : Canonical s) : Canonical (imageIncr s t num pa a) := by
  refine Canonical_foldl (fun u x hu => Canonical_foldl (fun u b hu => ?_) hu) hs
  split
  · exact Canonical_imageByte hu (Canonical_image hu (List.mem_of_find?_eq_some ‹_›))
  · exact hu

theorem Canonical_applyEffects {m : Mark} {es : List Effect} (hs : Canonical s) :
    Canonical (applyEffects s t m es) := by
  induction es generalizing s with
  | nil => exact hs
  | cons x es ih =>
    cases x with
    | put p => exact ih (Canonical_arrive hs)
    | send x => exact ih (Canonical_acceptSend (Canonical_observeDevice hs))
    | incr v ipa a =>
      refine ih ?_
      split
      · exact Canonical_imageIncr (Canonical_addAt (Canonical_markAt hs))
      · exact hs

theorem Canonical_afterPublish {p : Publish} (hs : Canonical s) : Canonical (afterPublish s t p) := by
  unfold afterPublish
  dsimp only
  split
  · exact hs
  · split
    · split
      · exact Canonical_acquire (by exact Canonical_setTile hs _ (Canonical_spad hs _)) _ _
      · exact Canonical_setTile hs _ (Canonical_spad hs _)
      · exact Canonical_setTile hs _ (Canonical_spad hs _)
      · exact Canonical_setTile hs _ (wf_saveMember (Canonical_spad hs _))
      · exact Canonical_setTile hs _ (wf_dropCmd (Canonical_spad hs _))
    · exact hs

theorem Canonical_modPublish {f : Publish → Publish} (hs : Canonical s) :
    Canonical (modPublish s t f) := Canonical_modTile hs _ fun _ h' => h'

theorem Canonical_publishAtRows {p : Publish} (hs : Canonical s) : Canonical (publishAtRows s t p).1 := by
  unfold publishAtRows
  dsimp only
  exact Canonical_iteFst (Canonical_foldl (fun _ _ h' => Canonical_joinRow h') hs) hs

theorem Canonical_publishWants {p : Publish} (hs : Canonical s) :
    Canonical (publishWants s t p) := Canonical_foldl (fun _ _ h' => Canonical_ite (Canonical_wantSaved h') h') hs

theorem Canonical_execPublishComplete (hs : Canonical s) : CanonicalNext (execPublishComplete t s) := by
  unfold execPublishComplete
  dsimp only
  split
  · exact .next hs
  · split
    · exact .next (Canonical_publishAtRows hs)
    · split
      · exact .next (Canonical_publishWants hs)
      · split
        · exact .next (Canonical_modPublish hs)
        · exact .next (Canonical_afterPublish (Canonical_applyEffects
            (Canonical_modTile (Canonical_dropHolds
            (Canonical_lostEvents (Canonical_storeAll (Canonical_noteReads hs)))) _ (fun _ h' => h'))))

theorem Canonical_publishGranule {i : Nat} (hs : Canonical s) : Canonical (publishGranule s t i) := by
  unfold publishGranule
  dsimp only
  split
  · exact hs
  · split
    · exact hs
    · split
      · exact Canonical_publishAtRows hs
      · split
        · exact Canonical_modPublish (Canonical_storeGranule (Canonical_noteReads hs))
        · exact Canonical_publishWants hs

/-! ### Scalar floating point -/

theorem Canonical_fcvt {code mode : Nat} {f : Nat → Nat × Flags} (hs : Canonical s) :
    CanonicalNext (fcvt s d code mode f) := by
  unfold fcvt
  dsimp only
  exact Canonical_wr (Canonical_addFlags (Canonical_drawFor hs))

theorem Canonical_fp {mode : Nat} {f : Nat → Nat × Flags} (hs : Canonical s) :
    CanonicalNext (fp s d mode f) := Canonical_fcvt hs

theorem Canonical_execFcmp {a b : XReg} {p : Fin 8} (hs : Canonical s) : CanonicalNext (execFcmp d a b p s) := by
  unfold execFcmp
  dsimp only
  exact Canonical_scalar hs (Canonical_checked hs (Canonical_wr (Canonical_addFlags hs)))

/-! ### Queue formats -/

theorem wf_modQueue {f : Queue → Queue} (hT : Memory.wf T.spad = true) : Memory.wf (modQueue T q f).spad = true := hT

theorem wf_popRun {n : Nat} (hT : Memory.wf T.spad = true) : Memory.wf (popRun T st q n).1.spad = true := by
  unfold popRun
  dsimp only
  exact wf_modQueue (wf_modStrm hT)

theorem Canonical_execQpops (hs : Canonical s) : CanonicalNext (execQpops d q s) := by
  unfold execQpops
  dsimp only
  exact Canonical_onTileS hs (fun _ _ => Canonical_iteNext (Canonical_raise hs)
    (Canonical_iteNext (.next (Canonical_setTile hs _ (wf_modQueue (Canonical_spad hs _))))
    (Canonical_wr (Canonical_setTile hs _ (wf_modQueue (wf_popRun (Canonical_spad hs _)))))))

/-! ### The Porter: windows, copies, queues, and how commands run -/

theorem wf_layBytes {m : Memory} {bs : List StoreByte} (hm : Memory.wf m = true) : Memory.wf (layBytes m bs) = true :=
  List.foldlRecOn (motive := fun m => Memory.wf m = true) _ _ hm fun _ h _ _ => wf_mset _ _ h

theorem wf_cmdWrite {bs : List StoreByte} (hT : Memory.wf T.spad = true) :
    Memory.wf (cmdWrite T onM id bs).spad = true := by
  unfold cmdWrite
  dsimp only
  exact wf_setCmds (wf_layBytes hT)

theorem wf_cmdPutWord {o : Nat} {w : Word} (hT : Memory.wf T.spad = true) :
    Memory.wf (cmdPutWord T onM id o w).spad = true := wf_cmdWrite hT

theorem wf_spadAdd {o : Nat} {v : Word} (hT : Memory.wf T.spad = true) :
    Memory.wf (spadAdd T onM id o v).spad = true := wf_cmdPutWord hT

theorem wf_landWhere {p : Nat → Bool} (hT : Memory.wf T.spad = true) :
    Memory.wf (landWhere T c p).spad = true := wf_modCmd (wf_cmdWrite hT)

theorem wf_landAll (hT : Memory.wf T.spad = true) :
    Memory.wf (landAll T onM c).spad = true := wf_iteTile hT (wf_landWhere hT)

theorem Canonical_observeAt (hs : Canonical s) : Canonical (observeAt s t pa) := by
  unfold observeAt
  dsimp only
  exact Canonical_ite (Canonical_seeAll (Canonical_observe hs)) (Canonical_observe hs)

theorem Canonical_observeGranule {a : Nat} (hs : Canonical s) :
    Canonical (observeGranule s t a) := Canonical_foldl (fun _ _ h' => Canonical_observeAt h') hs

theorem Canonical_commandByte (hs : Canonical s) : Canonical (commandByte s t id ipa pa).1 := by
  unfold commandByte
  dsimp only
  split
  · exact hs
  · dsimp only
    exact Canonical_modTile (Canonical_observeGranule hs) _ fun _ h' => wf_modCmd h'

theorem Canonical_accessXlat {id : Option Nat} {r : Right} (hs : Canonical s) :
    Canonical (accessXlat s t k id va r).1 := by
  unfold accessXlat
  split
  · exact Canonical_tileXlatFor hs
  · exact Canonical_tileXlat hs

theorem Canonical_vaByte {id : Option Nat} (hs : Canonical s) : Canonical (vaByte s t k id va).1 := by
  unfold vaByte
  split
  · split
    · exact Canonical_of_eq ‹_› (Canonical_accessXlat hs)
    · exact Canonical_of_eq ‹_› (Canonical_accessXlat hs)
    · split
      exact Canonical_of_eq ‹_› (Canonical_commandByte (Canonical_of_eq ‹_› (Canonical_accessXlat hs)))
  · exact Canonical_of_eq ‹_› (Canonical_accessXlat hs)

theorem Canonical_vaRead {id : Option Nat} {m : Nat} (hs : Canonical s) : Canonical (vaRead s t k id va m).1 := by
  induction m generalizing s t k id va with
  | zero => exact hs
  | succ m ih =>
    rw [vaRead]
    split
    · exact Canonical_of_eq ‹_› (Canonical_vaByte hs)
    · exact Canonical_of_eq ‹_› (Canonical_vaByte hs)
    · split
      · exact Canonical_of_eq ‹_› (ih (Canonical_of_eq ‹_› (Canonical_vaByte hs)))
      · exact ih (Canonical_of_eq ‹_› (Canonical_vaByte hs))

theorem Canonical_loadBits {f : Frame} {src : Source} (hs : Canonical s) : Canonical (loadBits s t k id f src).1 := by
  unfold loadBits
  split
  · exact hs
  · split <;> exact Canonical_of_eq ‹_› (Canonical_vaRead hs)

theorem Canonical_storeVa {lo hi : Bool} {b : Byte} (hs : Canonical s) :
    Canonical (storeVa s t k id va lo hi b).1 := by
  unfold storeVa
  dsimp only
  split
  · split
    · exact Canonical_of_eq ‹_› (Canonical_accessXlat hs)
    · exact Canonical_setTile (Canonical_of_eq ‹_› (Canonical_accessXlat hs)) _
        (by exact Canonical_spad (Canonical_of_eq ‹_› (Canonical_accessXlat hs)) _)
  · exact Canonical_of_eq ‹_› (Canonical_accessXlat hs)

theorem Canonical_storeVas {l : List Byte} (hs : Canonical s) : Canonical (storeVas s t k id va l).1 := by
  induction l generalizing s t k id va with
  | nil => exact hs
  | cons a l ih =>
    rw [storeVas]
    split
    · exact ih (Canonical_of_eq ‹_› (Canonical_storeVa hs))
    · exact Canonical_storeVa hs

theorem Canonical_storeBits {f : Frame} {place : Option (Nat × Bool)} {n : Nat} (hs : Canonical s) :
    Canonical (storeBits s t k id f place n).1 := by
  unfold storeBits
  split
  · exact hs
  · exact Canonical_iteFst (Canonical_storeVa hs) (Canonical_storeVas hs)

theorem Canonical_streamElem {w : CopyWalk} {scale : Word} {p : Nat} (hs : Canonical s) :
    Canonical (streamElem s t k id w q scale p).1 := by
  unfold streamElem
  dsimp only
  split
  · exact hs
  · split
    · exact Canonical_of_eq ‹_› (Canonical_loadBits hs)
    · exact Canonical_of_eq ‹_› (Canonical_loadBits hs)
    · split
      · split
        · exact Canonical_modTile (Canonical_of_eq ‹_›
            (Canonical_vaByte (Canonical_of_eq ‹_› (Canonical_loadBits hs)))) _ (fun _ h' => wf_modQueue h')
        · exact Canonical_of_eq ‹_› (Canonical_vaByte (Canonical_of_eq ‹_› (Canonical_loadBits hs)))
        · exact Canonical_of_eq ‹_› (Canonical_vaByte (Canonical_of_eq ‹_› (Canonical_loadBits hs)))
      · exact Canonical_modTile (Canonical_of_eq ‹_› (Canonical_loadBits hs)) _ fun _ h' => wf_modQueue h'

theorem Canonical_drainElem {w : CopyWalk} {p : Nat} (hs : Canonical s) : Canonical (drainElem s t k id w q p).1 := by
  unfold drainElem
  dsimp only
  split
  · exact hs
  · split
    · exact Canonical_modTile (Canonical_of_eq ‹_› (Canonical_storeBits hs)) _ fun _ h' => wf_modQueue h'
    · exact Canonical_storeBits hs

theorem Canonical_moveElem {w : CopyWalk} (hs : Canonical s) : Canonical (moveElem s t k c w).1 := by
  unfold moveElem
  dsimp only
  split
  · exact Canonical_streamElem hs
  · exact Canonical_drainElem hs
  · split
    · exact Canonical_storeBits hs
    · split
      · exact Canonical_modTile (Canonical_of_eq ‹_› (Canonical_loadBits hs)) _ fun _ h' => wf_modCmd h'
      · exact Canonical_of_eq ‹_› (Canonical_loadBits hs)
      · exact Canonical_of_eq ‹_› (Canonical_loadBits hs)

theorem Canonical_bufferIncr {id : Option Nat} {v : Word} (hs : Canonical s) :
    Canonical (bufferIncr s t k id va v).1 := by
  unfold bufferIncr
  dsimp only
  split
  · split
    · exact Canonical_of_eq ‹_› (Canonical_accessXlat hs)
    · exact Canonical_setTile (Canonical_of_eq ‹_› (Canonical_accessXlat hs)) _
        (by exact Canonical_spad (Canonical_of_eq ‹_› (Canonical_accessXlat hs)) _)
  · exact Canonical_of_eq ‹_› (Canonical_accessXlat hs)

theorem wf_creditTo {n : Nat} (hT : Memory.wf T.spad = true) : Memory.wf (creditTo T onM c n).spad = true := by
  unfold creditTo
  split
  · exact wf_modCmd (wf_spadAdd hT)
  · exact hT

theorem Canonical_creditProg (hs : Canonical s) : Canonical (creditProg s t k id) := by
  unfold creditProg
  split
  · exact hs
  · split
    · exact hs
    · exact Canonical_ite (Canonical_modTile hs _ (fun _ h' => wf_creditTo h')) hs

theorem Canonical_landReduced {ms : List Member} {roff d : Word} {bf : Bool} (hs : Canonical s) :
    Canonical (landReduced s t id ms roff d bf) := by
  unfold landReduced
  dsimp only
  exact Canonical_modTile hs _ fun _ h' => wf_addFlagsT (wf_modCmd h')

/-- What stores buffer leaves the scratchpad as it is. -/
theorem wf_bufferMember {a entry : Nat} {m : Member} {bs : List Byte} {U : Tile} (hT : Memory.wf T.spad = true)
    (e : bufferMember s v T entry m a bs = .ok U) : Memory.wf U.spad = true := by
  induction bs generalizing T a with
  | nil => cases e; exact hT
  | cons b bs ih =>
    unfold bufferMember at e
    dsimp only at e
    split at e
    · cases e
    · exact ih (by exact hT) e

theorem wf_bufferMembers {entry roff : Nat} {bs : List Byte} {ms : List Member} {U : Tile}
    (hT : Memory.wf T.spad = true) (e : bufferMembers s v T entry roff bs ms = .ok U) : Memory.wf U.spad = true := by
  induction ms generalizing T with
  | nil => cases e; exact hT
  | cons m ms ih =>
    unfold bufferMembers at e
    split at e
    · exact ih (wf_bufferMember hT ‹_›) e
    · exact wf_bufferMember hT e

theorem Canonical_groupEffect {ms : List Member} (hs : Canonical s) : Canonical (groupEffect s t k c ms).1 := by
  unfold groupEffect
  dsimp only
  split
  · split
    · exact hs
    · exact Canonical_landReduced hs
  · split
    · exact Canonical_setTile hs _ (wf_bufferMembers (Canonical_spad hs _) ‹_›)
    · exact hs
    · exact hs
  · exact hs

theorem Canonical_runGroup {roff len : Nat} (hs : Canonical s) : Canonical (runGroup s t k c roff len).1 := by
  unfold runGroup
  dsimp only
  split
  · exact Canonical_modTile hs _ fun _ h' => wf_modCmd h'
  · split
    · exact hs
    · split
      · exact Canonical_modTile hs _ fun _ h' => wf_modCmd h'
      · split
        · exact Canonical_modTile hs _ fun _ h' => wf_modCmd h'
        · split
          · exact Canonical_modTile (Canonical_of_eq ‹_› (Canonical_groupEffect hs)) _
              (fun _ h' => wf_modCmd h')
          · exact Canonical_groupEffect hs

theorem wf_postPeg {p : Fin 16} (hT : Memory.wf T.spad = true) : Memory.wf (postPeg T p).spad = true := hT

theorem wf_postIteration (hT : Memory.wf T.spad = true) : Memory.wf (postIteration T c).spad = true := by
  unfold postIteration
  split
  · exact wf_iteTile (wf_postPeg hT) hT
  · exact hT

theorem wf_endIteration {n : Nat} (hT : Memory.wf T.spad = true) : Memory.wf (endIteration T c n).spad = true := by
  unfold endIteration
  dsimp only
  split
  · split
    · exact wf_postIteration (wf_creditTo (wf_modCmd (wf_landAll hT)))
    · exact wf_modCmd (wf_landAll hT)
  · exact wf_modCmd (wf_landAll hT)

theorem Canonical_prefetchPages {m : Nat} (hs : Canonical s) : Canonical (prefetchPages s t k va m) := by
  induction m generalizing s t k va with
  | zero => exact hs
  | succ m ih => exact ih (Canonical_ite (by split; exacts [Canonical_modTile hs _ (fun _ h' => h'), hs]) hs)

theorem Canonical_beginCmd (hs : Canonical s) : Canonical (beginCmd s t k onM c).1 := by
  unfold beginCmd
  dsimp only
  exact Canonical_modTile (Canonical_ite (Canonical_acquire hs _ _) hs) _ fun _ h' => wf_modCmd h'

theorem Canonical_finishCmd (hs : Canonical s) :
    Canonical (finishCmd s t onM id) := Canonical_modTile hs _ fun _ h' => wf_modCmd h'

theorem Canonical_atomicStep (hs : Canonical s) : Canonical (atomicStep s t k onM c).1 := by
  unfold atomicStep
  dsimp only
  split
  · split
    · exact Canonical_modTile hs _ fun _ h' => wf_modCmd (wf_groupStep h')
    · exact Canonical_finishCmd hs
  · exact Canonical_finishCmd (Canonical_modTile hs _ (fun _ h' => wf_zeroBlocks h'))
  · exact Canonical_finishCmd (Canonical_modTile hs _ (fun _ h' => wf_iteTile h' h'))
  · exact Canonical_finishCmd (Canonical_modTile hs _ (fun _ h' => wf_postPeg h'))
  · exact Canonical_finishCmd (Canonical_modTile hs _ (fun _ h' => wf_spadAdd h'))
  · split
    · exact Canonical_finishCmd (Canonical_of_eq ‹_› (Canonical_bufferIncr hs))
    · exact Canonical_bufferIncr hs
  · exact Canonical_finishCmd (Canonical_prefetchPages hs)
  · split
    · exact Canonical_runGroup hs
    · exact Canonical_finishCmd hs

theorem wf_coverEarlier {o : Nat} (hT : Memory.wf T.spad = true) :
    Memory.wf (coverEarlier T onM id o).spad = true := wf_foldl (fun _ _ h' => wf_iteTile (wf_modCmd h') h') hT

theorem Canonical_landCounter (hs : Canonical s) : Canonical (landCounter s t k onM c).1 := by
  unfold landCounter
  dsimp only
  split
  · split
    · exact hs
    · exact Canonical_modTile
        hs _ (fun _ h' => wf_coverEarlier (wf_spadAdd (wf_iteTile h' (wf_cmdPutWord h'))))
  · exact Canonical_bufferIncr hs
  · exact hs

theorem Canonical_landCmd (hs : Canonical s) : Canonical (landCmd s t k onM c).1 := by
  have hland := Canonical_modTile hs t (f := fun T => landAll T onM c) fun _ hT => wf_landAll hT
  unfold landCmd
  dsimp only
  split
  · next u _ hu =>
    have hposted := Canonical_modTile (Canonical_of_eq hu (Canonical_landCounter hland)) t
      (f := fun T => postIteration T c) fun _ hT => wf_postIteration hT
    split
    · exact Canonical_beginPublish (Canonical_modTile hposted _ fun _ hT => wf_modCmd hT)
    · exact Canonical_modTile hposted _ fun _ hT => wf_dropCmd hT
  · exact Canonical_landCounter hland

theorem Canonical_walkStep {w : CopyWalk} (hs : Canonical s) : Canonical (walkStep s t k onM c w).1 := by
  unfold walkStep
  dsimp only
  split
  · exact hs
  · split
    · split
      · exact Canonical_creditProg (Canonical_modTile
          (Canonical_of_eq ‹_› (Canonical_moveElem (Canonical_beginCmd hs))) _ (fun _ h' => wf_modCmd h'))
      · exact Canonical_modTile (Canonical_of_eq ‹_› (Canonical_moveElem (Canonical_beginCmd hs))) _
          (fun _ h' => wf_modCmd h')
    · exact Canonical_moveElem (Canonical_beginCmd hs)

theorem Canonical_closeIteration {w : CopyWalk} (hs : Canonical s) : Canonical (closeIteration s t k onM c w).1 := by
  unfold closeIteration
  dsimp only
  split
  · split
    · exact hs
    · exact Canonical_modTile (Canonical_beginCmd hs) _ fun _ h' => wf_endIteration h'
  · split
    · exact hs
    · exact Canonical_modTile (Canonical_beginCmd hs) _ fun _ h' => wf_endIteration h'

theorem Canonical_stepCmd (hs : Canonical s) : Canonical (stepCmd s t k onM c).1 := by
  unfold stepCmd
  dsimp only
  split
  · exact Canonical_landCmd hs
  · split
    · split
      · exact hs
      · exact Canonical_iteFst hs (Canonical_atomicStep (Canonical_beginCmd hs))
    · split
      · exact hs
      · exact Canonical_iteFst (Canonical_walkStep hs) (Canonical_closeIteration hs)

theorem Canonical_cmdFault {cause : Nat} {val : Word} (hs : Canonical s) :
    Canonical (cmdFault s t onM c cause val) := by
  unfold cmdFault
  dsimp only
  split
  · exact Canonical_modTile
      (by exact Canonical_tileTrapAt (Canonical_modTile hs _ (fun _ h' => wf_landAll h'))) _
      (fun _ h' => wf_dropCmd h')
  · exact Canonical_tileTrapAt (Canonical_modTile hs _ (fun _ h' => wf_landAll h'))

theorem Canonical_runCmd {go : Cmd → Bool} {m : Nat} (hs : Canonical s) : Canonical (runCmd go s t onM id m) := by
  induction m generalizing s with
  | zero => exact hs
  | succ m ih =>
    rw [runCmd]
    split
    · split
      · split
        · exact ih (Canonical_of_eq ‹_› (Canonical_stepCmd hs))
        · exact Canonical_of_eq ‹_› (Canonical_stepCmd hs)
        · exact Canonical_cmdFault (Canonical_of_eq ‹_› (Canonical_stepCmd hs))
      · exact hs
    · exact hs

theorem Canonical_startCmd (hs : Canonical s) : Canonical (startCmd s t onM id) := by
  unfold startCmd
  split
  · split
    · split
      · exact Canonical_modTile hs _ fun _ h' => wf_modCmd h'
      · exact Canonical_beginCmd hs
    · exact hs
  · exact hs

theorem Canonical_workTurn {n : Nat} (hs : Canonical s) :
    Canonical (workTurn s t onM id n) := Canonical_ite (Canonical_startCmd hs) (Canonical_runCmd hs)

theorem Canonical_rowTurn {r : Nat} (hs : Canonical s) : Canonical (rowTurn s t id r) := by
  unfold rowTurn
  split
  · split
    · exact hs
    · exact Canonical_creditProg (Canonical_modTile hs _ (fun _ h' => wf_landWhere h'))
  · exact hs

theorem Canonical_rowReadTurn {r : Nat} (hs : Canonical s) : Canonical (rowReadTurn s t onM id r) := by
  unfold rowReadTurn
  exact Canonical_modTile hs _ fun _ h' => (by split; exacts [h', wf_iteTile h' (wf_modCmd h')])

theorem Canonical_elementTurn {n : Nat} (hs : Canonical s) : Canonical (elementTurn s t id n) := by
  unfold elementTurn
  dsimp only
  refine Canonical_modTile hs _ ?_
  refine fun _ h' => ?_
  split
  · exact h'
  · split
    · exact wf_iteTile (wf_modCmd (wf_elementStep h')) h'
    · exact wf_iteTile (wf_modCmd (wf_zeroElement h')) h'
    · exact h'

theorem Canonical_mismatchTurn (hs : Canonical s) : Canonical (mismatchTurn s t id) := by
  unfold mismatchTurn
  split
  · exact hs
  · split
    · exact Canonical_ite (Canonical_cmdFault hs) hs
    · exact hs

theorem Canonical_eccCommandTurn {addr : Word} (hs : Canonical s) : Canonical (eccCommandTurn s t onM id addr) := by
  unfold eccCommandTurn
  split
  · exact hs
  · exact Canonical_ite (Canonical_cmdFault hs) hs

theorem Canonical_execCommandCompletion (hs : Canonical s) : CanonicalNext (execCommandCompletion t onM id s) := by
  unfold execCommandCompletion
  split
  · exact .next hs
  · exact .next (Canonical_runCmd hs)

theorem Canonical_execNestIteration (hs : Canonical s) : CanonicalNext (execNestIteration t id s) := by
  unfold execNestIteration
  split
  · exact .next hs
  · exact Canonical_iteNext (.next (Canonical_runCmd hs)) (.next hs)

theorem Canonical_execPurlinRetryExpiry (hs : Canonical s) : CanonicalNext (execPurlinRetryExpiry t id s) := by
  unfold execPurlinRetryExpiry
  split
  · exact .next hs
  · split
    · exact .next (Canonical_modTile hs _ (fun _ h' => wf_modCmd h'))
    · exact .next hs

theorem Canonical_execQstream {q r : Bool} {n : Fin 4} (hs : Canonical s) :
    CanonicalNext (execQstream q r sc n s) := by
  unfold execQstream
  dsimp only
  exact Canonical_onStream hs fun _ _ => Canonical_command hs

theorem Canonical_execQdrain {q r : Bool} {n : Fin 4} (hs : Canonical s) : CanonicalNext (execQdrain q r sc n s) := by
  unfold execQdrain
  dsimp only
  exact Canonical_onStream hs fun _ _ => Canonical_command hs

theorem Canonical_execMlr {q r b : Bool} (hs : Canonical s) : CanonicalNext (execMlr q r sc b s) := by
  unfold execMlr
  dsimp only
  exact Canonical_onStream hs fun _ _ => Canonical_command hs

theorem Canonical_execMst {q r : Bool} (hs : Canonical s) : CanonicalNext (execMst q r sc s) := by
  unfold execMst
  dsimp only
  exact Canonical_onStream hs fun _ _ => Canonical_command hs

/-! ### Streams, barriers, fences and waits -/

theorem wf_startStream {pc : Word} (hT : Memory.wf T.spad = true) : Memory.wf (startStream T st pc).spad = true := by
  unfold startStream
  dsimp only
  split <;> exact wf_setStrm hT

theorem Canonical_execFork {a : XReg} {m : Fin 8} (hs : Canonical s) : CanonicalNext (execFork a m s) := by
  unfold execFork
  dsimp only
  refine Canonical_onTileS hs (fun _ _ => Canonical_checked hs (Canonical_iteNext (Canonical_illegal hs) ?_))
  split
  · exact Canonical_raise hs
  · exact Canonical_done4
      (Canonical_setTile hs _ (by exact wf_foldl (fun _ _ h' => wf_startStream h') (Canonical_spad hs _)))

theorem wf_collect (hT : Memory.wf T.spad = true) : Memory.wf (collect T st).spad = true := wf_modStrm hT

theorem Canonical_execJoin (hs : Canonical s) : CanonicalNext (execJoin s) := by
  unfold execJoin
  dsimp only
  exact Canonical_onTileS hs (fun _ _ => Canonical_iteNext
    (Canonical_done4 (Canonical_setTile hs _ (wf_collect (wf_collect (wf_collect (Canonical_spad hs _))))))
    (.next hs))

theorem Canonical_setWait {w : SWait} (hs : Canonical s) :
    Canonical (setWait s t w) := Canonical_modTile hs _ fun _ h' => h'

theorem Canonical_execTaskEnd (hs : Canonical s) : CanonicalNext (execTaskEnd s) := by
  unfold execTaskEnd
  dsimp only
  exact Canonical_onTileS hs (fun _ _ => Canonical_iteNext
    (Canonical_done4 (Canonical_modTile (Canonical_setWait (Canonical_beginPublish hs)) _ (fun _ h' => h')))
    (Canonical_illegal hs))

theorem Canonical_execEngineEnd (hs : Canonical s) : CanonicalNext (execEngineEnd s) := by
  unfold execEngineEnd
  exact Canonical_onEngine hs (fun _ _ _ => Canonical_done2
    (Canonical_modTile hs _ (fun _ h' => wf_modStrm h')))

theorem Canonical_execStreamEnd (hs : Canonical s) : CanonicalNext (execStreamEnd t st s) := by
  unfold execStreamEnd
  dsimp only
  split
  · split
    · exact .next (Canonical_modTile hs _ (fun _ h' => wf_modStrm h'))
    · exact .next hs
  · split
    · exact .next (Canonical_modTile hs _ (fun _ h' => wf_modStrm h'))
    · exact .next hs
  · split
    · exact .next (Canonical_modTile hs _ (fun _ h' => wf_modStrm h'))
    · exact .next hs

theorem Canonical_execCkpt {a : XReg} {i : BitVec 13} (hs : Canonical s) : CanonicalNext (execCkpt a i s) := by
  unfold execCkpt
  dsimp only
  exact Canonical_onTileS hs (fun _ _ => Canonical_iteNext (Canonical_illegal hs)
    (Canonical_iteNext (Canonical_raise hs) (Canonical_iteNext (Canonical_raise hs)
    (Canonical_done4 (Canonical_setWait (Canonical_beginPublish hs))))))

theorem Canonical_afterCkpt {l : List TileId} (hs : Canonical s) : Canonical (afterCkpt s l) := by
  induction l generalizing s with
  | nil => exact hs
  | cons a l ih => exact ih (Canonical_acquire (by exact Canonical_modTile hs _ (fun _ h' => h')) _ _)

theorem Canonical_execCheckpointCommit {gang : Nat} (hs : Canonical s) :
    CanonicalNext (execCheckpointCommit gang s) := by
  unfold execCheckpointCommit
  dsimp only
  split
  · exact .next hs
  · split
    · split
      · exact .next (Canonical_modGang (Canonical_clearTiles (Canonical_modGang (Canonical_afterCkpt hs))))
      · exact .next (Canonical_modGang (Canonical_afterCkpt hs))
    · exact .next hs

theorem Canonical_execBar {p : Bool} (hs : Canonical s) : CanonicalNext (execBar p sc s) := by
  unfold execBar
  exact Canonical_onTileS hs (fun _ _ => Canonical_checked hs
    (Canonical_iteNext (Canonical_done4 (Canonical_setWait (Canonical_beginPublish hs)))
    (Canonical_done4 (Canonical_modTile hs _ (fun _ h' => h')))))

theorem Canonical_releaseBar {l : List TileId} (hs : Canonical s) : Canonical (releaseBar s l) := by
  induction l generalizing s with
  | nil => exact hs
  | cons a l ih =>
    exact ih (by split; exacts [Canonical_acquire (Canonical_acquire (Canonical_setWait hs) _ _) _ _, hs])

theorem Canonical_execBarComplete {gang : Nat} (hs : Canonical s) : CanonicalNext (execBarComplete gang s) := by
  unfold execBarComplete
  split
  · exact .next hs
  · exact Canonical_iteNext (.next (Canonical_releaseBar hs)) (.next hs)

theorem Canonical_execFence (hs : Canonical s) : CanonicalNext (execFence sc s) := by
  unfold execFence
  exact Canonical_scalar hs (by split; exacts [Canonical_done4 (Canonical_acquire hs _ _), Canonical_done4 hs])

theorem Canonical_execEngineFence (hs : Canonical s) : CanonicalNext (execEngineFence sc s) := by
  unfold execEngineFence
  exact Canonical_onEngine hs fun _ _ _ => Canonical_iteNext (Canonical_done2 (Canonical_acquire hs _ _)) (.next hs)

theorem Canonical_execPegp {p : Fin 16} (hs : Canonical s) : CanonicalNext (execPegp p s) := by
  unfold execPegp
  exact Canonical_onTileS hs (fun _ _ => Canonical_done4
    (Canonical_modTile hs _ (fun _ h' => wf_postPeg h')))

theorem Canonical_execWaitc {l sf c o : Fin 16} (hs : Canonical s) : CanonicalNext (execWaitc l sf c o s) := by
  unfold execWaitc
  dsimp only
  exact Canonical_onTileS hs fun _ _ => Canonical_iteNext (Canonical_done4 hs) (.next hs)

theorem Canonical_execEnginePegw {p : Fin 16} (hs : Canonical s) : CanonicalNext (execEnginePegw p s) := by
  unfold execEnginePegw
  exact Canonical_onEngine hs (fun _ _ _ => Canonical_withStack hs (fun _ _ => Canonical_iteNext
    (Canonical_done2 (Canonical_setStack hs)) (.next hs)))

theorem Canonical_execEngineCtraddGlobal {q r : Bool} (hs : Canonical s) :
    CanonicalNext (execEngineCtraddGlobal q r sc s) := by
  unfold execEngineCtraddGlobal
  dsimp only
  exact Canonical_onEngine hs fun _ _ _ => Canonical_command hs

theorem Canonical_execCtraddLocal {a b : XReg} (hs : Canonical s) : CanonicalNext (execCtraddLocal a b s) := by
  unfold execCtraddLocal
  dsimp only
  exact Canonical_scalar hs (Canonical_done4 (Canonical_localWrite hs _ _))

theorem Canonical_threadAdd {th : ThreadId} {va w : Word} (hs : Canonical s) :
    CanonicalNext (threadAdd s th va w pa) := by
  unfold threadAdd
  split
  · split
    · exact .next hs
    · exact Canonical_done4 (Canonical_addCounter (Canonical_atomicSeen hs))
  · split
    · exact Canonical_raise hs
    · split
      · exact Canonical_raise hs
      · exact Canonical_done4 (Canonical_of_some ‹_› (Canonical_spaceWrite (Canonical_atomicSeen hs)))

theorem Canonical_execCtraddGlobal {a b : XReg} (hs : Canonical s) : CanonicalNext (execCtraddGlobal a b s) := by
  unfold execCtraddGlobal
  dsimp only
  refine Canonical_scalar hs (Canonical_iteNext (Canonical_raise hs) (Canonical_iteNext (Canonical_raise hs) ?_))
  split
  · exact Canonical_globalAccess hs fun _ _ _ h' => Canonical_threadAdd h'
  · split
    · exact .next hs
    · split
      · exact Canonical_done4 (Canonical_of_eq ‹_› (Canonical_bufferIncr hs))
      · exact .next (Canonical_of_eq ‹_› (Canonical_bufferIncr hs))
      · exact Canonical_raise (Canonical_of_eq ‹_› (Canonical_bufferIncr hs))

theorem Canonical_condValue {c : WaitCond} (hs : Canonical s) : Canonical (condValue s t k c).1 := by
  unfold condValue
  split
  · split
    · split
      · split
        · exact Canonical_observeAt (Canonical_of_eq ‹_› (Canonical_vaRead hs))
        · exact Canonical_of_eq ‹_› (Canonical_vaRead hs)
      · exact Canonical_of_eq ‹_› (Canonical_vaRead hs)
    · exact Canonical_of_eq ‹_› (Canonical_vaRead hs)
    · exact Canonical_of_eq ‹_› (Canonical_vaRead hs)
  · exact hs

theorem Canonical_condsMet {l : List WaitCond} (hs : Canonical s) : Canonical (condsMet s t k l).1 := by
  induction l generalizing s with
  | nil => exact hs
  | cons a l ih =>
    rw [condsMet]
    split
    · split
      · exact Canonical_of_eq ‹_› (ih (Canonical_of_eq ‹_› (Canonical_condValue hs)))
      · exact ih (Canonical_of_eq ‹_› (Canonical_condValue hs))
    · exact Canonical_condValue hs

theorem Canonical_waitReturn {w : Nat} (hs : Canonical s) : Canonical (waitReturn s t d w) := by
  unfold waitReturn
  dsimp only
  exact Canonical_modTile hs _ fun _ h' => h'

theorem Canonical_waitLook {all : Bool} {mask : Nat} {cs : List WaitCond} {timeout ticks : Nat} (hs : Canonical s) :
    Canonical (waitLook s t k d all mask cs timeout ticks) := by
  unfold waitLook
  split
  · exact Canonical_tileTrap (Canonical_of_eq ‹_› (Canonical_condsMet hs))
  · exact Canonical_setWait (Canonical_of_eq ‹_› (Canonical_condsMet hs))
  · split
    · exact Canonical_waitReturn (Canonical_ite (Canonical_acquire (Canonical_of_eq ‹_› (Canonical_condsMet hs)) _ _)
        (Canonical_of_eq ‹_› (Canonical_condsMet hs)))
    · exact Canonical_setWait (Canonical_of_eq ‹_› (Canonical_condsMet hs))

theorem Canonical_execWaitv {a : XReg} {l : Bool} {m : Fin 16} (hs : Canonical s) :
    CanonicalNext (execWaitv d a l m s) := by
  unfold execWaitv
  dsimp only
  refine Canonical_onTileS hs (fun _ _ => Canonical_checked hs (Canonical_iteNext (Canonical_raise hs)
    (Canonical_iteNext (Canonical_raise hs) ?_)))
  split
  · exact Canonical_raise hs
  · exact .next (Canonical_waitLook hs)

theorem Canonical_waitAgain (hs : Canonical s) : CanonicalNext (waitAgain t s) := by
  unfold waitAgain
  dsimp only
  split
  · exact Canonical_iteNext (.next (Canonical_waitLook hs)) (.next hs)
  · exact .next hs

/-! ### CSRs, traps, partitions and virtual functions -/

theorem Canonical_freshThreads {q : Partition} {l : List ThreadId} (hs : Canonical s) :
    Canonical (freshThreads s q l) := by
  induction l generalizing s with
  | nil => exact hs
  | cons a l ih => exact ih (Canonical_setThr hs _ (by exact wf_nil))

theorem Canonical_clearShares {q : Partition} (hs : Canonical s) : Canonical (clearShares s q) := Canonical_update hs

theorem Canonical_createPart (hs : Canonical s) : CanonicalSome (createPart s p w) := by
  unfold createPart
  dsimp only
  split
  · exact .none
  · exact Canonical_map fun _ => Canonical_clearShares (Canonical_freshThreads (Canonical_setPart hs _ _))

theorem Canonical_createVf (hs : Canonical s) : CanonicalSome (createVf s p v w) := by
  unfold createVf
  dsimp only
  exact Canonical_iteSome .none (.some (Canonical_setVf hs _ _))

theorem Canonical_vfDone {n : Option ThreadId} (hs : Canonical s) : Canonical (vfDone s v n) := by
  unfold vfDone
  split
  · exact hs
  · exact Canonical_modThr hs _ fun _ h' => wf_iteThread h' h'

theorem Canonical_abandonMessages (hs : Canonical s) : Canonical (abandonMessages s v) := by
  unfold abandonMessages
  dsimp only
  exact Canonical_update (Canonical_modVf hs)

theorem Canonical_freezeVf {ctr : Option Nat} (hs : Canonical s) : Canonical (freezeVf s v n ctr) := by
  unfold freezeVf
  dsimp only
  exact Canonical_preemptAll (Canonical_modVf (Canonical_abandonMessages hs))

theorem Canonical_execFreezeComplete {vf : VfId} (hs : Canonical s) : CanonicalNext (execFreezeComplete vf s) := by
  unfold execFreezeComplete
  dsimp only
  split
  · exact .next hs
  · split
    · exact .next (Canonical_addDone (Canonical_vfDone (Canonical_setVf hs _ _)))
    · exact .next hs

theorem Canonical_reenterLodgings {l : List (Nat × Lodging)} (hs : Canonical s) :
    Canonical (reenterLodgings s l) := by
  induction l generalizing s with
  | nil => exact hs
  | cons a l ih => exact ih (Canonical_reenterParlour hs)

theorem Canonical_addCounters {l : List (Nat × Word)} (hs : Canonical s) : Canonical (addCounters s l) := by
  induction l generalizing s with
  | nil => exact hs
  | cons a l ih => exact ih (Canonical_addCounter hs)

theorem Canonical_matchLaunches {l : List Msg} (hs : Canonical s) : Canonical (matchLaunches s v l) := by
  induction l generalizing s with
  | nil => exact hs
  | cons a l ih => exact ih (Canonical_launchMessage hs)

theorem Canonical_unfreezeVf (hs : Canonical s) : Canonical (unfreezeVf s v) := by
  unfold unfreezeVf
  dsimp only
  exact Canonical_freedLinks (Canonical_reenterLodgings (Canonical_matchLaunches
    (Canonical_addCounters (Canonical_update (Canonical_modVf hs)))))

theorem Canonical_dropGangs {l : List (Nat × Gang)} (hs : Canonical s) : Canonical (dropGangs s l) := by
  induction l generalizing s with
  | nil => exact hs
  | cons a l ih => exact ih (Canonical_dropGang (Canonical_clearTiles hs))

theorem Canonical_endGuests {l : List ThreadId} (hs : Canonical s) : Canonical (endGuests s l) := by
  induction l generalizing s with
  | nil => exact hs
  | cons a l ih => exact ih (Canonical_modThr (Canonical_parkThread hs) _ (fun _ h' => h'))

theorem Canonical_dropArrivals {p : Arrival → Bool} (hs : Canonical s) :
    Canonical (dropArrivals s v p) := Canonical_update hs

theorem Canonical_tearVfGone {n : Option ThreadId} {ctr : Option Nat} {gone : Nat} (hs : Canonical s) :
    Canonical (tearVfGone s v n ctr gone) := by
  unfold tearVfGone
  dsimp only
  exact Canonical_modVf (Canonical_update (Canonical_endGuests
    (Canonical_dropGangs (Canonical_update (Canonical_modVf (Canonical_dropArrivals hs))))))

theorem Canonical_tearVf {n : Option ThreadId} {ctr : Option Nat} (hs : Canonical s) :
    Canonical (tearVf s v n ctr) := Canonical_tearVfGone hs

theorem Canonical_abortSends {l : List (Nat × OutSend)} (hs : Canonical s) : Canonical (abortSends s v l) := by
  induction l generalizing s with
  | nil => exact hs
  | cons a l ih =>
    refine ih (Canonical_ite ?_ hs)
    split
    · exact Canonical_ite (Canonical_sendEvent (by exact Canonical_update hs) _ _) (Canonical_update hs)
    · exact Canonical_update hs

theorem Canonical_freeEntries {l : List (Nat × JqEntry)} (hs : Canonical s) : Canonical (freeEntries s l) := by
  induction l generalizing s with
  | nil => exact hs
  | cons a l ih => exact ih (Canonical_freeEntry hs)

theorem Canonical_freeLoans {l : List (Nat × BitVec 8)} (hs : Canonical s) : Canonical (freeLoans s l) := by
  induction l generalizing s with
  | nil => exact hs
  | cons a l ih => exact ih (Canonical_update (Canonical_zeroRange (Canonical_dropDrovers hs)))

theorem Canonical_dropAllTlb {f : TlbEntry → Bool} {l : List TileId} (hs : Canonical s) :
    Canonical (dropAllTlb s f l) := by
  induction l generalizing s with
  | nil => exact hs
  | cons a l ih => exact ih (Canonical_modTile hs _ (fun _ h' => h'))

theorem Canonical_reclaimVf (hs : Canonical s) : Canonical (reclaimVf s v) := by
  unfold reclaimVf
  dsimp only
  exact Canonical_freedLinks (Canonical_modPart (Canonical_zeroRange
    (Canonical_freeLoans (Canonical_dropAllTlb (Canonical_update
    (Canonical_dropHolds (Canonical_dropDrovers (Canonical_freeEntries
    (Canonical_dropArrivals (Canonical_abortSends hs))))))))))

theorem Canonical_lastEntry (hs : Canonical s) : Canonical (lastEntry s v) := by
  unfold lastEntry
  dsimp only
  exact Canonical_ite hs (Canonical_writeCompletion hs)

theorem Canonical_finishDelete (hs : Canonical s) : Canonical (finishDelete s p) := by
  have hthr : ∀ {u : State} {ns : List ThreadId}, Canonical u → Canonical (ns.foldl (fun u n => setThr u n {}) u) :=
    Canonical_foldl fun _ n hu => Canonical_setThr hu n rfl
  unfold finishDelete
  dsimp only
  split
  · exact hs
  · split
    · exact hs
    · refine Canonical_addDone ?_
      have hgone : Canonical (zeroRange (zeroRange (dropDrovers (clearShares s (partOf s p))
          fun x => decide (x.part = some p)) (partOf s p).carveBase (partOf s p).carveSize)
          (partOf s p).loanBase (partOf s p).loanSize) :=
        Canonical_zeroRange (Canonical_zeroRange (Canonical_dropDrovers (Canonical_clearShares hs)))
      generalize zeroRange _ _ _ = u at hgone ⊢
      have hkept := Canonical_filterSnapshots (f := fun x => decide (x.scope ≠ .partition p)) hgone
      split
      · refine Canonical_setPart (hthr ?_) _ _
        exact Canonical_update hkept
      · refine Canonical_modThr ?_ _ fun _ h => by split <;> exact h
        refine Canonical_setPart (hthr ?_) _ _
        exact Canonical_update hkept

theorem Canonical_execTeardownComplete {vf : VfId} (hs : Canonical s) :
    CanonicalNext (execTeardownComplete vf s) := by
  unfold execTeardownComplete
  dsimp only
  split
  · exact .next hs
  · split
    · exact .next hs
    · exact .next (Canonical_finishDelete (Canonical_addDone
        (Canonical_vfDone (Canonical_setVf (Canonical_lastEntry (Canonical_reclaimVf hs)) _ _))))

theorem Canonical_vfRejected {ctr : Nat} (hs : Canonical s) :
    Canonical (vfRejected s n v ctr) := Canonical_addDone (Canonical_modThr hs _ (fun _ h' => h'))

theorem Canonical_vfAccepted {ctr : Nat} (hs : Canonical s) :
    Canonical (vfAccepted s n v ctr) := Canonical_addDone (Canonical_modThr hs _ (fun _ h' => h'))

theorem Canonical_vfStarted (hs : Canonical s) :
    Canonical (vfStarted s n v) := Canonical_modThr hs _ fun _ h' => h'

theorem Canonical_vfCommand {x : Word} (hs : Canonical s) : Canonical (vfCommand s n p v x) := by
  unfold vfCommand
  dsimp only
  split
  · exact Canonical_modThr hs _ fun _ h' => h'
  · split
    · split
      · exact Canonical_vfRejected hs
      · exact Canonical_vfAccepted (Canonical_of_some ‹_› (Canonical_iteSome (Canonical_createVf hs) .none))
    · exact Canonical_ite (Canonical_vfStarted (Canonical_freezeVf hs)) (Canonical_vfRejected hs)
    · exact Canonical_ite (Canonical_vfAccepted (Canonical_unfreezeVf hs)) (Canonical_vfRejected hs)
    · exact Canonical_ite (Canonical_vfStarted (Canonical_tearVf hs)) (Canonical_vfRejected hs)

theorem Canonical_vfctl {x : Word} (hs : Canonical s) : CanonicalSome (vfctl s n x) := by
  unfold vfctl
  dsimp only
  split
  · exact .none
  · exact Canonical_iteSome .none (Canonical_iteSome (.some (Canonical_vfCommand hs)) (.some hs))

theorem Canonical_tearAllAt {s0 : State} {l : List VfId} (hs0 : Canonical s0) (hs : Canonical s) :
    Canonical (tearAllAt s0 s l) := by
  induction l generalizing s0 s with
  | nil => exact hs
  | cons a l ih => exact ih hs0 (Canonical_ite (Canonical_tearVfGone hs) hs)

theorem Canonical_tearAll {vs : List VfId} (hs : Canonical s) : Canonical (tearAll s vs) := Canonical_tearAllAt hs hs

theorem Canonical_partCommand {x : Word} (hs : Canonical s) : Canonical (partCommand s n p x) := by
  unfold partCommand
  dsimp only
  split
  · split
    · exact Canonical_addDone (Canonical_modThr hs _ (fun _ h' => h'))
    · exact Canonical_addDone (Canonical_modThr (Canonical_of_some ‹_› (Canonical_iteSome (Canonical_createPart hs)
        .none)) _ (fun _ h' => h'))
  · split
    · exact Canonical_addDone (Canonical_modThr hs _ (fun _ h' => h'))
    · exact Canonical_finishDelete (Canonical_tearAll
        (Canonical_setPart (by exact Canonical_modThr hs _ (fun _ h' => h')) _ _))

theorem Canonical_partctl {x : Word} (hs : Canonical s) : Canonical (partctl s n x) := by
  unfold partctl
  dsimp only
  split
  · exact hs
  · split
    · exact Canonical_modThr hs _ fun _ h' => h'
    · split
      · exact Canonical_addDone (Canonical_modThr hs _ (fun _ h' => h'))
      · exact Canonical_partCommand hs

theorem Canonical_execPartitionFault (hs : Canonical s) : CanonicalNext (execPartitionFault p s) := by
  unfold execPartitionFault
  dsimp only
  split
  · exact .next hs
  · exact .next (Canonical_sendEvent (Canonical_modPart (Canonical_tearAll (Canonical_fresh (Canonical_fresh hs)))) _
      _)

theorem Canonical_haltTile (hs : Canonical s) : Canonical (haltTile s t n) := by
  unfold haltTile
  dsimp only
  split
  · exact Canonical_sendEvent hs _ _
  · exact Canonical_ite (Canonical_setTile hs _ (Canonical_spad hs _)) hs

theorem Canonical_execHaltReport (hs : Canonical s) : CanonicalNext (execHaltReport t s) := by
  unfold execHaltReport
  dsimp only
  split
  · split
    · exact .next (Canonical_sendEvent (by exact Canonical_setTile hs _ (Canonical_spad hs _)) _ _)
    · exact .next hs
  · exact .next hs

theorem Canonical_countResume (hs : Canonical s) : Canonical (countResume s k) := Canonical_modGang hs

theorem Canonical_resumeTile (hs : Canonical s) : Canonical (resumeTile s t) := by
  unfold resumeTile
  dsimp only
  split
  · split
    · exact Canonical_countResume (Canonical_setTile hs _ (wf_saveMember (Canonical_spad hs _)))
    · exact Canonical_tileTrapAt (Canonical_countResume
        (Canonical_setTile hs _ (wf_saveMember (Canonical_spad hs _))))
  · exact hs

theorem Canonical_abortTile (hs : Canonical s) : Canonical (abortTile s t) := by
  unfold abortTile
  dsimp only
  split
  · exact Canonical_abortGang hs
  · exact hs

theorem Canonical_dbgctl {x : Word} (hs : Canonical s) : CanonicalSome (dbgctl s n x) := by
  unfold dbgctl
  dsimp only
  split
  · exact Canonical_iteSome .none (.some hs)
  · split
    · exact Canonical_iteSome (.some (Canonical_haltTile hs)) .none
    · exact Canonical_iteSome (.some (Canonical_resumeTile hs)) .none
    · exact Canonical_iteSome (.some (Canonical_abortTile hs)) .none
    · exact Canonical_iteSome (.some (Canonical_modVf hs)) .none
    · exact Canonical_iteSome (.some (Canonical_modVf hs)) .none
    · exact .some hs

theorem wf_putStackWord {i : Nat} {w : Word} (hT : Memory.wf T.spad = true) :
    Memory.wf (putStackWord T i w).spad = true := by
  unfold putStackWord
  dsimp only
  exact wf_iteTile hT (wf_iteTile hT (by split <;> exact hT))

theorem wf_putPcWord {i : Nat} {w : Word} (hT : Memory.wf T.spad = true) :
    Memory.wf (putPcWord T i w).spad = true := wf_modStrm hT

theorem wf_putDebugByte {sp o : Nat} {b : Byte} (hT : Memory.wf T.spad = true) :
    Memory.wf (putDebugByte T sp o b).spad = true := by
  unfold putDebugByte
  dsimp only
  split
  · exact wf_mset _ _ hT
  · exact hT
  · exact hT
  · exact hT
  · exact wf_iteTile hT hT
  · exact wf_putStackWord hT
  · exact wf_putPcWord hT
  · exact hT

theorem wf_putDebugBytes {sp size o : Nat} {l : List Byte} (hT : Memory.wf T.spad = true) :
    Memory.wf (putDebugBytes T sp size o l).spad = true := by
  induction l generalizing T sp size o with
  | nil => exact hT
  | cons a l ih => exact ih (wf_putDebugByte hT)

theorem Canonical_putDebugWord {x : Word} (hs : Canonical s) : Canonical (putDebugWord s n x) := by
  unfold putDebugWord
  dsimp only
  exact Canonical_ite (Canonical_modTile hs _ (fun _ h' => wf_putDebugBytes h')) hs

theorem Canonical_debugTouched (hs : Canonical s) : Canonical (debugTouched s n) := by
  unfold debugTouched
  dsimp only
  exact Canonical_setThr hs _ (by exact Canonical_store hs _)

theorem Canonical_setDbgsel {x : Word} (hs : Canonical s) :
    Canonical (setDbgsel s n x) := Canonical_modThr hs _ fun _ h' => h'

theorem Canonical_guestPut {c : Nat} {k : CsrWrite} {x : Word} (hs : Canonical s) : Canonical (guestPut s c k x) := by
  unfold guestPut
  dsimp only
  split
  · exact Canonical_writeFpcr hs
  · split
    · exact Canonical_modTile hs _ fun _ h' => h'
    · exact Canonical_modThr hs _ fun _ h' => h'
  · exact hs

theorem Canonical_threadPut {c : Nat} {k : CsrWrite} {x : Word} (hs : Canonical s) :
    CanonicalSome (threadPut s n c k x) := by
  unfold threadPut
  split
  · exact Canonical_iteSome (Canonical_vfctl hs) (.some hs)
  · exact Canonical_iteSome (Canonical_dbgctl hs) (.some hs)
  · exact .some (Canonical_setDbgsel hs)
  · exact .some (Canonical_debugTouched (Canonical_putDebugWord hs))
  · exact .some (Canonical_ite (Canonical_partctl hs) hs)
  · split
    · exact .some (Canonical_modThr hs _ (fun _ h' => h'))
    · split
      · exact .some (Canonical_modThr hs _ (fun _ h' => h'))
      · exact .some (Canonical_guestPut hs)

theorem Canonical_csrPut {c : Nat} {k : CsrWrite} {x : Word} (hs : Canonical s) : CanonicalSome (csrPut s c k x) := by
  unfold csrPut
  split
  · exact .some (Canonical_guestPut hs)
  · exact Canonical_threadPut hs

theorem Canonical_csrCheck {c : Nat} {writes : Bool} {f : Result} (hs : Canonical s) (hf : CanonicalNext f) :
    CanonicalNext (csrCheck s i c writes f) := by
  unfold csrCheck
  exact Canonical_scalar hs (Canonical_iteNext (Canonical_illegal hs) (Canonical_iteNext (Canonical_privilege hs)
    (Canonical_iteNext (Canonical_illegal hs) hf)))

theorem Canonical_csrReadDone {c : Nat} (hs : Canonical s) : Canonical (csrReadDone s c) := by
  unfold csrReadDone
  split
  · exact Canonical_ite (Canonical_debugTouched hs) hs
  · exact hs

theorem Canonical_csrWord {c : Nat} {k : CsrWrite} {x : Word} (hs : Canonical s) :
    CanonicalNext (csrWord s i d c k x) := by
  unfold csrWord
  refine Canonical_csrCheck hs ?_
  split
  · exact Canonical_privilege hs
  · exact .next (Canonical_of_some ‹_› (Canonical_csrPut (Canonical_wx (Canonical_advance hs _) _ _)))

theorem Canonical_execTrap {c : BitVec 8} (hs : Canonical s) : CanonicalNext (execTrap c s) := by
  unfold execTrap
  refine Canonical_scalar hs (Canonical_iteNext (Canonical_illegal hs) ?_)
  split
  · exact .next (Canonical_threadTrap hs)
  · split
    · exact .next (Canonical_modTile (Canonical_advance hs _) _ (fun _ h' => h'))
    · exact Canonical_raise hs

theorem Canonical_execSret (hs : Canonical s) : CanonicalNext (execSret s) := by
  unfold execSret
  dsimp only
  exact Canonical_onThread hs (fun _ => Canonical_iteNext (Canonical_privilege hs)
    (Canonical_iteNext (Canonical_illegal hs) (.next (Canonical_setThr hs _ (wf_trapReturn (Canonical_store hs _))))))

theorem Canonical_vfctlStep {th : ThreadId} {cmd : Nat} {x : Word} (hs : Canonical s) :
    CanonicalNext (vfctlStep th cmd x s) :=
  Canonical_iteNext (.next (Canonical_getD (Canonical_vfctl hs) hs)) (.next hs)

theorem Canonical_dbgctlStep {th : ThreadId} {cmd : Nat} {x : Word} (hs : Canonical s) :
    CanonicalNext (dbgctlStep th cmd x s) :=
  Canonical_iteNext (.next (Canonical_getD (Canonical_dbgctl hs) hs)) (.next hs)

theorem Canonical_partctlStep {th : ThreadId} {cmd : Nat} {x : Word} (hs : Canonical s) :
    CanonicalNext (partctlStep th cmd x s) := Canonical_iteNext (.next (Canonical_partctl hs)) (.next hs)

/-! ### Bring-up, power and soft errors -/

theorem Canonical_answerHost {vf : Option VfId} {off : Nat} (hs : Canonical s) :
    Canonical (answerHost s vf off) := Canonical_update hs

theorem Canonical_execReadyctl {vf : Option VfId} {value : BitVec 64} (hs : Canonical s) :
    CanonicalNext (execReadyctl vf value s) := by
  unfold execReadyctl
  split
  · exact .next (Canonical_ite (Canonical_update hs) hs)
  · exact .next (Canonical_ite (Canonical_modVf hs) hs)

theorem Canonical_startKeepers {l : List ThreadId} (hs : Canonical s) : Canonical (startKeepers s l) := by
  induction l generalizing s with
  | nil => exact hs
  | cons a l ih => exact ih (Canonical_setThr hs _ (wf_startThread wf_nil))

theorem Canonical_bootSlot {b : Bool} {a : Word} (hs : Canonical s) : Canonical (bootSlot s b a) := by
  unfold bootSlot
  dsimp only
  have hb := wf_mwrite 0 (imageBody (slotImage s b)) wf_nil
  generalize mwrite [] 0 _ = m at hb ⊢
  exact Canonical_startKeepers (Canonical_update (s := { s with firmware := m }) (Canonical_setFirmware hs hb))

theorem Canonical_execBoot (hs : Canonical s) : CanonicalNext (execBoot s) := by
  unfold execBoot
  split
  · exact .next hs
  · split
    · exact .next (Canonical_bootSlot hs)
    · exact .next (Canonical_update hs)

/-- A device reset filters the memory outside HBM, and takes the rest of the state from the reset state. -/
theorem Canonical_resetDevice {m : Memory} {a : Power} (hs : Canonical s) (hm : Memory.wf m = true) :
    Canonical (resetDevice s m a) := by
  have hn := Canonical_nvme hs
  have hp := Canonical_peers hs
  obtain ⟨-, -, hw, -, -, ht, hh, hx⟩ := Canonical_reset
  exact ⟨wf_filter _ (Canonical_mem hs), hm, hw, hn, hp, ht, hh, hx⟩

theorem Canonical_updateImage {image : List Byte} (hs : Canonical s) :
    Canonical (updateImage s image) := Canonical_ite (Canonical_update hs) hs

theorem Canonical_updateMarker (hs : Canonical s) :
    Canonical (updateMarker s) := Canonical_ite (Canonical_update hs) hs

theorem Canonical_flashStep {m : Nat} (hs : Canonical s) : Canonical (flashStep s m) := by
  unfold flashStep
  split
  · exact hs
  · have hf := wf_mwrite ‹FlashWrite›.offset (‹FlashWrite›.bytes.take m) (Canonical_flash hs)
    exact Canonical_ite (Canonical_resetDevice hs hf) (Canonical_update (s := { s with flash := _ })
      (Canonical_setFlash hs hf))

theorem Canonical_stageImage {off : Nat} {bs : List Byte} (hs : Canonical s) : Canonical (stageImage s off bs) :=
  Canonical_ite (Canonical_setMem hs (wf_mwrite _ _ (Canonical_mem hs))) hs

theorem Canonical_execRecoveryImage {length : Nat} (hs : Canonical s) :
    CanonicalNext (execRecoveryImage length s) := by
  unfold execRecoveryImage
  dsimp only
  exact Canonical_iteNext (Canonical_iteNext (.next (Canonical_update hs)) (.next hs)) (.next hs)

theorem Canonical_execPowerLoss {cut : Option FlashCut} (hs : Canonical s) : CanonicalNext (execPowerLoss cut s) := by
  refine .next (Canonical_resetDevice hs ?_)
  split
  · split
    · exact wf_mwrite _ _ (Canonical_flash hs)
    · exact Canonical_flash hs
  · exact Canonical_flash hs

theorem Canonical_execClockStep {die : Fin 4} {up : Bool} (hs : Canonical s) :
    CanonicalNext (execClockStep die up s) := by
  unfold execClockStep
  dsimp only
  exact Canonical_iteNext (.next (Canonical_update hs)) (.next hs)

theorem Canonical_keeperSet {k : KeeperSetting} (hs : Canonical s) : Canonical (keeperSet s k) := by
  unfold keeperSet
  split
  · exact hs
  · split
    · exact Canonical_update hs
    · exact Canonical_update hs
    · exact Canonical_ite (Canonical_update hs) hs
    · exact Canonical_ite (Canonical_update hs) hs

theorem Canonical_execScrub {granule : Nat} {upset : Upset} (hs : Canonical s) :
    CanonicalNext (execScrub granule upset s) := by
  unfold execScrub
  split
  · exact .next hs
  · split
    · exact .next hs
    · exact .next (Canonical_update hs)
    · exact .next (Canonical_update hs)

theorem Canonical_execAttgo {vf : VfId} {value : BitVec 64} (hs : Canonical s) :
    CanonicalNext (execAttgo vf value s) := by
  unfold execAttgo
  dsimp only
  exact Canonical_iteNext (.next hs) (.next (Canonical_setVf hs _ _))

theorem Canonical_execAttestationReport {vf : VfId} (hs : Canonical s) :
    CanonicalNext (execAttestationReport vf s) := by
  unfold execAttestationReport
  dsimp only
  split
  · exact .next hs
  · exact .next (Canonical_setVf (Canonical_physWrite hs _ _) _ _)

theorem Canonical_execRegisterWrite {target : RegTarget} {value : BitVec 64} (hs : Canonical s) :
    CanonicalNext (execRegisterWrite target value s) := by
  unfold execRegisterWrite
  dsimp only
  split
  · exact Canonical_iteNext (.next (Canonical_getD (Canonical_csrPut hs) hs)) (.next hs)
  · exact Canonical_iteNext (.next (Canonical_getD (Canonical_cfgWrite hs) hs)) (.next hs)
  · exact Canonical_iteNext (.next hs) (.next (Canonical_modVf hs))

/-! ### The vector stream -/

theorem wf_joinLines {ac : Nat} {l : List (Fin 4)} (hT : Memory.wf T.spad = true) :
    Memory.wf (joinLines T ac l).spad = true := by
  induction l generalizing T with
  | nil => exact hT
  | cons a l ih => exact ih (wf_modQueue hT)

theorem wf_leaveLines {l : List (Fin 4)} (hT : Memory.wf T.spad = true) : Memory.wf (leaveLines T l).spad = true := by
  induction l generalizing T with
  | nil => exact hT
  | cons a l ih => exact ih (wf_modQueue hT)

theorem wf_takeOpnd {c : VOpnd} (hT : Memory.wf T.spad = true) : Memory.wf (takeOpnd T c).1.spad = true := by
  unfold takeOpnd
  dsimp only
  split
  · exact wf_popRun hT
  · exact hT

theorem wf_takeOpnds {l : List VOpnd} (hT : Memory.wf T.spad = true) : Memory.wf (takeOpnds T l).1.spad = true := by
  induction l generalizing T with
  | nil => exact hT
  | cons a l ih => exact ih (wf_takeOpnd hT)

theorem wf_vNext (hT : Memory.wf T.spad = true) : Memory.wf (vNext T).spad = true := by
  unfold vNext
  dsimp only
  exact hT

theorem Canonical_vWord {w : Option Nat} {cs : List VOpnd} {room : Tile → Bool} {f : Tile → List Image → Tile}
    (hs : Canonical s) (hf : ∀ T xs, Memory.wf T.spad = true → Memory.wf (f T xs).spad = true) :
    CanonicalNext (vWord s i w cs room f) := by
  unfold vWord
  dsimp only
  refine Canonical_onTileV hs (fun _ _ => Canonical_iteNext (Canonical_illegal hs) ?_)
  split
  · exact Canonical_raise hs
  · exact Canonical_iteNext (.next (Canonical_setTile hs _
      (wf_vNext (hf _ _ (wf_takeOpnds (wf_leaveLines (Canonical_spad hs _)))))))
      (.next (Canonical_setTile hs _ (wf_joinLines (Canonical_spad hs _))))

theorem wf_produce {d : VReg} {nw : Bool} {v : Image} (hT : Memory.wf T.spad = true) :
    Memory.wf (produce T d nw v).spad = true := hT

theorem Canonical_vMove {w : Option Nat} {cs : List VOpnd} {d : VReg} {nw : Bool} {f : Tile → Image → Image → Image}
    (hs : Canonical s) :
    CanonicalNext (vMove s i w cs d nw f) := Canonical_vWord hs fun _ _ h' => wf_produce h'

theorem wf_vResults {d : VReg} {nw : Bool} {w mode : Nat} {f : List Nat → List (Nat × Flags)}
    (hT : Memory.wf T.spad = true) :
    Memory.wf (vResults T d nw w mode f).spad = true := by
  unfold vResults
  dsimp only
  exact wf_produce hT

theorem Canonical_vElem {t : Fin 8} {cs : List VOpnd} {d : VReg} {nw : Bool} {mode : Tile → Nat} {f : Nat → ElemFn}
    (hs : Canonical s) :
    CanonicalNext (vElem s i t cs d nw mode f) := by
  unfold vElem
  dsimp only
  exact Canonical_vWord hs fun _ _ h' => wf_vResults h'

theorem Canonical_execVselk {d : VReg} {a : VOpnd} {g t : Fin 8} {k : Fin 16} (hs : Canonical s) :
    CanonicalNext (execVselk d a g t k s) := by
  unfold execVselk
  dsimp only
  exact Canonical_vWord hs fun _ _ h' => wf_addFlagsT (wf_produce h')

theorem wf_scatterLanes {os : List Nat} {ls : List Lane} (hT : Memory.wf T.spad = true) :
    Memory.wf (scatterLanes T os ls).spad = true := by
  induction os generalizing T ls with
  | nil => exact hT
  | cons o os ih =>
    cases ls with
    | nil => exact hT
    | cons l ls => exact ih (wf_winWrite hT _ _)

theorem Canonical_execVpush {a : VOpnd} (hs : Canonical s) : CanonicalNext (execVpush a q s) := by
  unfold execVpush
  exact Canonical_onTileV hs (fun _ _ => Canonical_iteNext (Canonical_raise hs)
    (Canonical_vWord hs (fun _ _ h' => wf_modQueue h')))

theorem Canonical_execVaccw {a : VOpnd} {c : Fin 16} {g : Fin 8} (hs : Canonical s) :
    CanonicalNext (execVaccw a c g s) := by
  unfold execVaccw
  exact Canonical_onTileV hs (fun _ _ => Canonical_iteNext (Canonical_vWord hs (fun _ _ h' => h'))
    (Canonical_privilege hs))

theorem Canonical_execVpack {d : VReg} {a b : VOpnd} {t m : Fin 8} {y sat : Bool} {e : Fin 8} (hs : Canonical s) :
    CanonicalNext (execVpack d a b t m y sat e s) := by
  unfold execVpack
  dsimp only
  exact Canonical_vWord hs fun _ _ h' => wf_vResults h'

theorem Canonical_execVunpk {d : VReg} {a : VOpnd} {t : Fin 8} {h : Bool} {e : Fin 8} (hs : Canonical s) :
    CanonicalNext (execVunpk d a t h e s) := by
  unfold execVunpk
  dsimp only
  exact Canonical_vWord hs fun _ _ h' => wf_vResults h'

theorem Canonical_execKbr {c : Fin 16} {a : Fin 8} {o : BitVec 16} (hs : Canonical s) :
    CanonicalNext (execKbr c a o s) := by
  unfold execKbr
  dsimp only
  exact Canonical_onTileV hs (fun _ _ => Canonical_checked hs
    (Canonical_iteNext (.next (Canonical_setTile hs _ (Canonical_spad hs _)))
    (.next (Canonical_setTile hs _ (wf_vNext (Canonical_spad hs _))))))

theorem Canonical_execVEnd {c : Fin 16} {a : Fin 8} (hs : Canonical s) : CanonicalNext (execVEnd c a s) := by
  unfold execVEnd
  dsimp only
  exact Canonical_onTileV hs (fun _ _ => Canonical_checked hs
    (.next (Canonical_modTile hs _ (fun _ h' => h'))))

theorem Canonical_execVloop {a : Fin 8} {l : Fin 4096} (hs : Canonical s) : CanonicalNext (execVloop a l s) := by
  unfold execVloop
  dsimp only
  exact Canonical_onTileV hs (fun _ _ => Canonical_iteNext (Canonical_illegal hs)
    (Canonical_iteNext (.next (Canonical_setTile hs _ (Canonical_spad hs _)))
    (.next (Canonical_setTile hs _ (Canonical_spad hs _)))))

/-! ### Time -/

theorem wf_tickThread {h : Thread} (hH : Memory.wf h.store = true) : Memory.wf (tickThread h).store = true := by
  unfold tickThread
  dsimp only
  exact wf_iteThread hH hH

theorem Canonical_refTick (hs : Canonical s) : Canonical (refTick s) := by
  have ht := Canonical_spad hs
  have hh := Canonical_store hs
  obtain ⟨hm, hf, hw, hn, hp, -, -, hx⟩ := hs
  refine Canonical_update (s := { s with tiles := vmap (tickTile s) s.tiles, threads := vmap tickThread s.threads })
    ⟨hm, hf, hw, hn, hp, fun t => ?_, fun n => ?_, hx⟩
  · simpa [tileOf, vget, vmap, tickTile] using ht t
  · simpa [thrOf, vget, vmap] using wf_tickThread (hh n)

theorem Canonical_lookAll {l : List TileId} (hs : Canonical s) : Canonical (lookAll s l) := by
  induction l generalizing s with
  | nil => exact hs
  | cons a l ih => exact ih (by split; exacts [Canonical_of_next ‹_› (Canonical_waitAgain hs), hs])

theorem Canonical_duePort (hs : Canonical s) : Canonical (duePort s) := by
  unfold duePort
  split
  · split
    · exact Canonical_of_next ‹_› (Canonical_execPortCycle hs)
    · exact hs
  · exact hs

theorem Canonical_clockTurn (hs : Canonical s) : Canonical (clockTurn s) := by
  unfold clockTurn
  dsimp only
  split
  · exact Canonical_lookAll (Canonical_refTick (Canonical_update (Canonical_duePort hs)))
  · exact Canonical_update (Canonical_duePort hs)

theorem Canonical_dropTlbAt {k : Nat} (hs : Canonical s) :
    Canonical (dropTlbAt s t k) := Canonical_modTile hs _ fun _ h' => h'

theorem Canonical_fetchOf {a : Agent} (hs : Canonical s) : Canonical (fetchOf s a).1 := by
  unfold fetchOf
  split
  · split
    · exact Canonical_fetchTile hs
    · exact hs
  · exact hs

theorem Canonical_eccWord {addr : Word} (hs : Canonical s) :
    Canonical (eccWord s t st addr) := Canonical_ite (Canonical_tileTrap hs) hs

theorem Canonical_eccThread {addr : Word} (hs : Canonical s) :
    Canonical (eccThread s n addr) := Canonical_ite (Canonical_killThread hs) hs

theorem Canonical_driveSpace {port : Fin 8} {nsid : BitVec 32} {lba blocks : Nat} (hs : Canonical s) :
    Canonical (driveSpace s port nsid lba blocks) := Canonical_update hs

theorem Canonical_runWorld {w : World} (hs : Canonical s) : Canonical (runWorld s w) := by
  unfold runWorld
  split
  · split
    · exact Canonical_answerHost hs
    · exact Canonical_keeperSet hs
    · exact Canonical_updateImage hs
    · exact Canonical_updateMarker hs
    · exact Canonical_flashStep hs
    · exact Canonical_stageImage hs
    · exact Canonical_driveSpace hs
    · exact Canonical_update hs
    · exact Canonical_closeContext hs
    · exact Canonical_transferStep hs
    · exact Canonical_eccWord hs
    · exact Canonical_eccCommandTurn hs
    · exact Canonical_eccThread hs
    · exact Canonical_mismatchTurn hs
    · exact Canonical_update hs
  · exact hs

/-! ### The instructions -/

/-- Every instruction keeps the canonical form. The words of one kind share the lemma of the operation they are made of. -/
theorem Canonical_exec (hs : Canonical s) : CanonicalNext (exec i s) := by
  unfold exec
  cases i with
  | add | sub | mul | mulhs | mulhu | div | divu | rem | remu | and | or | xor | andn | shl | shr | sar | rol
  | min | minu | max | maxu | slt | sltu | seq | clz | ctz | popc | sel | addi | andi | ori | xori | shli | shri
  | sari | slti | sltiu | lih | fclass => exact Canonical_scalar hs (Canonical_wr hs)
  | extu | exts | ins => exact Canonical_scalar hs (Canonical_checked hs (Canonical_wr hs))
  | beq | bne | blt | bge | bltu | bgeu => exact Canonical_scalar hs (Canonical_branch hs)
  | j => exact Canonical_scalar hs (.next (Canonical_setPc hs _))
  | jal => exact Canonical_scalar hs (.next (Canonical_setPc (Canonical_wx hs _ _) _))
  | jalr => exact Canonical_execJalr hs
  | ldsB | ldsBu | ldsH | ldsHu | ldsW | ldsWu | ldsD => exact Canonical_scalar hs (Canonical_loadLocal hs)
  | stsB | stsH | stsW | stsD => exact Canonical_scalar hs (Canonical_storeLocal hs)
  | amos => exact Canonical_execAmos hs
  | cass => exact Canonical_execCass hs
  | ldB | ldBu | ldH | ldHu | ldW | ldWu | ldD => exact Canonical_loadGlobal hs
  | stB | stH | stW | stD => exact Canonical_storeGlobal hs
  | amo => exact Canonical_execAmo hs
  | cas => exact Canonical_execCas hs
  | fadd | fsub | fmul | fma | fdiv | fsqrt => exact Canonical_scalar hs (Canonical_checked hs (Canonical_fp hs))
  | faddDyn | fsubDyn | fmulDyn | fmaDyn | fdivDyn | fsqrtDyn | fmin | fmax | fminn | fmaxn =>
    exact Canonical_scalar hs (Canonical_fp hs)
  | fcmp => exact Canonical_execFcmp hs
  | fcvtFmtF32 | fcvtFmtF32Dyn | fcvtF32Fmt | fcvtF32FmtDyn =>
    exact Canonical_scalar hs (Canonical_checked hs (Canonical_fcvt hs))
  | qpops => exact Canonical_execQpops hs
  | fork => exact Canonical_execFork hs
  | join => exact Canonical_execJoin hs
  | taskEnd => exact Canonical_execTaskEnd hs
  | ckpt => exact Canonical_execCkpt hs
  | waitc => exact Canonical_execWaitc hs
  | waitv => exact Canonical_execWaitv hs
  | pegp => exact Canonical_execPegp hs
  | pegw => exact Canonical_onTileS hs fun _ _ => Canonical_iteNext (Canonical_done4 hs) (.next hs)
  | bar => exact Canonical_execBar hs
  | phase => exact Canonical_onTileS hs fun _ _ => Canonical_done4 (Canonical_setWait (Canonical_beginPublish hs))
  | fence => exact Canonical_execFence hs
  | jqput => exact Canonical_execJqput hs
  | jqctlClassset => exact Canonical_execJqctlClassset hs
  | jqctlClassget => exact Canonical_execJqctlClassget hs
  | jqctlFreeze => exact Canonical_jqctlWith hs fun _ _ _ _ h' => Canonical_wr (Canonical_freezeClass h')
  | jqctlThaw => exact Canonical_execJqctlThaw hs
  | jqctlTake | jqctlSteal => exact Canonical_jqctlEntries hs fun _ _ _ _ h' => Canonical_takeEntry h'
  | jqctlQuery => exact Canonical_execJqctlQuery hs
  | ctraddLocal => exact Canonical_execCtraddLocal hs
  | ctraddGlobal => exact Canonical_execCtraddGlobal hs
  | send => exact Canonical_execSend hs
  | bkarm => exact Canonical_execBkarm hs
  | evget => exact Canonical_execEvget hs
  | evdone => exact Canonical_onThread hs fun _ => Canonical_done4 (Canonical_ite (Canonical_endHandler hs) hs)
  | csrr => exact Canonical_csrCheck hs (Canonical_wr (Canonical_csrReadDone hs))
  | csrw | csrwC | csrx | csrxS => exact Canonical_csrWord hs
  | trap => exact Canonical_execTrap hs
  | sret => exact Canonical_execSret hs
  | tlbiVa => exact Canonical_execTlbiVa hs
  | tlbiAsid => exact Canonical_execTlbiAsid hs
  | tlbiAll =>
    exact Canonical_onThread hs fun _ => Canonical_iteNext (Canonical_privilege hs) (Canonical_beginTlbi hs)
  | seghold => exact Canonical_execSeghold hs
  | segrel => exact Canonical_execSegrel hs
  | vadd | vsub | vmul | vfma | vfms | vdiv | vsqrt | vmin | vmax | vminn | vmaxn | vabs | vneg | vcmp | vsel
  | vand | vor | vxor | vshl | vshr | vsar | vcvt | vclass | vexp2 | vlog2 | vrcp | vrsq | vtanh | verf =>
    exact Canonical_vElem hs
  | vrotr | vbcr | vrotc | vbcc | vtrn | vcompr | vlds | vldx | vmov | vpop | vidx => exact Canonical_vMove hs
  | vredr | vredc => exact Canonical_vWord hs fun _ _ h' => wf_vResults h'
  | vselk => exact Canonical_execVselk hs
  | vsts => exact Canonical_vWord hs fun _ _ h' => wf_winWrite h' _ _
  | vstx => exact Canonical_vWord hs fun _ _ h' => wf_scatterLanes h'
  | vpush => exact Canonical_execVpush hs
  | vaccr => exact Canonical_onTileV hs fun _ _ => Canonical_iteNext (Canonical_vMove hs) (Canonical_privilege hs)
  | vaccw => exact Canonical_execVaccw hs
  | vpack => exact Canonical_execVpack hs
  | vunpk => exact Canonical_execVunpk hs
  | kli | kadd => exact Canonical_vWord hs fun _ _ h' => h'
  | kbr => exact Canonical_execKbr hs
  | vEnd => exact Canonical_execVEnd hs
  | vloop => exact Canonical_execVloop hs
  | lit | litx | dup | drop | swap | engineAdd | engineSub => exact Canonical_stackWord hs
  | engineDo => exact Canonical_execEngineDo hs
  | engineLoop => exact Canonical_execEngineLoop hs
  | engineBr => exact Canonical_onEngine hs fun _ _ _ => .next (Canonical_setPc hs _)
  | engineBz => exact Canonical_execEngineBz hs
  | enginePegp | engineCtraddLocal => exact Canonical_onEngine hs fun _ _ _ => Canonical_command hs
  | enginePegw => exact Canonical_execEnginePegw hs
  | engineWaitc => exact Canonical_onEngine hs fun _ _ _ => Canonical_iteNext (Canonical_done2 hs) (.next hs)
  | engineFence => exact Canonical_execEngineFence hs
  | engineCtraddGlobal => exact Canonical_execEngineCtraddGlobal hs
  | engineEnd => exact Canonical_execEngineEnd hs
  | mma => exact Canonical_execMma hs
  | accz | accdrain | scaleset | copyin | copyout | nest | gath | scat | pref =>
    exact Canonical_onStream hs fun _ _ => Canonical_command hs
  | qstream => exact Canonical_execQstream hs
  | qdrain => exact Canonical_execQdrain hs
  | mlr => exact Canonical_execMlr hs
  | mst => exact Canonical_execMst hs
  | discardComplete => exact Canonical_execDiscardComplete hs
  | commandCompletion => exact Canonical_execCommandCompletion hs
  | nestIteration => exact Canonical_execNestIteration hs
  | streamEnd => exact Canonical_execStreamEnd hs
  | publishComplete => exact Canonical_execPublishComplete hs
  | checkpointCommit => exact Canonical_execCheckpointCommit hs
  | preemptFallback => exact Canonical_execPreemptFallback hs
  | barComplete => exact Canonical_execBarComplete hs
  | waitvTimeout | waitvReturn => exact Canonical_waitAgain hs
  | portCycle => exact Canonical_execPortCycle hs
  | gangStart => exact Canonical_execGangStart hs
  | gangComplete => exact Canonical_execGangComplete hs
  | cardRead => exact Canonical_execCardRead hs
  | agingStep => exact Canonical_execAgingStep hs
  | holdClaim => exact Canonical_execHoldClaim hs
  | backoffExpiry => exact Canonical_execBackoffExpiry hs
  | pageWaitTimeout => exact Canonical_execPageWaitTimeout hs
  | tlbiComplete => exact Canonical_execTlbiComplete hs
  | segholdComplete => exact Canonical_execSegholdComplete hs
  | install | remove | prefetch | evict | pool | spill => exact Canonical_lodgingStep hs
  | fetchComplete => exact Canonical_execFetchComplete hs
  | fetchFailure => exact Canonical_execFetchFailure hs
  | evictionComplete => exact Canonical_execEvictionComplete hs
  | snapshot => exact .next (Canonical_getD (Canonical_snapshotMsg hs) hs)
  | snapshotCut => exact Canonical_execSnapshotCut hs
  | snapshotFrameSave => exact Canonical_execSnapshotFrameSave hs
  | snapshotComplete => exact Canonical_execSnapshotComplete hs
  | preempt | withdraw => exact Canonical_preemptStep hs
  | nvmeAdmin => exact .next (Canonical_getD (Canonical_nvmeMsg hs) hs)
  | droverCopy | stateExport | stateImport =>
    exact Canonical_iteNext (.next (Canonical_getD (Canonical_copyMsg hs) hs)) (.next hs)
  | droverComplete => exact Canonical_execDroverComplete hs
  | hostCompletion => exact .next (Canonical_getD (Canonical_completionMsg hs) hs)
  | timerRequest => exact .next (Canonical_getD (Canonical_timerMsg hs) hs)
  | timerExpiry => exact Canonical_execTimerExpiry hs
  | watchdog => exact Canonical_execWatchdog hs
  | packetArrival => exact Canonical_execPacketArrival hs
  | messageCompletion => exact Canonical_execMessageCompletion hs
  | counterIncrement => exact .next (Canonical_addCounter hs)
  | ackArrival => exact Canonical_execAckArrival hs
  | retransmitTimeout => exact Canonical_execRetransmitTimeout hs
  | retryBackoffExpiry => exact Canonical_execRetryBackoffExpiry hs
  | purlinRequest => exact Canonical_execPurlinRequest hs
  | linkStateChange => exact Canonical_execLinkStateChange hs
  | launch => exact Canonical_execLaunch hs
  | cplhead => exact Canonical_execCplhead hs
  | readyctl => exact Canonical_execReadyctl hs
  | attgo => exact Canonical_execAttgo hs
  | attestationReport => exact Canonical_execAttestationReport hs
  | recoveryImage => exact Canonical_execRecoveryImage hs
  | vfctlCreate | vfctlFreeze | vfctlUnfreeze | vfctlTear => exact Canonical_vfctlStep hs
  | freezeComplete => exact Canonical_execFreezeComplete hs
  | teardownComplete => exact Canonical_execTeardownComplete hs
  | partctlCreate | partctlDelete => exact Canonical_partctlStep hs
  | partitionFault => exact Canonical_execPartitionFault hs
  | dbgctlHalt | dbgctlResume | dbgctlAbort | dbgctlBparm | dbgctlBpdisarm => exact Canonical_dbgctlStep hs
  | haltReport => exact Canonical_execHaltReport hs
  | dbgdataRead => exact Canonical_iteNext (.next (Canonical_debugTouched hs)) (.next hs)
  | dbgdataWrite => exact Canonical_iteNext (.next (Canonical_debugTouched (Canonical_putDebugWord hs))) (.next hs)
  | dbgselWrite => exact Canonical_iteNext (.next (Canonical_setDbgsel hs)) (.next hs)
  | fpcrWrite => exact .next (Canonical_writeFpcr hs)
  | codesize => exact .next (Canonical_getD (Canonical_cfgWrite hs) hs)
  | ownerTag => exact Canonical_iteNext (.next (Canonical_getD (Canonical_writeTag hs) hs)) (.next hs)
  | endpointSlot => exact Canonical_execEndpointSlot hs
  | registerWrite => exact Canonical_execRegisterWrite hs
  | boot => exact Canonical_execBoot hs
  | powerOn => exact Canonical_iteNext (.next (Canonical_update hs)) (.next hs)
  | clockStep => exact Canonical_execClockStep hs
  | scrub => exact Canonical_execScrub hs
  | nvmeAdminCompletion => exact Canonical_execNvmeAdminCompletion hs
  | purlinRetryExpiry => exact Canonical_execPurlinRetryExpiry hs
  | powerLoss => exact Canonical_execPowerLoss hs
  | _ => exact Canonical_stackWord hs -- OVER, whose name is a keyword

/-! ### A step -/

theorem Canonical_runWord {a : Agent} {f : Fetched} (hs : Canonical s) : CanonicalNext (runWord s a f) := by
  unfold runWord
  split
  · exact .next hs
  · exact Canonical_raise hs
  · split
    · exact Canonical_exec hs
    · exact Canonical_raise hs

theorem Canonical_issueWord {a : Agent} (hs : Canonical s) : CanonicalNext (issueWord s a) :=
  Canonical_iteNext (Canonical_runWord (Canonical_fetchOf (Canonical_update hs))) (.next hs)

theorem Canonical_deviceTurn (hs : Canonical s) : CanonicalNext (deviceTurn s i) :=
  Canonical_iteNext (.next hs) (Canonical_iteNext (Canonical_exec hs) (.next hs))

theorem Canonical_runTurn {u : Turn} (hs : Canonical s) : CanonicalNext (runTurn s u) := by
  cases u with
  | issue a => exact Canonical_issueWord hs
  | device i => exact Canonical_deviceTurn hs
  | clock => exact .next (Canonical_clockTurn hs)
  | work t onM id n => exact .next (Canonical_workTurn hs)
  | granule t k => exact .next (Canonical_publishGranule hs)
  | tlbDrop t k => exact .next (Canonical_dropTlbAt hs)
  | keepOld t g => exact .next (Canonical_keepOld hs)
  | seeNew t g => exact .next (Canonical_seeNew hs)
  | walkKeep t va lvl => exact .next (Canonical_walkKeep hs)
  | walkDrop k => exact .next (Canonical_walkDrop hs)
  | row t id r => exact .next (Canonical_rowTurn hs)
  | rowRead t onM id r => exact .next (Canonical_rowReadTurn hs)
  | element t id n => exact .next (Canonical_elementTurn hs)
  | select => exact .next (Canonical_ite (Canonical_selectNow hs) hs)
  | world w => exact .next (Canonical_runWorld hs)

theorem Canonical_idleStep (hs : Canonical s) : CanonicalNext (idleStep s) := by
  unfold idleStep
  split
  · exact Canonical_issueWord hs
  · exact Canonical_exec hs
  · exact .next hs
  · exact .fault
  · exact .fault

/-- A step runs the next turn of the agenda or, without one, lets the agent in turn issue. -/
theorem Canonical_step (hs : Canonical s) : CanonicalNext (step s) := by
  unfold step
  dsimp only
  split
  · exact Canonical_idleStep (Canonical_update hs)
  · exact Canonical_runTurn (Canonical_update hs)

end

/-- Settles O59: the canonical form is kept by every function that a step runs through. -/
theorem memoriesStayCanonical : Obligations.MemoriesStayCanonical := by
  unfold Obligations.MemoriesStayCanonical
  intro s t hs hst
  exact Canonical_of_next hst (Canonical_step hs)

end Sys2Proof.Machine
end

section
/-! SUPPORT. The end of a failing copy may start another copy (O50): as a CXL port goes down, its copy ends with status 4 and
its done counter advances all the same (R392, R412); a booking of that counter whose ACTION is COPY then fires at once and asks
for a new copy (R401). -/

namespace Sys2Proof.Machine

/-! ### What a CXL port that goes down leaves of the requests -/

theorem sendEvent_drovers (s : State) (n : ThreadId) (e : Event) : (sendEvent s n e).drovers = s.drovers := by
  obtain ⟨q, w, h⟩ := sendEvent_eq s n e
  rw [h, setThr_drovers]

theorem toStewards_drovers (s : State) (e : Event) (ps : List PartId) : (toStewards s e ps).drovers = s.drovers := by
  induction ps generalizing s with
  | nil => rfl
  | cons p ps ih =>
    rw [toStewards, ih]
    split
    · exact sendEvent_drovers s _ e
    · rfl

/-- A CXL port that goes down: its transfers fail, then its event goes out (R405, R412). -/
theorem exec_linkStateChange_cxl_down {s : State} {n : Nat} (hn : n < kindPorts .cxl) (hup : portDown s .cxl n = false) :
    exec (.linkStateChange .cxl n false) s =
      .next (toStewards
        (sendEvent (failTransfers { s with linksDown := s.linksDown ++ [(.cxl, n)] } n (s.drovers.map Prod.fst)) 0
          (linkEvent .cxl n false 0 0 0))
        (linkEvent .cxl n false 0 0 0) (allFin 40)) := by
  change execLinkStateChange .cxl n false s = _
  simp [execLinkStateChange, hup, Nat.not_le.mpr hn]

/-! ### A copy whose end starts another -/

/-- A Steward's copy, on Drover 0, of 64 bytes from CXL port 0 to HBM. Its done counter is the device's counter 64: a Steward
may name every counter of its partition, its VFs' among them (R393). -/
def tierCopy : Drover :=
  { kind := .copy, part := some 1, pool := 0, unit := some 0, pos := 0, vf := none, src := cxlBase, dst := 0x300000,
    length := 64, done := some 64, notify := none }

/-- A one-shot booking of VF 2 on counter 64 with THRESHOLD 1: ACTION COPY, of 64 bytes within the segment (R396). -/
def copyBooking : Booking :=
  { part := some 1
    words := [word (2 ^ 63 + 2 * 2 ^ 55 + 2 * 2 ^ 16), 0, 0, 1, 0, 0, 0, 0, 0x1000, 64, 0, 0, 0, 0, 0, 0, 0, 0]
    threshold := 1, vf := some 2, ctr := 64, bound := 0, arm := 8, armed := true }

/-- The copy that the booking asks for. -/
def bookedCopy : Drover :=
  { kind := .copy, part := some 1, pool := 0, unit := some 0, pos := 0, vf := some 2, src := 0, dst := 0x1000, length := 64,
    done := none, notify := none }

/-- Partition 1 with its READY VF 2, the Steward's copy in flight over CXL port 0, and the booking that waits for its end. -/
def tierCopying : State :=
  { State.reset with
    seq := 10, drovers := [(9, tierCopy)], bookings := [(64, copyBooking)]
    parts := vset State.reset.parts 1
      { state := 1, carveBase := 0x200000, carveSize := 0x400000, thrFirst := 16, thrCount := 16, stewCount := 2, vfFirst := 2,
        vfCount := 2, ctrShare := 32, bkShare := 32, ctrFirst := 64, bkRuns := [(64, 32)], tierBase := cxlBase,
        tierSize := 0x400000, tierPorts := 1 }
    vfs := vset State.reset.vfs 2
      { state := 2, part := 1, segBase := 0x400000, segSize := 0x100000, gtFirst := 20, gtCount := 4, cCount := 4, bCount := 4 } }

/-- The copy fails, its counter reaches the booking's THRESHOLD, and the booking's own copy takes the Drover. -/
theorem failTransfers_tierCopying :
    (failTransfers { tierCopying with linksDown := [(.cxl, 0)] } 0 [9]).drovers = [(10, bookedCopy)] := by
  rfl

/-- Refutes O50, by its clause that a failed copy leaves no request behind: the clause asks nothing of the copy's done counter,
which here fires a booking whose ACTION is COPY. -/
theorem not_linkTurns : ¬ Obligations.LinkTurns := by
  unfold Obligations.LinkTurns Claims.Links
  rintro ⟨-, -, -, hlink, -⟩
  obtain ⟨-, hdown⟩ := hlink tierCopying .cxl 0 false (by decide)
  obtain ⟨u, hu, -, -, -, -, -, hgone⟩ := hdown rfl (.inr rfl)
  have hnone : u.drovers = [] :=
    hgone 9 tierCopy rfl rfl rfl rfl rfl
  rw [exec_linkStateChange_cxl_down (by decide) rfl] at hu
  have hbooked : u.drovers = [(10, bookedCopy)] := by
    rw [← Host.Outcome.next.inj hu, toStewards_drovers, sendEvent_drovers]
    exact failTransfers_tierCopying
  exact absurd (hnone.symm.trans hbooked) (by simp)

end Sys2Proof.Machine
end

section
/-! SUPPORT. Words of the context chapter: the registers that start a command (O21), TRAP (O22), a trap's entry (O23) and
SRET (O25), the words of translation (O34), and the state after a reset (O60). -/

namespace Sys2Proof.Machine

open Sys2Proof.Safety

/-! ### A thread's pc and registers -/

theorem advance_thread {s : State} {n : ThreadId} (hc : s.cur = .thread n) (k : Nat) :
    advance s k = setThr s n { thrOf s n with pc := (thrOf s n).pc + word k } := by
  simp [advance, setPc, pcOf, hc, modThr]

/-- Writing a register and going on are independent. -/
theorem wx_advance_thread {s : State} {n : ThreadId} (hc : s.cur = .thread n) (d : XReg) (w : Word) (k : Nat) :
    wx (advance s k) d w = advance (wx s d w) k := by
  simp [wx, advance, setPc, pcOf, hc, modThr]

/-! ### CSR writes that name a command register (R104, R105) -/

/-- VFCTL, DBGCTL or PARTCTL. -/
def commandCsr (c : Nat) : Prop := c = 0x405 ∨ c = 0x406 ∨ c = 0x805

theorem csrRead_commandCsr {s : State} {n : ThreadId} (hc : s.cur = .thread n) {c : Nat} (h : commandCsr c) :
    csrRead s c = 0 := by
  rcases h with rfl | rfl | rfl <;> simp [csrRead, hc, threadCsr]

/-- A write of a command register from a level that may name it: xd takes the 0 that it reads, the pc moves on, and then the
write acts, or raises PRIVILEGE and leaves both as they were. -/
theorem csrWord_commandCsr {s : State} {n : ThreadId} (hc : s.cur = .thread n) {c : Nat} (h : commandCsr c)
    (hl : c / 1024 ≤ (thrOf s n).level) (i : Instr) (d : XReg) (k : CsrWrite) (x : Word) :
    csrWord s i d c k x = (threadPut (wx (advance s 4) d 0) n c k x).elim (privilege s i) .next := by
  have hput : csrPut (wx (advance s 4) d 0) c k x = threadPut (wx (advance s 4) d 0) n c k x := by simp [csrPut, hc]
  have hlevel : ¬ curLevel s < c / 1024 := by simpa [curLevel, hc, levelOf] using hl
  have hhere : csrHere (curOnTile s) c = true ∧ c / 512 % 2 = 0 := by
    rcases h with rfl | rfl | rfl <;> simp [curOnTile, hc, csrHere]
  rw [csrWord, csrCheck, scalar_of_turn (.inr ⟨n, hc⟩), csrRead_commandCsr hc h, hput, if_neg (by simp [hhere.1]),
    if_neg hlevel, if_neg (by simp [hhere.2])]
  cases threadPut (wx (advance s 4) d 0) n c k x <;> rfl

/-- A clear or a set of a command register starts no command. -/
theorem threadPut_commandCsr {c : Nat} (h : commandCsr c) {k : CsrWrite} (hk : k ≠ .write) (s : State) (n : ThreadId)
    (x : Word) : threadPut s n c k x = some s := by
  rcases h with rfl | rfl | rfl <;> simp [threadPut, hk]

/-- So it writes 0 to xd and goes on. -/
theorem csrWord_noCommand {s : State} {n : ThreadId} (hc : s.cur = .thread n) {c : Nat} (h : commandCsr c)
    (hl : c / 1024 ≤ (thrOf s n).level) (i : Instr) (d : XReg) {k : CsrWrite} (hk : k ≠ .write) (x : Word) :
    ∃ u, csrWord s i d c k x = .next u ∧ WroteReg s u d 0 (pcOf s + 4) := by
  refine ⟨advance (wx s d 0) 4, ?_, wroteReg_advance s d 0 4⟩
  rw [csrWord_commandCsr hc h hl, threadPut_commandCsr h hk, wx_advance_thread hc]
  rfl

theorem exec_csrw (a : XReg) (c : BitVec 12) (s : State) :
    exec (.csrw a c) s = csrWord s (.csrw a c) 0 c.toNat .write (rx s a) := rfl
theorem exec_csrx (d a : XReg) (c : BitVec 12) (s : State) :
    exec (.csrx d a c) s = csrWord s (.csrx d a c) d c.toNat .write (rx s a) := rfl
theorem exec_csrwC (a : XReg) (c : BitVec 12) (s : State) :
    exec (.csrwC a c) s = csrWord s (.csrwC a c) 0 c.toNat .clear (rx s a) := rfl
theorem exec_csrxS (d a : XReg) (c : BitVec 12) (s : State) :
    exec (.csrxS d a c) s = csrWord s (.csrxS d a c) d c.toNat .set (rx s a) := rfl

/-- A plain write of a command register, CSRW as CSRX to x0. -/
theorem exec_plainCommand {s : State} {n : ThreadId} (hc : s.cur = .thread n) {c : BitVec 12} (h : commandCsr c.toNat)
    (hl : c.toNat / 1024 ≤ (thrOf s n).level) {i : Instr} {a d : XReg} (hi : i = .csrw a c ∧ d = 0 ∨ i = .csrx d a c) :
    exec i s = (threadPut (wx (advance s 4) d 0) n c.toNat .write (rx s a)).elim (privilege s i) .next := by
  obtain ⟨rfl, rfl⟩ | rfl := hi
  · rw [exec_csrw, csrWord_commandCsr hc h hl]
  · rw [exec_csrx, csrWord_commandCsr hc h hl]

theorem threadPut_vfctl (s : State) (n : ThreadId) (x : Word) : threadPut s n 0x405 .write x = vfctl s n x := rfl
theorem threadPut_dbgctl (s : State) (n : ThreadId) (x : Word) : threadPut s n 0x406 .write x = dbgctl s n x := rfl
theorem threadPut_partctl (s : State) (n : ThreadId) (x : Word) : threadPut s n 0x805 .write x = some (partctl s n x) := rfl

/-- Settles O21, by what a CSR word does to a command register. -/
theorem commandRegisters : Obligations.CommandRegisters := by
  unfold Obligations.CommandRegisters
  intro s n a c hc hl
  refine ⟨fun i d hi => ⟨fun h => ?_, fun h => ?_, fun h => ?_⟩, fun i d hi h => ?_⟩
  · have hx := exec_plainCommand hc (.inl h) hl hi
    rw [h, threadPut_vfctl] at hx
    split <;> rename_i hv <;> rw [hx, hv] <;> rfl
  · have hx := exec_plainCommand hc (.inr (.inl h)) hl hi
    rw [h, threadPut_dbgctl] at hx
    split <;> rename_i hv <;> rw [hx, hv] <;> rfl
  · have hx := exec_plainCommand hc (.inr (.inr h)) hl hi
    rw [h, threadPut_partctl] at hx
    exact hx
  · obtain ⟨rfl, rfl⟩ | rfl := hi
    · exact csrWord_noCommand hc h hl _ _ (by decide) _
    · exact csrWord_noCommand hc h hl _ _ (by decide) _

/-! ### TRAP (R106) -/

theorem exec_trap (c : BitVec 8) (s : State) : exec (.trap c) s = execTrap c s := rfl

/-- The code of a breakpoint, as a number. -/
theorem eq_breakpoint_iff (c : BitVec 8) : c = 0x13 ↔ c.toNat = 0x13 := by bv_omega

theorem trapVal_eq (s : State) (c : BitVec 8) : trapVal s c = if c.toNat = 0x13 then pcOf s else rx s 1 := by
  simp only [trapVal, eq_breakpoint_iff]

/-- A code that TRAP does not have. -/
def NoTrapCode (c : BitVec 8) : Prop := c.toNat ≠ 0x13 ∧ c.toNat < 0x80

theorem noTrapCode_iff (c : BitVec 8) : NoTrapCode c ↔ c ≠ 0x13 ∧ c.toNat < 0x80 := by
  rw [NoTrapCode, Ne, Ne, eq_breakpoint_iff]

theorem exec_trap_illegal {s : State} (hs : ScalarTurn s) {c : BitVec 8} (h : NoTrapCode c) :
    exec (.trap c) s = raise s causeIllegal (insnWord (.trap c)) := by
  rw [exec_trap, execTrap, scalar_of_turn hs, if_pos ((noTrapCode_iff c).mp h)]
  rfl

theorem exec_trap_thread {s : State} {n : ThreadId} (hc : s.cur = .thread n) {c : BitVec 8} (h : ¬ NoTrapCode c) :
    exec (.trap c) s = .next (threadTrap s n c.toNat true (pcOf s) (pcOf s + 4) (trapVal s c)) := by
  rw [exec_trap, execTrap, scalar_of_turn (.inr ⟨n, hc⟩), if_neg (mt (noTrapCode_iff c).mpr h)]
  simp only [hc]

theorem breakpointTo_eq (s : State) (t : TileId) :
    breakpointTo s t = (tileOf s t).task.bind fun k => (vfOf s k.vf).breakpoints := by
  rw [breakpointTo]; cases (tileOf s t).task <;> rfl

/-- On a tile TRAP raises its cause, but for a breakpoint of an armed VF. -/
theorem exec_trap_tile {s : State} {t : TileId} (hc : s.cur = .tile t .S) {c : BitVec 8} (h : ¬ NoTrapCode c)
    (hb : c.toNat ≠ 0x13 ∨ breakpointTo s t = none) :
    exec (.trap c) s = .next (tileTrap s t 0 c.toNat (pcOf s) (trapVal s c)) := by
  rw [exec_trap, execTrap, scalar_of_turn (.inl ⟨t, hc⟩), if_neg (mt (noTrapCode_iff c).mpr h)]
  simp only [hc]
  split
  · rename_i hd hn
    rcases hb with hb | hb
    · exact absurd ((eq_breakpoint_iff c).mp (of_decide_eq_true hd)) hb
    · rw [hb] at hn; cases hn
  · exact raise_tile hc _ _

/-- A breakpoint of an armed VF halts the task at the TRAP, its pc at the next word (R119). -/
theorem exec_trap_breakpoint {s : State} {t : TileId} (hc : s.cur = .tile t .S) {c : BitVec 8} (h : c.toNat = 0x13)
    {n : ThreadId} (hb : breakpointTo s t = some n) :
    exec (.trap c) s = .next (modTile s t fun T =>
      Claims.nextS { T with debug := .halting n causeBreakpoint (pcOf s) }) := by
  obtain rfl := (eq_breakpoint_iff c).mpr h
  rw [exec_trap, execTrap, scalar_of_turn (.inl ⟨t, hc⟩), if_neg (by decide)]
  simp only [hc, hb, decide_true]
  simp [advance, setPc, pcOf, hc, modTile, modStrm, setStrm, strm, Claims.nextS, word]

/-- Settles O22, by the cases of TRAP's code and its issuer. -/
theorem trapWord : Obligations.TrapWord := by
  unfold Obligations.TrapWord
  intro s c hs
  split
  · exact exec_trap_illegal hs ‹_›
  · rename_i h
    rw [← trapVal_eq]
    refine ⟨fun n hc => exec_trap_thread hc h, fun t hc => ?_⟩
    rw [← breakpointTo_eq]
    split
    · exact exec_trap_tile hc h (.inr ‹_›)
    · split
      · exact exec_trap_breakpoint hc ‹_› ‹_›
      · exact exec_trap_tile hc h (.inl ‹_›)

/-! ### Trap entry (R115) and SRET (R107) -/

theorem tstatAct_iff (w : Word) : tstatAct w = true ↔ w.toNat / 4 % 2 = 1 := by
  simp [tstatAct, BitVec.getLsbD, Nat.testBit, Nat.shiftRight_eq_div_pow]

theorem tstatAct_eq_false_iff (w : Word) : tstatAct w = false ↔ w.toNat / 4 % 2 = 0 := by
  rw [← Bool.not_eq_true, tstatAct_iff]; omega

/-- Settles O23: `threadTrap_free`, with the set of the level named. -/
theorem trapEntry : Obligations.TrapEntry := by
  unfold Obligations.TrapEntry
  intro s n c sw pc epc val h l r r' hl hact
  have hr : trapRegs h (trapLevel h.level) = r := by
    by_cases h0 : h.level = 0 <;> simp [trapRegs, trapLevel, r, l, h0]
  have ht : trapped r h.level c sw epc val = r' := by
    simp [trapped, r', Nat.mod_eq_of_lt (show h.level < 4 by omega)]
  rw [threadTrap_free (by rw [hr]; exact (tstatAct_eq_false_iff _).mpr hact), hr, ht]
  by_cases h0 : h.level = 0 <;> simp [setTrapRegs, trapLevel, l, r', h0, h]

theorem exec_sret_thread {s : State} {n : ThreadId} (hc : s.cur = .thread n) :
    exec .sret s =
      if (thrOf s n).level = 0 then privilege s .sret
      else if tstatAct (trapRegs (thrOf s n) (thrOf s n).level).tstat = false then illegal s .sret
      else .next (setThr s n (trapReturn (thrOf s n))) := onThread_of hc _ _

/-- Settles O25, by SRET's issuer, the level it runs at and that level's ACT. -/
theorem returnFromTrap : Obligations.ReturnFromTrap := by
  unfold Obligations.ReturnFromTrap
  refine ⟨by decide, fun s t st hc => onThread_tile hc _ _, fun s n hc => ?_⟩
  intro h r r'
  have hr : trapRegs h h.level = r := rfl
  rw [exec_sret_thread hc]
  split
  · rfl
  · rw [hr]
    split <;> rename_i hact
    · rw [if_pos ((tstatAct_eq_false_iff _).mpr hact)]; rfl
    · rw [if_neg (mt (tstatAct_eq_false_iff _).mp hact)]
      by_cases h1 : h.level = 1 <;> simp [trapReturn, trapRegs, setTrapRegs, clearAct, tstatPl, r, r', h1, h]

/-! ### TLBI, SEGHOLD and SEGREL (R347 to R349) -/

theorem beginTlbi_eq {s : State} {n : ThreadId} (hc : s.cur = .thread n) (kind : Nat) (va : Word) (asid : Nat) :
    beginTlbi s n kind va asid = .next (modThr s n fun h => { Claims.nextT h with wait := .tlbi kind va asid }) := by
  simp [beginTlbi, advance_thread hc, modThr, Claims.nextT, word]

theorem invalidationWords : Claims.InvalidationWords := by
  intro s n a b hc asid begun
  refine ⟨?_, ?_, ?_⟩
  · refine (onThread_of hc _ _).trans ?_
    simp only [beginTlbi_eq hc]
    rfl
  · refine (onThread_of hc _ _).trans ?_
    simp only [beginTlbi_eq hc]
    rfl
  · refine (onThread_of hc _ _).trans ?_
    simp only [beginTlbi_eq hc, levelOf]
    cases partOfThread s n <;> by_cases h0 : (thrOf s n).level = 0 <;> simp [h0, begun, privilege]

/-- Whom SEGHOLD and SEGREL may name. -/
theorem segVf_eq (s : State) (n : ThreadId) (a : XReg) :
    segVf s n a =
      if (thrOf s n).level = 0 ∨ partOfThread s n = none ∨
          partOfVf s (Fin.ofNat 128 ((rx s a).toNat % 128)) ≠ partOfThread s n then none
      else some (Fin.ofNat 128 ((rx s a).toNat % 128)) := by
  unfold segVf
  cases hp : partOfThread s n with
  | none => simp
  | some p => by_cases h0 : (thrOf s n).level = 0 <;> simp [levelOf, h0]

theorem done4_thread {s : State} {n : ThreadId} (hc : s.cur = .thread n) :
    done4 s = .next (modThr s n Claims.nextT) := by
  simp [done4, advance_thread hc, modThr, Claims.nextT, word]

theorem exec_seg_privilege {s : State} {n : ThreadId} (hc : s.cur = .thread n) {a : XReg} (hv : segVf s n a = none) :
    exec (.seghold a) s = privilege s (.seghold a) ∧ exec (.segrel a) s = privilege s (.segrel a) := by
  refine ⟨(onThread_of hc _ _).trans ?_, (onThread_of hc _ _).trans ?_⟩ <;> simp only [hv]

theorem vfStands_eq_false_iff (s : State) (v : VfId) :
    vfStands s v = false ↔ ¬ ((vfOf s v).state = 1 ∨ (vfOf s v).state = 2 ∨ (vfOf s v).state = 3) := by
  simp only [vfStands, decide_eq_false_iff_not]; omega

/-- SEGHOLD of a VF that stands and is not held holds it and its thread; of any other VF it is done. -/
theorem exec_seghold {s : State} {n : ThreadId} (hc : s.cur = .thread n) {a : XReg} {v : VfId}
    (hv : segVf s n a = some v) :
    exec (.seghold a) s =
      if ((vfOf s v).state = 1 ∨ (vfOf s v).state = 2 ∨ (vfOf s v).state = 3) ∧ (vfOf s v).segHeld = false then
        .next (modVf (modThr s n fun h => { Claims.nextT h with wait := .seghold v }) v fun f => { f with segHeld := true })
      else .next (modThr s n Claims.nextT) := by
  refine (onThread_of hc _ _).trans ?_
  have hcond : vfStands s v = false ∨ (vfOf s v).segHeld = true ↔
      ¬ (((vfOf s v).state = 1 ∨ (vfOf s v).state = 2 ∨ (vfOf s v).state = 3) ∧ (vfOf s v).segHeld = false) := by
    rw [vfStands_eq_false_iff, not_and_or, Bool.not_eq_false]
  simp only [hv, done4_thread hc, hcond, ite_not, advance_thread hc, modThr, modVf, thrOf_setVf, thrOf_setThr_same,
    vfOf_setThr]
  simp [setThr, setVf, Claims.nextT, word]

/-- SEGREL of a held VF gives it a base inside the carve-out; of a VF that is not held it is done. -/
theorem exec_segrel {s : State} {n : ThreadId} (hc : s.cur = .thread n) {a : XReg} {v : VfId}
    (hv : segVf s n a = some v) :
    exec (.segrel a) s =
      let f := vfOf s v
      let q := partOf s f.part
      let base := bfld (rx s a) 47 21 * 2 ^ 21
      if f.segHeld = false then .next (modThr s n Claims.nextT)
      else if q.carveBase ≤ base ∧ base + f.segSize ≤ q.carveBase + q.carveSize then
        .next (modThr (setVf s v { f with segBase := base, segHeld := false }) n Claims.nextT)
      else raise s causeSegment (word base) := by
  refine (onThread_of hc _ _).trans ?_
  have hdone : ∀ f, done4 (setVf s v f) = .next (modThr (setVf s v f) n Claims.nextT) := fun f => done4_thread hc
  simp only [hv, done4_thread hc, hdone]
  generalize bfld (rx s a) 47 21 * 2 ^ 21 = base
  split
  · rfl
  · split
    · rw [if_neg (by omega)]
    · rw [if_pos (by omega)]

theorem segmentMoves : Claims.SegmentMoves := by
  intro s n a hc v f q base
  split
  · exact exec_seg_privilege hc (by rw [segVf_eq, if_pos ‹_›])
  · have hv : segVf s n a = some v := by rw [segVf_eq, if_neg ‹_›]
    exact ⟨exec_seghold hc hv, exec_segrel hc hv⟩

/-- Settles O34, by the two claims it is made of. -/
theorem translationWords : Obligations.TranslationWords := ⟨invalidationWords, segmentMoves⟩

/-! ### Reset -/

theorem vget_replicate {α : Type} {n : Nat} (x : α) (i : Fin n) : vget (Vector.replicate n x) i = x := by simp [vget]

theorem tileOf_reset (t : TileId) : tileOf State.reset t = {} := vget_replicate _ t
theorem thrOf_reset (n : ThreadId) : thrOf State.reset n = {} := vget_replicate _ n
theorem partOf_reset (p : PartId) : partOf State.reset p = {} := vget_replicate _ p
theorem vfOf_reset (v : VfId) : vfOf State.reset v = {} := vget_replicate _ v

/-- With an empty agenda the boot ROM runs where it is pending. -/
theorem step_bootPending {s : State} (ha : s.agenda = []) (hp : s.power = .bootPending) :
    step s = exec .boot { s with freeCtr := s.freeCtr + 1 } := by
  simp [step, ha, idleStep, hp]

/-- Settles O60: every field stands at its default. -/
theorem resetState : Obligations.ResetState := by
  unfold Obligations.ResetState
  refine ⟨rfl, fun p => ?_, fun v => ?_, fun n => ?_, fun t => ⟨?_, fun st => ?_⟩,
    fun a => ⟨rfl, rfl, rfl, rfl, rfl⟩, fun t a => ?_, fun n a => ?_, rfl, rfl, Canonical_reset, step_bootPending rfl rfl⟩
  · rw [partOf_reset]
  · rw [vfOf_reset]
  · rw [thrOf_reset]
  · rw [tileOf_reset]
  · rw [tileOf_reset]; cases st <;> rfl
  · rw [tileOf_reset]; exact mget_nil a
  · rw [thrOf_reset]; exact mget_nil a

end Sys2Proof.Machine
end

section
/-! SUPPORT. What a cause on a tile leaves of its gang, its class, its entry and its card, and whom it tells (O54). Each
operation of a fate is described once: which fields it changes, and what they hold after it. -/

namespace Sys2Proof.Machine

open Sys2Proof.Safety

/-! ### Clearing tiles -/

theorem releaseEffects_eq (s : State) (es : List Effect) : ∃ rs, releaseEffects s es = { s with reserved := rs } := by
  induction es generalizing s with
  | nil => exact ⟨s.reserved, rfl⟩
  | cons e es ih =>
    cases e with
    | put p => obtain ⟨rs, h⟩ := ih (releaseUnit s p.unitVf); exact ⟨rs, h⟩
    | send m => exact ih s
    | incr v a w => exact ih s

/-- Clearing a tile changes tiles, reservations and held accesses, and nothing else. -/
theorem clearTile_eq (s : State) (t : TileId) :
    ∃ ts hs rs, clearTile s t = { s with tiles := ts, holds := hs, reserved := rs } := by
  obtain ⟨rs, h⟩ := releaseEffects_eq s (tileOf s t).effects
  exact ⟨_, _, rs, by rw [clearTile, h]; rfl⟩

theorem clearTiles_eq (s : State) (l : List TileId) :
    ∃ ts hs rs, clearTiles s l = { s with tiles := ts, holds := hs, reserved := rs } := by
  induction l generalizing s with
  | nil => exact ⟨s.tiles, s.holds, s.reserved, rfl⟩
  | cons t l ih =>
    obtain ⟨ts, hs, rs, h⟩ := clearTile_eq s t
    obtain ⟨ts', hs', rs', h'⟩ := ih (clearTile s t)
    exact ⟨ts', hs', rs', by rw [clearTiles, h', h]⟩

theorem vacant_clearTile (s : State) (t : TileId) : Claims.Vacant (tileOf (clearTile s t) t) := by
  rw [clearTile, tileOf_setTile_same]
  exact ⟨rfl, fun st => by cases st <;> rfl, rfl, rfl, rfl, rfl, rfl⟩

theorem tileOf_clearTile_of_ne (s : State) {t m : TileId} (h : t ≠ m) : tileOf (clearTile s t) m = tileOf s m := by
  obtain ⟨rs, hr⟩ := releaseEffects_eq s (tileOf s t).effects
  rw [clearTile, tileOf_setTile_of_ne _ _ _ h, hr]
  rfl

theorem vacant_clearTiles_of_vacant {s : State} {m : TileId} (hm : Claims.Vacant (tileOf s m)) (l : List TileId) :
    Claims.Vacant (tileOf (clearTiles s l) m) := by
  induction l generalizing s with
  | nil => exact hm
  | cons t l ih =>
    refine ih ?_
    by_cases h : t = m
    · subst h; exact vacant_clearTile s t
    · rw [tileOf_clearTile_of_ne s h]; exact hm

/-- Every tile of the list is vacant afterwards. -/
theorem vacant_clearTiles (s : State) {m : TileId} {l : List TileId} (hm : m ∈ l) :
    Claims.Vacant (tileOf (clearTiles s l) m) := by
  induction l generalizing s with
  | nil => cases hm
  | cons t l ih =>
    rcases List.mem_cons.mp hm with rfl | h
    · exact vacant_clearTiles_of_vacant (vacant_clearTile s m) l
    · exact ih _ h

/-! ### Gangs -/

theorem gangOf_modGang (s : State) (id : Nat) (f : Gang → Gang) : gangOf (modGang s id f) id = (gangOf s id).map f := by
  rw [gangOf, modGang, tfind_tmod, if_pos rfl]; rfl

theorem gangOf_dropGang (s : State) (id : Nat) : gangOf (dropGang s id) id = none := tfind_tdel_same s.gangs id

theorem abortGang_of {s : State} {id : Nat} {g : Gang} (h : gangOf s id = some g) :
    abortGang s id = modGang (clearTiles s g.tiles) id fun g => { g with state := .aborting } := by
  simp only [abortGang, h]

/-! ### Events -/

/-- Whether a thread is unclaimed depends on the threads that partitions and VFs hold. -/
theorem unclaimed_congr {s u : State}
    (hp : ∀ p, (partOf u p).state = (partOf s p).state ∧ (partOf u p).thrFirst = (partOf s p).thrFirst ∧
      (partOf u p).thrCount = (partOf s p).thrCount ∧ (partOf u p).stewCount = (partOf s p).stewCount)
    (hv : ∀ v, (vfOf u v).state = (vfOf s v).state ∧ (vfOf u v).gtFirst = (vfOf s v).gtFirst ∧
      (vfOf u v).gtCount = (vfOf s v).gtCount) (n : ThreadId) : unclaimed u n = unclaimed s n := by
  simp only [unclaimed, partOfThread, isStewardOf, vfOfThread, hp, hv]

/-- What an event does to the threads depends on them, and on who is unclaimed. -/
theorem sendEvent_threads_congr {s u : State} {n : ThreadId} (hu : unclaimed u n = unclaimed s n)
    (ht : u.threads = s.threads) (e : Event) : (sendEvent u n e).threads = (sendEvent s n e).threads := by
  have hthr : thrOf u n = thrOf s n := by rw [thrOf, thrOf, ht]
  unfold sendEvent
  rw [hu]
  split
  · exact ht
  · simp only [modThr, setThr, hthr, ht]

/-! ### The pager's record (R351) -/

theorem expertAt_eq_none_iff (s : State) (v : VfId) (va : Nat) :
    expertAt s v va = none ↔ ∀ e ∈ s.lodging, e.2.vf = v → va < e.2.vbase ∨ e.2.vbase + e.2.length ≤ va := by
  simp only [expertAt, List.find?_eq_none, decide_eq_true_eq, not_and, not_lt]
  refine forall₂_congr fun e _ => forall_congr' fun _ => ?_
  omega

/-- One more record stands undelivered with a partition's pager. -/
def pagerCounted (s : State) (p : PartId) : State := modPart s p fun q => { q with pagerRecords := q.pagerRecords + 1 }

/-- The pager's record of a page that a task lacks. -/
def pagerEvent (s : State) (t : TileId) (k : Task) (src : Nat) (pc va : Word) : Event :=
  { faultEvent (tileRecord s t k src 0 0 causeAbsent pc va) k.vf.val with pagerOf := some k.part }

theorem partOf_pagerCounted (s : State) (p i : PartId) :
    partOf (pagerCounted s p) i =
      if p = i then { partOf s i with pagerRecords := (partOf s i).pagerRecords + 1 } else partOf s i := by
  unfold pagerCounted modPart
  split
  · subst_vars; rw [partOf_setPart_same]
  · exact partOf_setPart_of_ne _ _ _ ‹_›

/-- The count of records leaves which threads are whose. -/
theorem pagerCounted_threads (s : State) (p i : PartId) :
    (partOf (pagerCounted s p) i).state = (partOf s i).state ∧
      (partOf (pagerCounted s p) i).thrFirst = (partOf s i).thrFirst ∧
      (partOf (pagerCounted s p) i).thrCount = (partOf s i).thrCount ∧
      (partOf (pagerCounted s p) i).stewCount = (partOf s i).stewCount := by
  rw [partOf_pagerCounted]; split <;> exact ⟨rfl, rfl, rfl, rfl⟩

/-- While fewer than 4096 records stand, one more goes to the partition's first Steward. -/
theorem sendPager_room {s : State} {k : Task} (h : (partOf s k.part).pagerRecords < 4096) (t : TileId) (src : Nat)
    (pc va : Word) : sendPager s t k src pc va =
      sendEvent (pagerCounted s k.part) (firstSteward s k.part) (pagerEvent s t k src pc va) := by
  have hfirst : firstSteward (pagerCounted s k.part) k.part = firstSteward s k.part := by
    rw [firstSteward, firstSteward, (pagerCounted_threads s k.part k.part).2.1]
  rw [← hfirst, sendPager, if_pos h]
  rfl

/-- While 4096 stand, the record is counted in word 7 of the statistics and goes nowhere. -/
theorem sendPager_full {s : State} {k : Task} (h : ¬ (partOf s k.part).pagerRecords < 4096) (t : TileId) (src : Nat)
    (pc va : Word) : sendPager s t k src pc va =
      modPart s k.part fun q => { q with stats := vset q.stats 7 (vget q.stats 7 + 1) } := by
  rw [sendPager, if_neg h]

/-- The pager's record changes partitions and threads, and nothing else. -/
theorem sendPager_eq (s : State) (t : TileId) (k : Task) (src : Nat) (pc va : Word) :
    ∃ ps ts, sendPager s t k src pc va = { s with parts := ps, threads := ts } := by
  by_cases h : (partOf s k.part).pagerRecords < 4096
  · rw [sendPager_room h]
    obtain ⟨q, w, he⟩ := sendEvent_eq (pagerCounted s k.part) (firstSteward s k.part) (pagerEvent s t k src pc va)
    exact ⟨_, _, he⟩
  · rw [sendPager_full h]
    exact ⟨_, s.threads, rfl⟩

/-- The record is counted, and goes out as it would without the count. -/
theorem sendPager_room_parts_threads {s : State} {k : Task} (h : (partOf s k.part).pagerRecords < 4096) (t : TileId)
    (src : Nat) (pc va : Word) :
    (partOf (sendPager s t k src pc va) k.part).pagerRecords = (partOf s k.part).pagerRecords + 1 ∧
      (sendPager s t k src pc va).threads =
        (sendEvent s (firstSteward s k.part) (pagerEvent s t k src pc va)).threads := by
  rw [sendPager_room h]
  constructor
  · obtain ⟨q, w, he⟩ := sendEvent_eq (pagerCounted s k.part) (firstSteward s k.part) (pagerEvent s t k src pc va)
    rw [he, partOf_setThr, partOf_pagerCounted, if_pos rfl]
  · have hu : ∀ n, unclaimed (pagerCounted s k.part) n = unclaimed s n :=
      unclaimed_congr (pagerCounted_threads s k.part) fun _ => ⟨rfl, rfl, rfl⟩
    exact sendEvent_threads_congr (hu _) rfl _

/-! ### The restartable fate (R109, R299, R351) -/

/-- The state in which a gang's page has been asked for: not in an expert's range, whose fetch brings it. -/
def pageAsked (s : State) (t : TileId) (k : Task) (src : Nat) (pc va : Word) : State :=
  if (expertAt s k.vf va.toNat).isSome then s else sendPager s t k src pc va

theorem pageAsked_eq (s : State) (t : TileId) (k : Task) (src : Nat) (pc va : Word) :
    ∃ ps ts, pageAsked s t k src pc va = { s with parts := ps, threads := ts } := by
  unfold pageAsked
  split
  · exact ⟨s.parts, s.threads, rfl⟩
  · exact sendPager_eq s t k src pc va

/-- The gang leaves its tiles and waits for the page. -/
theorem pageWaitGang_eq {s : State} {k : Task} {g : Gang} (hg : gangOf s k.gang = some g) (t : TileId) (src : Nat)
    (pc va : Word) : ∃ gs, pageWaitGang s t k src pc va =
      { clearTiles (pageAsked s t k src pc va) g.tiles with gangs := gs } ∧
      tfind gs k.gang = some { g with state := .aborting, pageWait := some (k.asid, va.toNat / 65536), pageTicks := 0 } := by
  obtain ⟨ps, ts, ha⟩ := pageAsked_eq s t k src pc va
  have hg1 : gangOf (pageAsked s t k src pc va) k.gang = some g := by rw [ha]; exact hg
  obtain ⟨ts', hs, rs, hc⟩ := clearTiles_eq (pageAsked s t k src pc va) g.tiles
  have hg2 : gangOf (clearTiles (pageAsked s t k src pc va) g.tiles) k.gang = some g := by rw [hc]; exact hg1
  refine ⟨_, by rw [pageWaitGang, ← pageAsked, abortGang_of hg1]; rfl, ?_⟩
  refine (gangOf_modGang _ k.gang _).trans ?_
  rw [gangOf_modGang, hg2]
  rfl

/-! ### The final fate (R110, R299, R305) -/

/-- One more fault record of a VF stands undelivered. -/
def faultCounted (s : State) (v : VfId) : State := modVf s v fun f => { f with faults := f.faults + 1 }

theorem vfOf_faultCounted (s : State) (v i : VfId) :
    vfOf (faultCounted s v) i = if v = i then { vfOf s i with faults := (vfOf s i).faults + 1 } else vfOf s i := by
  unfold faultCounted modVf
  split
  · subst_vars; rw [vfOf_setVf_same]
  · exact vfOf_setVf_of_ne _ _ _ ‹_›

/-- A fault record's event (R110). -/
def vfFaultEvent (v : VfId) (r : List Word) : Event := { faultEvent r v.val with faultVf := some v }

theorem sendVfFault_eq_sendEvent (s : State) (v : VfId) (r : List Word) :
    sendVfFault s v r = sendEvent (faultCounted s v) (Fin.ofNat 1024 (vfOf s v).faultThr) (vfFaultEvent v r) := rfl

/-- A fault record changes VFs and threads, and nothing else. -/
theorem sendVfFault_eq (s : State) (v : VfId) (r : List Word) :
    ∃ ts, sendVfFault s v r = { s with vfs := (faultCounted s v).vfs, threads := ts } := by
  rw [sendVfFault_eq_sendEvent]
  obtain ⟨q, w, he⟩ := sendEvent_eq (faultCounted s v) (Fin.ofNat 1024 (vfOf s v).faultThr) (vfFaultEvent v r)
  exact ⟨_, he⟩

/-- It goes to FAULTTHR as it would without the count. -/
theorem sendVfFault_threads (s : State) (v : VfId) (r : List Word) :
    (sendVfFault s v r).threads = (sendEvent s (Fin.ofNat 1024 (vfOf s v).faultThr) (vfFaultEvent v r)).threads := by
  have hu : ∀ n, unclaimed (faultCounted s v) n = unclaimed s n :=
    unclaimed_congr (fun _ => ⟨rfl, rfl, rfl, rfl⟩) fun i => by
      rw [vfOf_faultCounted]; split <;> exact ⟨rfl, rfl, rfl⟩
  rw [sendVfFault_eq_sendEvent]
  exact sendEvent_threads_congr (hu _) rfl _

/-- An entry that faults changes entries and pins, and nothing else. -/
theorem faultEntry_eq (s : State) (id : Nat) :
    ∃ es ls, faultEntry s id = { s with entries := es, lodging := ls } := by
  unfold faultEntry unpin
  split
  · exact ⟨s.entries, s.lodging, rfl⟩
  · split
    · exact ⟨_, s.lodging, rfl⟩
    · exact ⟨_, _, rfl⟩

theorem tfind_faultEntry {s : State} {id : Nat} {e : JqEntry} (h : tfind s.entries id = some e) :
    (tfind (faultEntry s id).entries id).map JqEntry.state = some .faulted := by
  simp only [faultEntry, h]
  rw [tfind_tput_same]
  rfl

theorem settleCardFault_eq (s : State) (p : PartId) (slot : Nat) :
    ∃ es ls, settleCardFault s p slot = { s with entries := es, lodging := ls } := by
  unfold settleCardFault
  split
  · split
    · exact faultEntry_eq s _
    · exact ⟨s.entries, s.lodging, rfl⟩
  · exact ⟨s.entries, s.lodging, rfl⟩

/-- The card of a chunk that has faulted, once the chunk's gang is gone. -/
def chunkFaulted (c : Card) (f n id : Nat) : Card :=
  { c with stopped := true, redeal := sortInsert (fun a b => decide (a.1 < b.1)) (f, n) c.redeal, live := c.live.erase id }

theorem mem_sortInsert {α : Type} (before : α → α → Bool) (x y : α) (l : List α) :
    y ∈ sortInsert before x l ↔ y = x ∨ y ∈ l := by
  induction l with
  | nil => simp [sortInsert]
  | cons z l ih =>
    rw [sortInsert]
    split
    · simp
    · simp only [List.mem_cons, ih]; tauto

theorem faultChunk_eq (s : State) (p : PartId) (slot f n id : Nat) :
    faultChunk s p slot f n id =
      setPart s p { partOf s p with cards := tmod (partOf s p).cards slot fun c => chunkFaulted c f n id } := rfl

/-- The gang has left the machine and its class is frozen, with the record sent: what both ends of the final fate share. -/
def gangStopped (s : State) (k : Task) (g : Gang) (r : List Word) : State :=
  freezeClass (dropGang (clearTiles (sendVfFault s k.vf r) g.tiles) k.gang) g.part g.cls

theorem gangStopped_eq (s : State) (k : Task) (g : Gang) (r : List Word) :
    ∃ ts hs rs gs ps, gangStopped s k g r =
      { sendVfFault s k.vf r with tiles := ts, holds := hs, reserved := rs, gangs := gs, parts := ps } := by
  obtain ⟨ts, hs, rs, hc⟩ := clearTiles_eq (sendVfFault s k.vf r) g.tiles
  exact ⟨ts, hs, rs, _, _, by rw [gangStopped, hc]; rfl⟩

theorem gangStopped_entries (s : State) (k : Task) (g : Gang) (r : List Word) :
    (gangStopped s k g r).entries = s.entries := by
  obtain ⟨ts, hs, rs, gs, ps, h⟩ := gangStopped_eq s k g r
  obtain ⟨ths, hv⟩ := sendVfFault_eq s k.vf r
  rw [h, hv]

theorem partOf_gangStopped (s : State) (k : Task) (g : Gang) (r : List Word) :
    partOf (gangStopped s k g r) g.part =
      { partOf s g.part with classes := tmod (partOf s g.part).classes g.cls fun c => { c with frozen := true } } := by
  obtain ⟨ths, hv⟩ := sendVfFault_eq s k.vf r
  obtain ⟨ts, hs, rs, hc⟩ := clearTiles_eq (sendVfFault s k.vf r) g.tiles
  rw [gangStopped, freezeClass, modPart, partOf_setPart_same, hc, hv]
  rfl

/-- What a cause for good leaves: no gang, its class frozen, one more fault record on its way to FAULTTHR, memory as it was,
and vacant tiles. -/
structure Stopped (s u : State) (k : Task) (g : Gang) (r : List Word) : Prop where
  gang : gangOf u k.gang = none
  frozen : (tfind (partOf u g.part).classes g.cls).map JqClass.frozen =
    (tfind (partOf s g.part).classes g.cls).map fun _ => true
  faults : (vfOf u k.vf).faults = (vfOf s k.vf).faults + 1
  mem : u.mem = s.mem
  vacant : ∀ m ∈ g.tiles, Claims.Vacant (tileOf u m)
  threads : u.threads = (sendEvent s (Fin.ofNat 1024 (vfOf s k.vf).faultThr) (vfFaultEvent k.vf r)).threads

theorem stopped_gangStopped (s : State) (k : Task) (g : Gang) (r : List Word) :
    Stopped s (gangStopped s k g r) k g r := by
  obtain ⟨ts, hs, rs, gs, ps, h⟩ := gangStopped_eq s k g r
  obtain ⟨ths, hv⟩ := sendVfFault_eq s k.vf r
  exact {
    gang := gangOf_dropGang _ _
    frozen := by
      rw [partOf_gangStopped]
      simp only [tfind_tmod, if_pos, Option.map_map]
      rfl
    faults := by
      have hf := vfOf_faultCounted s k.vf k.vf
      rw [if_pos rfl] at hf
      rw [h, hv]
      exact congrArg Vf.faults hf
    mem := by rw [h, hv]
    vacant := fun m hm => vacant_clearTiles _ hm
    threads := by rw [h]; exact sendVfFault_threads s k.vf r }

/-- What follows on entries, pins and cards leaves that as it is. -/
theorem Stopped.of_cards {s u w : State} {k : Task} {g : Gang} {r : List Word} {es : Table JqEntry} {ls : Table Lodging}
    {ps : Vector Partition 40} (hu : Stopped s u k g r) (hw : w = { u with entries := es, lodging := ls, parts := ps })
    (hp : (partOf w g.part).classes = (partOf u g.part).classes) : Stopped s w k g r := by
  subst hw
  exact { hu with frozen := by rw [hp]; exact hu.frozen }

theorem stopped_entry (s : State) (k : Task) (g : Gang) (r : List Word) (id : Nat) :
    Stopped s (faultEntry (gangStopped s k g r) id) k g r := by
  obtain ⟨es, ls, hu⟩ := faultEntry_eq (gangStopped s k g r) id
  exact (stopped_gangStopped s k g r).of_cards hu (by rw [hu]; rfl)

theorem faultChunk_classes (s : State) (p : PartId) (slot f n id : Nat) :
    (partOf (faultChunk s p slot f n id) p).classes = (partOf s p).classes := by
  rw [faultChunk_eq, partOf_setPart_same]

theorem stopped_chunk (s : State) (k : Task) (g : Gang) (r : List Word) (slot f n id : Nat) :
    Stopped s (settleCardFault (faultChunk (gangStopped s k g r) g.part slot f n id) g.part slot) k g r := by
  obtain ⟨es, ls, hu⟩ := settleCardFault_eq (faultChunk (gangStopped s k g r) g.part slot f n id) g.part slot
  refine (stopped_gangStopped s k g r).of_cards (hu.trans rfl) ?_
  rw [← faultChunk_classes (gangStopped s k g r) g.part slot f n id, hu]
  rfl

theorem gangOf_sendVfFault (s : State) (v : VfId) (r : List Word) (id : Nat) :
    gangOf (sendVfFault s v r) id = gangOf s id := by
  obtain ⟨ts, h⟩ := sendVfFault_eq s v r
  rw [h]; rfl

/-- The final fate of a gang that an entry supplies: the entry faults. -/
theorem faultGang_entry {s : State} {k : Task} {g : Gang} (hg : gangOf s k.gang = some g) (hc : g.chunk = none)
    (r : List Word) : faultGang (sendVfFault s k.vf r) k.gang = faultEntry (gangStopped s k g r) g.entry := by
  simp only [faultGang, gangOf_sendVfFault, hg, hc]
  rfl

/-- That of a card's chunk: the card deals no more, and its entry faults once no chunk runs. -/
theorem faultGang_chunk {s : State} {k : Task} {g : Gang} {c : Nat × Nat × Nat} (hg : gangOf s k.gang = some g)
    (hc : g.chunk = some c) (r : List Word) : faultGang (sendVfFault s k.vf r) k.gang =
      settleCardFault (faultChunk (gangStopped s k g r) g.part c.1 c.2.1 c.2.2 k.gang) g.part c.1 := by
  simp only [faultGang, gangOf_sendVfFault, hg, hc]
  rfl

/-! ### Which fate a cause has -/

section

variable {s : State} {t : TileId} {st : Stream} {k : Task} {g : Gang} (hk : (tileOf s t).task = some k)
  (hd : (tileOf s t).debug = .none)

include hk hd

/-- PAGE_ABSENT is restartable while no member's region is irrevocable. -/
theorem tileTrap_restartable (hg : gangOf s k.gang = some g) (hi : gangIrrevocable s g = false) (src : Nat) (pc val : Word) :
    tileTrap s t src causeAbsent pc val = pageWaitGang s t k src pc val := by
  simp [tileTrap, tileTrapAt, hk, hd, hg, hi]

theorem tileTrap_irrevocable (hg : gangOf s k.gang = some g) (hi : gangIrrevocable s g = true) (src : Nat) (pc val : Word) :
    tileTrap s t src causeAbsent pc val = faultTile s t k src causeAbsent causeNonrestartable pc val := by
  simp [tileTrap, tileTrapAt, hk, hd, hg, hi]

theorem tileTrap_otherCause {cause : Nat} (h : cause ≠ causeAbsent) (src : Nat) (pc val : Word) :
    tileTrap s t src cause pc val = faultTile s t k src 0 cause pc val := by
  simp [tileTrap, tileTrapAt, hk, hd, h]

end

/-- A task's fault record, word by word (R112). -/
theorem tileRecord_eq {s : State} {k : Task} {g : Gang} (hg : gangOf s k.gang = some g) (t : TileId) (st : Stream)
    (frozen orig cause : Nat) (val : Word) : tileRecord s t k (srcCode st) frozen orig cause (pcOf s) val =
      faultWords s t st k g (frozen * 2 ^ 19) (orig * 2 ^ 8 + cause) val := by
  simp [tileRecord, faultRecord, faultWords, hg, runCount, tickOf, word, Nat.add_assoc]

/-- The record of a cause for good: the class is frozen, and NONRESTARTABLE keeps PAGE_ABSENT as its origin. -/
def finalWords (s : State) (t : TileId) (st : Stream) (k : Task) (g : Gang) (cause : Nat) (val : Word) : List Word :=
  faultWords s t st k g (2 ^ 19) (if cause = 0x07 then 0x070F else cause) val

theorem finalWords_eq {s : State} {k : Task} {g : Gang} (hg : gangOf s k.gang = some g) (t : TileId) (st : Stream)
    (orig cause : Nat) (val : Word) : tileRecord s t k (srcCode st) 1 orig cause (pcOf s) val =
      faultWords s t st k g (2 ^ 19) (orig * 2 ^ 8 + cause) val := by
  rw [tileRecord_eq hg, Nat.one_mul]

/-- Any cause but PAGE_ABSENT, and PAGE_ABSENT in an irrevocable region as NONRESTARTABLE, is final. -/
theorem raise_final {s : State} {t : TileId} {st : Stream} {k : Task} {g : Gang} (hc : s.cur = .tile t st)
    (hk : (tileOf s t).task = some k) (hd : (tileOf s t).debug = .none) (hg : gangOf s k.gang = some g) {cause : Nat}
    (hi : cause ≠ 0x07 ∨ gangIrrevocable s g = true) (val : Word) :
    raise s cause val = .next (faultGang (sendVfFault s k.vf (finalWords s t st k g cause val)) k.gang) := by
  rw [raise_tile hc, finalWords]
  by_cases h7 : cause = 0x07
  · have hirr : gangIrrevocable s g = true := hi.resolve_left (not_not_intro h7)
    subst h7
    rw [show (0x07 : Nat) = causeAbsent from rfl, tileTrap_irrevocable hk hd hg hirr, faultTile, finalWords_eq hg]
    rfl
  · rw [tileTrap_otherCause hk hd h7, faultTile, finalWords_eq hg, if_neg h7, Nat.zero_mul, Nat.zero_add]

/-! ### The fates -/

/-- The restartable fate (R109, R351). -/
theorem pageFate {s : State} {k : Task} {g : Gang} (hg : gangOf s k.gang = some g) (t : TileId) (src : Nat)
    (pc va : Word) :
    let u := pageWaitGang s t k src pc va
    gangOf u k.gang = some { g with state := .aborting, pageWait := some (k.asid, va.toNat / 65536), pageTicks := 0 } ∧
      (∀ v, vfOf u v = vfOf s v) ∧ u.entries = s.entries ∧ u.mem = s.mem ∧
      (∀ p, partOf u p = partOf (pageAsked s t k src pc va) p) ∧ u.threads = (pageAsked s t k src pc va).threads ∧
      ∀ m ∈ g.tiles, Claims.Vacant (tileOf u m) := by
  intro u
  obtain ⟨gs, hu, hgs⟩ := pageWaitGang_eq hg t src pc va
  obtain ⟨ts, hs, rs, hc⟩ := clearTiles_eq (pageAsked s t k src pc va) g.tiles
  obtain ⟨ps, ths, ha⟩ := pageAsked_eq s t k src pc va
  have hvac : ∀ m ∈ g.tiles, Claims.Vacant (tileOf u m) := fun m hm => by
    rw [show u = _ from hu]; exact vacant_clearTiles (pageAsked s t k src pc va) hm
  have hu' : u = { pageAsked s t k src pc va with tiles := ts, holds := hs, reserved := rs, gangs := gs } :=
    hu.trans (by rw [hc])
  refine ⟨?_, fun v => ?_, ?_, ?_, fun p => ?_, ?_, hvac⟩ <;> rw [hu']
  · exact hgs
  · rw [ha]; rfl
  · rw [ha]
  · rw [ha]
  · rfl

theorem pageAsked_unpaged {s : State} {k : Task} {va : Word}
    (h : ¬ (expertAt s k.vf va.toNat = none ∧ (partOf s k.part).pagerRecords < 4096)) (t : TileId) (src : Nat) (pc : Word) :
    (pageAsked s t k src pc va).threads = s.threads := by
  unfold pageAsked
  split
  · rfl
  · rename_i hexp
    rw [sendPager_full fun hroom => h ⟨by simpa using hexp, hroom⟩]
    rfl

theorem pageAsked_paged {s : State} {k : Task} {va : Word} (h : expertAt s k.vf va.toNat = none) (t : TileId) (src : Nat)
    (pc : Word) : pageAsked s t k src pc va = sendPager s t k src pc va := by
  rw [pageAsked, if_neg (by simp [h])]

theorem pagerEvent_record {s : State} {k : Task} {g : Gang} (hg : gangOf s k.gang = some g) (t : TileId) (st : Stream)
    (va : Word) : (pagerEvent s t k (srcCode st) (pcOf s) va).record = pad16 (faultWords s t st k g 0 0x07 va) :=
  (congrArg pad16 (tileRecord_eq hg t st 0 0 causeAbsent va)).trans (by rfl)

/-- The card of a faulted chunk, and the entry behind it. -/
theorem settleCardFault_faultChunk {s : State} {p : PartId} {slot f n id : Nat} {c : Card}
    (hc : tfind (partOf s p).cards slot = some c) :
    let u := settleCardFault (faultChunk s p slot f n id) p slot
    tfind (partOf u p).cards slot = some (chunkFaulted c f n id) ∧
      ∀ e, tfind s.entries c.entry = some e →
        (tfind u.entries c.entry).map JqEntry.state = some (if c.live.erase id = [] then .faulted else e.state) := by
  intro u
  have hcard : tfind (partOf (faultChunk s p slot f n id) p).cards slot = some (chunkFaulted c f n id) := by
    rw [faultChunk_eq, partOf_setPart_same]
    simp only [tfind_tmod, if_pos, hc]
    rfl
  refine ⟨?_, fun e he => ?_⟩
  · obtain ⟨es, ls, hu⟩ := settleCardFault_eq (faultChunk s p slot f n id) p slot
    rw [show u = _ from hu]
    exact hcard
  · have he' : tfind (faultChunk s p slot f n id).entries (chunkFaulted c f n id).entry = some e := he
    by_cases hl : c.live.erase id = []
    · have hu : u = faultEntry (faultChunk s p slot f n id) (chunkFaulted c f n id).entry := by
        simp only [u, settleCardFault, hcard]
        rw [if_pos ⟨rfl, hl⟩]
      rw [hu, if_pos hl]
      exact tfind_faultEntry he'
    · have hu : u = faultChunk s p slot f n id := by
        simp only [u, settleCardFault, hcard]
        rw [if_neg fun h => hl h.2]
      rw [hu, if_neg hl]
      exact congrArg (Option.map JqEntry.state) he'

/-- Settles O54: the fate is `pageFate` where the cause is restartable, and else the gang is `Stopped` and its entry or its card
takes the fault. -/
theorem tileFates : Obligations.TileFates := by
  unfold Obligations.TileFates
  intro s t st k g val hc hk hd hg
  refine ⟨fun hi => ⟨_, (raise_tile hc 0x07 val).trans
    (congrArg _ (tileTrap_restartable hk hd hg hi _ _ _)), ?_⟩, fun cause e hi hch he => ?_, fun cause c hi hch => ?_⟩
  · obtain ⟨hgang, hvfs, hent, hmem, hparts, hthr, hvac⟩ := pageFate hg t (srcCode st) (pcOf s) val
    refine ⟨hgang, by rw [hvfs], hent, hmem, ?_, hvac⟩
    rw [← expertAt_eq_none_iff, hparts, hthr]
    refine ⟨fun hp => pageAsked_unpaged hp _ _ _, fun ⟨hexp, hroom⟩ => ?_⟩
    obtain ⟨hcount, hsent⟩ := sendPager_room_parts_threads hroom t (srcCode st) (pcOf s) val
    rw [pageAsked_paged hexp]
    exact ⟨hcount, _, hsent, rfl, pagerEvent_record hg t st val⟩
  · have hS := stopped_entry s k g (finalWords s t st k g cause val) g.entry
    refine ⟨_, _, (raise_final hc hk hd hg hi val).trans (by rw [faultGang_entry hg hch]), hS.gang, ?_, hS.frozen,
      hS.faults, hS.mem, hS.vacant, hS.threads, rfl, rfl⟩
    exact tfind_faultEntry (by rw [gangStopped_entries]; exact he)
  · have hS := stopped_chunk s k g (finalWords s t st k g cause val) c.1 c.2.1 c.2.2 k.gang
    refine ⟨_, _, (raise_final hc hk hd hg hi val).trans (by rw [faultGang_chunk hg hch]), hS.gang, hS.frozen,
      hS.faults, hS.mem, hS.vacant, hS.threads, rfl, rfl, fun cd hcd => ?_⟩
    have hcd' : tfind (partOf (gangStopped s k g (finalWords s t st k g cause val)) g.part).cards c.1 = some cd := by
      rw [partOf_gangStopped]; exact hcd
    obtain ⟨hcard, hentry⟩ := settleCardFault_faultChunk (f := c.2.1) (n := c.2.2) (id := k.gang) hcd'
    exact ⟨_, hcard, rfl, rfl, rfl, fun f => mem_sortInsert _ _ _ _,
      fun e he => hentry e (by rw [gangStopped_entries]; exact he)⟩

end Sys2Proof.Machine
end

section
/-! SUPPORT. A change of an owner tag asks for a zeroing, and a request that comes lets every free Drover take one that waits
(R341, R353). O52 says of every state that the other requests stay as they were but for their units; in a state whose table of
requests lists a number twice, the grant of the second puts it in the place of the first. -/

namespace Sys2Proof.Machine

/-! ### A table of requests that lists a number twice -/

/-- A Steward's copy of 128 bytes that waits for a Drover. -/
def waitingCopy : Drover := { tierCopy with unit := none, length := 128 }

/-- Frame 0 is VF 0's, VF 1 may hold a loan frame, Keeper thread 0 stands at its level, and request 5 is listed twice: as the
copy of 64 bytes that Drover 0 serves, and as a copy of 128 bytes that waits. -/
def listedTwice : State :=
  { State.reset with
    seq := 10, drovers := [(5, tierCopy), (5, waitingCopy)], owners := [(0, 1)]
    threads := vset State.reset.threads 0 { level := 2, home := 2, held := false }
    vfs := vset State.reset.vfs 1 { state := 2, frBurst := 1 } }

/-- The zeroing of frame 0. -/
def zeroFrame : Drover :=
  { kind := .frame 0, part := none, pool := 0, unit := none, pos := 0, vf := none, src := 0, dst := 0, length := 0x200000,
    done := none, notify := none }

/-- The tag of frame 0 passes from VF 0 to VF 1: the waiting copy and the zeroing take Drovers, and of request 5 only the copy
that waited is left. -/
theorem exec_ownerTag_listedTwice :
    exec (.ownerTag 0 0 2) listedTwice = .next
      { listedTwice with
        owners := [(0, 2)], zeroing := [0], seq := 11, lastServed := [(2, 40)]
        drovers := [(5, { waitingCopy with unit := some 1 }), (10, { zeroFrame with unit := some 0 })] } := by
  rfl

/-- Refutes O52, by the clause of DeviceRegisters on owner tags: the request of a zeroing is to leave each other request as it
was but for its unit, and in `listedTwice` request 5 is the copy of 64 bytes before and the one of 128 bytes after. The clause
asks nothing of the table; where its numbers rise (`trising`), none stands twice. -/
theorem not_deviceTurns : ¬ Obligations.DeviceTurns := by
  unfold Obligations.DeviceTurns Claims.DeviceRegisters
  rintro ⟨-, ⟨-, -, -, htag, -⟩, -⟩
  obtain ⟨u, hu, hchange⟩ := htag listedTwice 0 0 2 (by decide) (by decide) (by decide)
  obtain ⟨x, ⟨-, -, -, hothers, -⟩, -⟩ := hchange
  rw [exec_ownerTag_listedTwice] at hu
  have hfive := hothers 5 (by decide)
  rw [← Host.Outcome.next.inj hu] at hfive
  exact absurd (congrArg (Option.map Drover.length) hfive) (by decide)

end Sys2Proof.Machine
end
